-- ==== Sys2Proof/Word.lean ====
section
/-! DEFINITION. The 36-bit word of the LXV768 (R5). -/

namespace Sys2Proof

/-- Every register, memory word, ring data word and battery-store word (R5). -/
abbrev Word := BitVec 36

/-- One byte of the flash (R359) and of the NVM buffer (R378). -/
abbrev Byte := BitVec 8

end Sys2Proof
end

