-- ==== Sys2Proof/Syntax.lean ====
section
/-! DEFINITION. The commands of the block: one constructor of `Instr` per row of spec/opcode_table.json. A row gives no
operand fields, so an operand names the resource the row is about and carries what only the outside supplies: a written
word and its writer, a level at a pin, a measured sum, a die sample, a received packet (assumption 2). -/

namespace Sys2Proof

/-- The two ring directions (R4) and the host at the head of each (R382). -/
inductive Side where
  | a | b
  deriving DecidableEq, Repr

/-- Who writes a register, for the order of R7 and R427. -/
inductive Writer where
  | router (rule : Nat)
  | responder
  | rearm
  | seq (bank : Nat)
  | host (h : Side)
  | loader (target : Nat)
  deriving DecidableEq, Repr

/-- The four requester classes of the ledger and of arbitration (R35, R283), in their order. -/
inductive Cls where
  | seq | router | cal | host
  deriving DecidableEq, Repr

/-- A supply whose good window the unit monitors (R434); VPOS and VNEG per pin die (R412). -/
inductive Rail where
  | vddc | vddio | vdda | vaon | vrf | vbak
  | vpos (die : Fin 6)
  | vneg (die : Fin 6)
  deriving DecidableEq, Repr

/-- A register write as it reaches CORE: who writes, the word, and the CORE cycle of the window (R46). -/
structure Wr where
  who : Writer
  val : Word
  cyc : Nat
  deriving DecidableEq, Repr

/-- An instant within the current tick: fine units after the tick instant, and whether it was measured (R57). -/
structure Instant where
  fine : Nat
  interp : Bool
  deriving DecidableEq, Repr

/-- What one strobe sees: the bank channel index, and the level of the pin in µV at each of its decisions (R87). -/
structure Obs where
  ch : Fin 64
  levels : List Int
  deriving DecidableEq, Repr

/-- One application of a vector line: the vector start, in fine units after the tick instant, and the strobes for which the
levels at the pin are given. -/
structure Vec where
  start : Nat
  obs : List Obs
  deriving DecidableEq, Repr

/-- A ring packet (R390) as it arrives: the header fields, the payload words and the received CRC; `viol` says that it
contained a code violation (R394). -/
structure Pkt where
  ptype : Nat
  dst : Nat
  dsth : Nat
  src : Nat
  srch : Nat
  tag : Nat
  timed : Bool
  ttl : Nat
  ring : Side
  addr : Nat
  payload : List Word
  bad : Bool
  status : Nat
  crc : Nat
  viol : Bool
  deriving DecidableEq, Repr

/-- The reading of a PMU tracking monitor in one tick (R185): bank-independent channel number, pin voltage as FV code,
output current as FI code of the range in force, and whether a clamp holds the output. -/
structure Monitor where
  ch : Fin 768
  vCode : Nat
  iCode : Int
  clamp : Bool
  deriving DecidableEq, Repr

/-- The detector readings of a transmitting port in one tick (R307), in the coding of RF_MISMATCH. -/
structure RfReading where
  port : Fin 8
  fwd : Nat
  rev : Nat
  deriving DecidableEq, Repr

/-- The input of a digitizer in the tick before, in µV: the level at each of its sample instants, in order (R229, R241). -/
structure Samples where
  eng : Fin 24
  volts : List Int
  deriving DecidableEq, Repr

/-- What the dies and pins present at a tick boundary: the sample of RFGNT (R304), the monitor readings of the tick before it
(R188), the levels in µV that the light-vigil samples of the tick instant find at their pins (R107), the digitizers' inputs in
the tick before (R229) and the channels whose driver limited its current in the tick before (R83). -/
structure BoundaryIn where
  rfgnt : Bool
  monitors : List Monitor
  pins : List (Fin 768 × Int)
  samples : List Samples
  limits : List (Fin 768)
  deriving DecidableEq, Repr

/-- What the RF die presents to a control window (R307), and the card's TICK edge: its arrival in fine units after the local
tick instant, before the epact correction (R59), none for a missing edge. -/
structure WindowIn where
  rf : List RfReading
  edge : Option Int
  deriving DecidableEq, Repr

/-- How the flash answers a start-up or a reload: whether SFDP can be read and advertises Octal DDR entry (R358), and how
many attempts of each segment index fail in transfer (R369). -/
structure FlashIn where
  sfdp : Bool
  octal : Bool
  failed : List (Nat × Nat)
  deriving DecidableEq, Repr

/-- A figure of one measurement pass that a statistical test of R318 decides. -/
inductive CalFig where
  /-- The pin-quiet test: the mean and the standard deviation of the current in nA, the standard deviation of the voltage in µV. -/
  | quiet (mean : Int) (sdI sdV : Nat)
  /-- Decisions above, of 4,096, at each of the successive codes of a threshold's transition. -/
  | occupancy (counts : List Nat)
  /-- The standard deviation of a driven level, in µV. -/
  | level (sd : Nat)
  /-- A load current, in µA. -/
  | load (ua : Int)
  /-- Hits of a time-to-digital converter, those expected, and its bins after selection. -/
  | hits (total expected : Nat) (bins : List Nat)
  /-- The standard deviation of the drive edge's timestamp, in 1/16 fine unit. -/
  | edge (sd : Nat)
  /-- The standard deviation of the voltage samples of a PMU, in µV. -/
  | pmuV (sd : Nat)
  /-- The standard deviation of the current samples of a PMU in a range, in pA. -/
  | pmuI (range : Fin 5) (sd : Nat)
  /-- The standard deviation per sample of a converter in µV, and its reading of REFV in nV. -/
  | convert (sd refv : Nat)
  /-- The code density of a digitizer in the central 90 % of its codes: the least and the largest count, all counts and codes;
  and the over-range samples at each end, of 2^24. -/
  | density (least most total codes below above : Nat)
  /-- The standard deviation of a source cell's measurement, and the median cell, in one unit. -/
  | cell (sd median : Nat)
  /-- The spread of 64 readings of an RF port, in 0.001 dB. -/
  | spread (mdB : Nat)
  deriving DecidableEq, Repr

/-- What one pass measures of one element (R318, R327): the figures of its tests; its slot entries, and its common ones, in
1/256 LSB, but for selections, which stand as they are stored; and for each common entry that is a selection the measure of
merit of the first pass's choice and of the best choice, as this pass judges them, in 1/256 LSB. -/
structure CalPass where
  figs : List CalFig
  slot : List Int
  common : List Int
  merits : List (Nat × Nat)
  deriving DecidableEq, Repr

/-- The two passes of one element of a calibration group (R327). -/
structure CalRun where
  p1 : CalPass
  p2 : CalPass
  deriving DecidableEq, Repr

/-- The commands, in the order of the table. -/
inductive Instr where
  | vaonRise
  | resetNLow
  | startUp (temps : List Int) (trained : List Bool) (flash : FlashIn)
  | enumerationWaitTimeout
  | firstTickAlignment (decoded : Nat)
  | freeRunStart
  | supplyGood (rail : Rail)
  | mainSupplyFall (rail : Rail)
  | dieRailFall (rail : Rail)
  | dieRailRetrain (die : Fin 7)
  | watchdog
  | corePllLossOfLock
  | convPllLossOfLock (die : Fin 7)
  | convPllLock (die : Fin 7)
  | flitRetry (die : Fin 7)
  | linkFault (die : Fin 7)
  | linkRetrainSuccess (die : Fin 7)
  | linkRetrainSet (die : Fin 7)
  | tickBoundary (inp : BoundaryIn)
  | controlWindow (inp : WindowIn)
  | heldBackEnqueue
  | ledgerRequestAged (id : Nat)
  | powerCapWrite (w : Wr)
  | powerDieCapWrite (half : Fin 2) (w : Wr)
  | tickFrame (widths : List (Option Nat))
  | tickLost
  | leapSchedule
  | leapTick
  | leapJump (w : Wr)
  | adopt (w : Wr)
  | epactWrite (w : Wr)
  | epactSlewEnd
  | epactStart
  | marker (ring : Side) (count : Nat) (arrival : Nat) (offset : Nat)
  | epactMeasurementEnd
  | tickCountLoRead (h : Side) (cyc : Nat)
  | seasonBoundaryRequest (who : Writer) (cyc : Nat)
  | seasonInterval
  | traceabilityRecordWrite (readBackOk : Bool)
  | seasonsCounterWrite (readBackOk : Bool)
  | poweredHoursIncrement
  | temperatureSample (die : Fin 8) (t : Int)
  | chModeWrite (c : Fin 768) (w : Wr)
  | driverFault (c : Fin 768)
  | drvFaultClear (c : Fin 768) (cyc : Nat)
  | rawCrossing (c : Fin 768) (level : Int) (fine : Nat) (discarded : Bool)
  | filteredTransition (c : Fin 768) (decision : Nat) (discarded : Bool)
  | chLatchWrite (c : Fin 768) (val : Word)
  | chEdgeLoRead (c : Fin 768) (h : Side)
  | chEdgeStatRead (c : Fin 768) (h : Side)
  | vigilMatch (c : Fin 768) (level : Int) (cyc : Nat)
  | deepMatchToCore (c : Fin 768)
  | c9TransferDone (n : Nat)
  | wakeStatusClear (val : Word)
  | enelleMatch (unit bcast : Bool)
  | deepVigilRequest (cyc : Nat)
  | deepPendingEntry
  | deepReadyEntry
  | wakeFromDeep
  | wakingAlignment (decoded : Nat)
  | wakingFrameTimeout
  | xt32Failure
  | vectorMemoryWrite (b : Fin 12) (line : Fin 262144) (w : Fin 8) (val : Word)
  | next (b : Fin 12) (v : Vec)
  | rept (b : Fin 12) (vs : List Vec)
  | jump (b : Fin 12) (v : Vec)
  | lset (b : Fin 12) (v : Vec)
  | loop (b : Fin 12) (v : Vec)
  | call (b : Fin 12) (v : Vec)
  | ret (b : Fin 12) (v : Vec)
  | wflag (b : Fin 12) (v : Vec)
  | wtick (b : Fin 12) (v : Vec)
  | wtickExpiry (b : Fin 12)
  | season (b : Fin 12) (v : Vec)
  | mloop (b : Fin 12) (v : Vec)
  | hand (b : Fin 12) (v : Vec)
  | wreg (b : Fin 12) (v : Vec)
  | wregCommit (b : Fin 12)
  | halt (b : Fin 12) (v : Vec)
  | illegalOp (b : Fin 12)
  | seqGo (b : Fin 12) (cond flag addr : Nat)
  | seqStop (b : Fin 12)
  | seqAbort (b : Fin 12)
  | sequencerStart (b : Fin 12)
  | bankModeRequest (b : Fin 12) (w : Wr)
  | vecPeriodWrite (b : Fin 12) (w : Wr)
  | busCycle (b : Fin 12) (fine : Nat) (cut : Bool)
  | dataHoldEnd (b : Fin 12) (fine : Nat)
  | responderRamWrite (b : Fin 12) (entry : Fin 4096) (val : Word)
  | respHitsRead (b : Fin 12)
  | respErrsRead (b : Fin 12)
  | respFirstmissRead (b : Fin 12)
  | pmuCtlWrite (c : Fin 768) (w : Wr)
  | clampEntry (c : Fin 768) (i : Instant)
  | pmcGo (b : Fin 12) (k : Fin 8) (who : Writer)
  | pmcStop (b : Fin 12) (k : Fin 8)
  | pmcResult (b : Fin 12) (k : Fin 8) (sum : Int) (overRange : Bool)
  | chPmuResRead (c : Fin 768) (h : Side)
  | pmcStatRead (b : Fin 12) (k : Fin 8)
  | sourceEnable (b : Fin 12) (j : Fin 2) (who : Writer)
  | sourceRangeChange (b : Fin 12) (j : Fin 2) (range : Fin 3) (load : Bool)
  | sourcePlayGo (b : Fin 12) (j : Fin 2)
  | sourcePlayStop (b : Fin 12) (j : Fin 2)
  | playbackStart (b : Fin 12) (j : Fin 2)
  | playbackEnd (b : Fin 12) (j : Fin 2)
  | sourceLimit (b : Fin 12) (j : Fin 2) (i : Instant)
  | sourceFault (b : Fin 12) (j : Fin 2)
  | sourceFaultClear (b : Fin 12) (j : Fin 2)
  | aeEnable (b : Fin 12) (j : Fin 2) (who : Writer)
  | aeGo (b : Fin 12) (j : Fin 2)
  | aeStop (b : Fin 12) (j : Fin 2)
  | aeForce (b : Fin 12) (j : Fin 2)
  | triggerTransition (b : Fin 12) (j : Fin 2) (cond : Fin 4) (i : Instant) (level : Int)
  | recordComplete (b : Fin 12) (j : Fin 2)
  | segmentRearm (b : Fin 12) (j : Fin 2)
  | recordPop (b : Fin 12) (j : Fin 2)
  | aeStatusRead (b : Fin 12) (j : Fin 2)
  | ruleWrite (n : Fin 64) (word : Fin 4) (w : Wr)
  | routerTimer (k : Fin 4)
  | timedCommandDue (code : Fin 16) (at_ : Nat)
  | intStatusClear (val : Word) (cyc : Nat)
  | rtStatusWakeClear
  | rtStatusRead
  | arbitrationRequestAged (id : Nat)
  | rfTxGo (p : Fin 8) (who : Writer)
  | rfTxStop (p : Fin 8)
  | transmitStart (p : Fin 8)
  | transmitEnd (p : Fin 8)
  | transmitTimeout (p : Fin 8)
  | coexWaitExpiry (p : Fin 8)
  | rfreqTailEnd
  | rfSynSelect (p : Fin 8) (y : Fin 2)
  | synFreqChange (y : Fin 2) (hz : Nat)
  | synLockGained (y : Fin 2) (i : Instant)
  | synLockLost (y : Fin 2) (i : Instant)
  | synCalGo (y : Fin 2) (h : Side)
  | synAutoCal (y : Fin 2)
  | synCalComplete (y : Fin 2) (i : Instant)
  | synCalFail (y : Fin 2)
  | rxEnable (p : Fin 8) (who : Writer)
  | rxIntervalEnd (p : Fin 8) (pwr : Int)
  | calGo
  | calStop
  | calGroupHold
  | calPassDone (runs : List CalRun)
  | calCommit (readBackOk : Bool)
  | calCommitComplete (readBackOk : Bool)
  | tslotInvalidation
  | storeWindowRead (h : Side) (i : Fin 65536)
  | storeWindowWrite (i : Fin 65536) (val : Word)
  | reloadRequest (target : Fin 16)
  | reloadStart (flash : FlashIn)
  | reloadEnd
  | nvmRead
  | nvmProgram
  | nvmErase
  | nvmVerify
  | nvmActivate (actReload : Bool)
  | nvmCancel
  | nvmOperationComplete (reportedOk : Bool)
  | nvmDataAccess (val : Option Word)
  | nvmAddrWrite (val : Word)
  | slotActivation
  | actseqProgram
  | read (inp : Side) (p : Pkt) (cyc : Nat)
  | write (inp : Side) (p : Pkt) (cyc : Nat)
  | writeNr (inp : Side) (p : Pkt) (cyc : Nat)
  | command (inp : Side) (p : Pkt) (cyc : Nat)
  | enum (inp : Side) (p : Pkt)
  | transitPacket (inp : Side) (p : Pkt)
  | packetSend (h : Side)
  | timedWriteDue (at_ : Nat)
  | alive (inp : Side) (ready wrapped : Bool) (sender : Nat)
  | aliveSend
  | wordAlignment (inp : Side)
  | alignmentLoss (inp : Side)
  | inputDown (inp : Side)
  | unwrap (inp : Side)
  | dieLinkStatusRead
  | tickStatusRead
  | tickBudgetRead
  | ringErrRead (inp : Side)
  | chVigilTsLoRead (c : Fin 768) (h : Side)
  | faultStatusClear (val : Word)
  | registerWrite (addr : Nat) (w : Wr)
  | vigilClockEdge (wakein : Bool) (cyc : Nat) (pins : List (Fin 768 × Int))
  | oscillatorRestart
  | enelleWakeEvent (unit bcast : Bool)
  deriving DecidableEq, Repr

end Sys2Proof
end

