-- ==== Sys2Proof/Decode.lean ====
section
/-! DEFINITION. Decoding a table word. No row of spec/opcode_table.json gives bits: a command has no word (assumption 8). -/

namespace Sys2Proof

/-- No row of the table gives bits, so no word spells a command (assumption 8). -/
def decodeTableWord (_nbits _w : Nat) : Option Instr := none

end Sys2Proof
end

