-- ==== Sys2Proof/Config.lean ====
section
/-! DEFINITION. What one device fixes: the power ledger's charges (R32), the sizes of queues and FIFOs, and the free
values, which have no body. -/

namespace Sys2Proof.Config

/-- A PMU tracking-monitor reading, as an FV or FI code, for which the tick boundary carries no reading (assumption 9):
a free value, fresh for each value of the state's counter. -/
opaque freeReading : Nat → Int

/-- The oscillator bands that a synthesiser calibration selects (R291): a free value. -/
opaque freeBand : Nat → Nat

/-- The content of a battery-store word whose write was read back wrong (R350): a free value. -/
opaque freeStore : Nat → Word

/-- A flash byte after a program or an erase that the flash reports as failed (R379): a free value. -/
opaque freeByte : Nat → BitVec 8

/-- Cap = CAP × 0.25 W (POWER_CAP). -/
def capUnit : Nat := 250
/-- Unit base charge in mW (R32). -/
def unitBase : Nat := 1500
/-- Pin-die CONV PLL, per die (R32). -/
def pllCharge : Nat := 150
/-- Bank base (R32). -/
def bankCharge : Nat := 100
/-- Channel in light vigil (R32). -/
def vigilCharge : Nat := 1
/-- Precision converter (R32). -/
def pmcCharge : Nat := 8
/-- Source (R32). -/
def srcCharge : Nat := 180
/-- Digitizer and its AE (R32). -/
def aeCharge : Nat := 150
/-- RF die base (R32). -/
def rfBase : Nat := 200
/-- Synthesiser (R32). -/
def synCharge : Nat := 250
/-- RF port receiving (R32). -/
def rxCharge : Nat := 200
/-- RF port transmitting (R32). -/
def txCharge : Nat := 300
/-- Channel held by the calibration engine (R325). -/
def calChanCharge : Nat := 180
/-- RF port held by the calibration engine (R325). -/
def calPortCharge : Nat := 700

/-- Channel active, by the vector period P of its bank (R32, R139). -/
def vecCharge (p : Nat) : Nat :=
  if p ≤ 5 then 30 else if p ≤ 11 then 20 else if p ≤ 47 then 12 else 5

/-- PMU range charge while forcing (R182). -/
def pmuCharge (range : Nat) : Nat :=
  if range ≤ 2 then 1 else if range = 3 then 4 else 150

/-- Ledger queue entries that are not reserved (R48). -/
def ledgerShared : Nat := 177
/-- Ticks after which a waiting or losing request is aged (R36, R284). -/
def agedTicks : Nat := 64
/-- Edge FIFO depth (R101). -/
def edgeDepth : Nat := 16
/-- Record FIFO depth (R255). -/
def recDepth : Nat := 16
/-- Interrupt and notice queue depth (R280). -/
def noteDepth : Nat := 64
/-- Requests held per host (R395). -/
def requestDepth : Nat := 16
/-- Timed writes held (R396) and timed commands held (R275). -/
def timedDepth : Nat := 8
/-- Call stack depth (R144). -/
def stackDepth : Nat := 8
/-- Coefficient steps per window (R50). -/
def calSteps : Nat := 2048
/-- Fine units of an ordinary tick and of one leap step (R60). -/
def tickFine : Nat := 153600
/-- Fine units of one leap step, 5 CORE cycles (R60, R63). -/
def stepFine : Nat := 3072
/-- The last CORE cycle at which an AT write still takes effect at the end of the tick (R46). -/
def lastWriteCycle : Nat := 210

end Sys2Proof.Config
end

