-- ==== Sys2Proof/Machine/Bits.lean ====
section
/-! DEFINITION. Bit fields of a 36-bit word (R5): a field is its lowest bit and its width. Two's complement readings and the
saturating counts that the manual's counters use. -/

namespace Sys2Proof.Machine

/-- A field of a register: its lowest bit and its width (R5). -/
structure Fld where
  lo : Nat
  width : Nat
  deriving DecidableEq, Repr

/-- The word with the field's bits set. -/
def Fld.mask (f : Fld) : Word := BitVec.ofNat 36 (2 ^ f.width - 1) <<< f.lo

/-- The field's value. -/
def Fld.get (f : Fld) (x : Word) : Nat := ((x >>> f.lo) &&& BitVec.ofNat 36 (2 ^ f.width - 1)).toNat

/-- The word with the field set to `v` (the value's bits above the field are dropped). -/
def Fld.put (f : Fld) (x : Word) (v : Nat) : Word :=
  (x &&& ~~~f.mask) ||| ((BitVec.ofNat 36 v &&& BitVec.ofNat 36 (2 ^ f.width - 1)) <<< f.lo)

/-- One bit of a field of flags, as a field. -/
def Fld.bit (f : Fld) (i : Nat) : Fld := ⟨f.lo + i, 1⟩

/-- A field of one bit read as a Bool. -/
def Fld.on (f : Fld) (x : Word) : Bool := f.get x != 0

/-- The largest value a field holds. -/
def Fld.max (f : Fld) : Nat := 2 ^ f.width - 1

/-- 1 for true, 0 for false. -/
def bit01 (b : Bool) : Nat := if b then 1 else 0

/-- A value of `w` bits read as two's complement. -/
def twos (w v : Nat) : Int := if v % 2 ^ w < 2 ^ (w - 1) then (v % 2 ^ w : Nat) else ((v % 2 ^ w : Nat) : Int) - (2 ^ w : Nat)

/-- The `w`-bit two's complement coding of an integer. -/
def untwos (w : Nat) (i : Int) : Nat := (i % (2 ^ w : Nat)).toNat

/-- A count that saturates at the field's largest value. -/
def satAdd (f : Fld) (v n : Nat) : Nat := min (v + n) f.max

/-- Bit `i` of a mask held as a number. -/
def testMask (m i : Nat) : Bool := m.testBit i

/-- The positions of the set bits of a mask below `n`, ascending. -/
def maskList (n m : Nat) : List Nat := (List.range n).filter (fun i => m.testBit i)

/-- An integer limited to an interval. -/
def clampInt (lo hi x : Int) : Int := if x < lo then lo else if hi < x then hi else x

/-- Round a rational `p / q` (q positive) to the nearest integer, halves away from zero (R334). -/
def roundAway (p : Int) (q : Nat) : Int :=
  if 0 ≤ p then (2 * p + q) / (2 * q) else -((2 * (-p) + q) / (2 * q))

end Sys2Proof.Machine
end

