-- ==== Sys2Proof/Machine/Addr.lean ====
section
/-! DEFINITION. The register addresses (namespace A, R419 to R423) and the bit fields (namespace F, the field tables of the
owning chapters) of the LXV768, one definition per register type and per field, under the names the manual gives them. -/

namespace Sys2Proof.Machine

namespace A

def UNIT_ID0 : Nat := 0x0
def UNIT_ID1 : Nat := 0x1
def UNIT_ADDR : Nat := 0x2
def UNIT_STATUS : Nat := 0x3
def PWR_STATUS : Nat := 0x4
def CLK_STATUS : Nat := 0x5
def DIE_LINK_STATUS : Nat := 0x6
def FAULT_STATUS : Nat := 0x8
def FAULT_ENABLE : Nat := 0x9
def FAULT_DIE : Nat := 0xa
def INT_STATUS : Nat := 0xc
def INT_ENABLE : Nat := 0xd
def INT_CTL : Nat := 0xe
def FAULT_BANK (b : Nat) : Nat := 0x10 + b
def TICK_COUNT_LO : Nat := 0x20
def TICK_COUNT_HI : Nat := 0x21
def TICK_STATUS : Nat := 0x22
def TICK_BUDGET : Nat := 0x23
def LEAP_CTL : Nat := 0x24
def EPACT : Nat := 0x25
def EPACT_CTL : Nat := 0x26
def EPACT_MEAS_A : Nat := 0x27
def EPACT_MEAS_B : Nat := 0x28
def SEASON_CTL : Nat := 0x30
def SEASON_COUNT : Nat := 0x31
def SEASON_STATUS : Nat := 0x32
def SEASON_REC (i : Nat) : Nat := 0x40 + i
def POWER_CAP : Nat := 0x50
def POWER_LEDGER : Nat := 0x51
def POWER_REFUSE : Nat := 0x52
def POWER_REFUSE_SH : Nat := 0x53
def POWER_DIE_CAP (h : Nat) : Nat := 0x54 + h
def POWER_DIE_USE (h : Nat) : Nat := 0x56 + h
def TEMP_CORE : Nat := 0x58
def TEMP_PIN (d : Nat) : Nat := 0x59 + d
def TEMP_RF : Nat := 0x5f
def ALMANAC_CTL : Nat := 0x60
def ALMANAC_STATUS : Nat := 0x61
def NVM_ADDR : Nat := 0x62
def NVM_DATA : Nat := 0x63
def NVM_CMD : Nat := 0x64
def NVM_STATUS : Nat := 0x65
def RING_STATUS : Nat := 0x70
def RING_ERR_A : Nat := 0x71
def RING_ERR_B : Nat := 0x72
def REF_DECLARE : Nat := 0x78
def CHUCK_DECLARE : Nat := 0x79
def BS_STATUS : Nat := 0x7c
def WAKE_CTL : Nat := 0x80
def WAKE_CODE : Nat := 0x81
def WAKE_BCODE : Nat := 0x82
def WAKE_STATUS : Nat := 0x83
def WAKE_ETIME : Nat := 0x84
def VIGIL_TIME : Nat := 0x85
def WAKE_BANK (b : Nat) : Nat := 0x90 + b
def WAKE_TIME (b : Nat) : Nat := 0xa0 + b
def BANK_MODE (b : Nat) : Nat := 0x1000 + b * 0x100 + 0x0
def BANK_STATUS (b : Nat) : Nat := 0x1000 + b * 0x100 + 0x1
def SEQ_START (b : Nat) : Nat := 0x1000 + b * 0x100 + 0x2
def SEQ_AT (b : Nat) : Nat := 0x1000 + b * 0x100 + 0x3
def SEQ_PC (b : Nat) : Nat := 0x1000 + b * 0x100 + 0x4
def SEQ_VCNT (b : Nat) : Nat := 0x1000 + b * 0x100 + 0x5
def SEQ_FLAGS (b : Nat) : Nat := 0x1000 + b * 0x100 + 0x6
def SEQ_CNT (b : Nat) (c : Nat) : Nat := 0x1000 + b * 0x100 + 0x07 + c
def VEC_PERIOD (b : Nat) : Nat := 0x1000 + b * 0x100 + 0x0b
def BANK_ESEL (b : Nat) (k : Nat) : Nat := 0x1000 + b * 0x100 + 0x0c + k
def ES_DRV (b : Nat) (n : Nat) : Nat := 0x1000 + b * 0x100 + 0x10 + 3 * n
def ES_RTN (b : Nat) (n : Nat) : Nat := 0x1000 + b * 0x100 + 0x11 + 3 * n
def ES_STB (b : Nat) (n : Nat) : Nat := 0x1000 + b * 0x100 + 0x12 + 3 * n
def BANK_CH_INT (b : Nat) (k : Nat) : Nat := 0x1000 + b * 0x100 + 0x1c + k
def RESP_CTL (b : Nat) : Nat := 0x1000 + b * 0x100 + 0x20
def RESP_PINS (b : Nat) : Nat := 0x1000 + b * 0x100 + 0x21
def RESP_WIN (b : Nat) : Nat := 0x1000 + b * 0x100 + 0x22
def RESP_MISS (b : Nat) : Nat := 0x1000 + b * 0x100 + 0x23
def RESP_STAT (b : Nat) : Nat := 0x1000 + b * 0x100 + 0x24
def RESP_HITS (b : Nat) : Nat := 0x1000 + b * 0x100 + 0x25
def RESP_ERRS (b : Nat) : Nat := 0x1000 + b * 0x100 + 0x26
def RESP_LAST (b : Nat) : Nat := 0x1000 + b * 0x100 + 0x27
def RESP_FIRSTMISS (b : Nat) : Nat := 0x1000 + b * 0x100 + 0x28
def PMC_CMD (b : Nat) (k : Nat) : Nat := 0x1000 + b * 0x100 + 0x30 + k
def PMC_SCAN (b : Nat) (k : Nat) : Nat := 0x1000 + b * 0x100 + 0x38 + k
def SEQ_CAPT (b : Nat) (i : Nat) : Nat := 0x1000 + b * 0x100 + 0x40 + i
def PMC_CTL (b : Nat) : Nat := 0x1000 + b * 0x100 + 0x80
def PMC_STAT (b : Nat) (k : Nat) : Nat := 0x1000 + b * 0x100 + 0x81 + k
def SRC_CTL (b : Nat) (j : Nat) : Nat := 0x1000 + b * 0x100 + 0x90 + 8 * j
def SRC_CODE (b : Nat) (j : Nat) : Nat := 0x1000 + b * 0x100 + 0x91 + 8 * j
def SRC_OFS (b : Nat) (j : Nat) : Nat := 0x1000 + b * 0x100 + 0x92 + 8 * j
def SRC_WAVE (b : Nat) (j : Nat) : Nat := 0x1000 + b * 0x100 + 0x93 + 8 * j
def SRC_PLAY (b : Nat) (j : Nat) : Nat := 0x1000 + b * 0x100 + 0x94 + 8 * j
def SRC_STATUS (b : Nat) (j : Nat) : Nat := 0x1000 + b * 0x100 + 0x95 + 8 * j
def AE_CTL (b : Nat) (j : Nat) : Nat := 0x1000 + b * 0x100 + 0xa0 + 0x30 * j
def AE_OFS (b : Nat) (j : Nat) : Nat := 0x1000 + b * 0x100 + 0xa1 + 0x30 * j
def AE_PRE (b : Nat) (j : Nat) : Nat := 0x1000 + b * 0x100 + 0xa2 + 0x30 * j
def AE_POST (b : Nat) (j : Nat) : Nat := 0x1000 + b * 0x100 + 0xa3 + 0x30 * j
def AE_TRIG (b : Nat) (j : Nat) : Nat := 0x1000 + b * 0x100 + 0xa4 + 0x30 * j
def AE_STATUS (b : Nat) (j : Nat) : Nat := 0x1000 + b * 0x100 + 0xa5 + 0x30 * j
def AE_RECPOP (b : Nat) (j : Nat) : Nat := 0x1000 + b * 0x100 + 0xa6 + 0x30 * j
def AE_REC (b : Nat) (j : Nat) (w : Nat) : Nat := 0x1000 + b * 0x100 + 0xa8 + 0x30 * j + w
def AE_TRIGCNT (b : Nat) (j : Nat) : Nat := 0x1000 + b * 0x100 + 0xb0 + 0x30 * j
def AE_TRIGCNT_SH (b : Nat) (j : Nat) : Nat := 0x1000 + b * 0x100 + 0xb1 + 0x30 * j
def AE_MISSED (b : Nat) (j : Nat) : Nat := 0x1000 + b * 0x100 + 0xb2 + 0x30 * j
def AE_MISSED_SH (b : Nat) (j : Nat) : Nat := 0x1000 + b * 0x100 + 0xb3 + 0x30 * j
def AE_DEAD (b : Nat) (j : Nat) : Nat := 0x1000 + b * 0x100 + 0xb4 + 0x30 * j
def AE_DEAD_SH (b : Nat) (j : Nat) : Nat := 0x1000 + b * 0x100 + 0xb5 + 0x30 * j
def CH_MODE (c : Nat) : Nat := 0x10000 + c * 0x40 + 0x0
def CH_VIH (c : Nat) : Nat := 0x10000 + c * 0x40 + 0x1
def CH_VIL (c : Nat) : Nat := 0x10000 + c * 0x40 + 0x2
def CH_VT (c : Nat) : Nat := 0x10000 + c * 0x40 + 0x3
def CH_CMPH (c : Nat) : Nat := 0x10000 + c * 0x40 + 0x4
def CH_CMPL (c : Nat) : Nat := 0x10000 + c * 0x40 + 0x5
def CH_FILTER (c : Nat) : Nat := 0x10000 + c * 0x40 + 0x6
def CH_LOAD (c : Nat) : Nat := 0x10000 + c * 0x40 + 0x7
def CH_LATCH (c : Nat) : Nat := 0x10000 + c * 0x40 + 0x8
def CH_STATUS (c : Nat) : Nat := 0x10000 + c * 0x40 + 0x9
def CH_ROUTE (c : Nat) : Nat := 0x10000 + c * 0x40 + 0xa
def CH_SELFTEST (c : Nat) : Nat := 0x10000 + c * 0x40 + 0xb
def CH_EDGE_CTL (c : Nat) : Nat := 0x10000 + c * 0x40 + 0xc
def CH_EDGE_LO (c : Nat) : Nat := 0x10000 + c * 0x40 + 0xd
def CH_EDGE_HI (c : Nat) : Nat := 0x10000 + c * 0x40 + 0xe
def CH_EDGE_STAT (c : Nat) : Nat := 0x10000 + c * 0x40 + 0xf
def CH_FAILCNT (c : Nat) : Nat := 0x10000 + c * 0x40 + 0x10
def CH_FAILCNT_SH (c : Nat) : Nat := 0x10000 + c * 0x40 + 0x11
def CH_FAIL_ADDR (c : Nat) : Nat := 0x10000 + c * 0x40 + 0x12
def CH_VIGIL_CTL (c : Nat) : Nat := 0x10000 + c * 0x40 + 0x18
def CH_VIGIL_CODE (c : Nat) : Nat := 0x10000 + c * 0x40 + 0x19
def CH_VIGIL_STAT (c : Nat) : Nat := 0x10000 + c * 0x40 + 0x1a
def CH_VIGIL_CNT (c : Nat) : Nat := 0x10000 + c * 0x40 + 0x1b
def CH_VIGIL_CNT_SH (c : Nat) : Nat := 0x10000 + c * 0x40 + 0x1c
def CH_VIGIL_TS_LO (c : Nat) : Nat := 0x10000 + c * 0x40 + 0x1d
def CH_VIGIL_TS_HI (c : Nat) : Nat := 0x10000 + c * 0x40 + 0x1e
def CH_PMU_CTL (c : Nat) : Nat := 0x10000 + c * 0x40 + 0x20
def CH_PMU_SET (c : Nat) : Nat := 0x10000 + c * 0x40 + 0x21
def CH_PMU_VCLAMP (c : Nat) : Nat := 0x10000 + c * 0x40 + 0x22
def CH_PMU_ICLAMP (c : Nat) : Nat := 0x10000 + c * 0x40 + 0x23
def CH_PMU_LIMHI (c : Nat) : Nat := 0x10000 + c * 0x40 + 0x24
def CH_PMU_LIMLO (c : Nat) : Nat := 0x10000 + c * 0x40 + 0x25
def CH_PMU_STATUS (c : Nat) : Nat := 0x10000 + c * 0x40 + 0x26
def CH_PMU_RES (c : Nat) : Nat := 0x10000 + c * 0x40 + 0x27
def CH_PMU_RESINFO (c : Nat) : Nat := 0x10000 + c * 0x40 + 0x28
def CH_PMU_SUM (c : Nat) : Nat := 0x10000 + c * 0x40 + 0x29
def CH_PMU_SUM_SH (c : Nat) : Nat := 0x10000 + c * 0x40 + 0x2a
def RULE_SRC (n : Nat) : Nat := 0x20000 + 4 * n
def RULE_COND (n : Nat) : Nat := 0x20001 + 4 * n
def RULE_ACT (n : Nat) : Nat := 0x20002 + 4 * n
def RULE_ARG (n : Nat) : Nat := 0x20003 + 4 * n
def RT_CTL : Nat := 0x20100
def RT_STATUS : Nat := 0x20101
def RT_FIRED (h : Nat) : Nat := 0x20102 + h
def RT_SPENT (h : Nat) : Nat := 0x20104 + h
def ARB_LOSS : Nat := 0x20106
def ARB_LOSS_SH : Nat := 0x20107
def RT_TMR (k : Nat) : Nat := 0x20108 + k
def RT_CNT (k : Nat) : Nat := 0x20110 + k
def LANE_CTL (n : Nat) : Nat := 0x20120 + n
def RT_FLAGS (b : Nat) : Nat := 0x20130 + b
def RT_RCNT (n : Nat) : Nat := 0x20140 + n
def RF_CTL (p : Nat) : Nat := 0x21000 + p * 0x80 + 0x0
def RF_LEVEL (p : Nat) : Nat := 0x21000 + p * 0x80 + 0x1
def RF_TUNE (p : Nat) : Nat := 0x21000 + p * 0x80 + 0x2
def RF_MISMATCH (p : Nat) : Nat := 0x21000 + p * 0x80 + 0x3
def RF_STATUS (p : Nat) : Nat := 0x21000 + p * 0x80 + 0x4
def RF_TXCMD (p : Nat) : Nat := 0x21000 + p * 0x80 + 0x5
def RF_TX_TIMEOUT (p : Nat) : Nat := 0x21000 + p * 0x80 + 0x6
def RF_OOK (p : Nat) : Nat := 0x21000 + p * 0x80 + 0x7
def RF_PAT (p : Nat) (i : Nat) : Nat := 0x21000 + p * 0x80 + 0x8 + i
def RF_RXCTL (p : Nat) : Nat := 0x21000 + p * 0x80 + 0xc
def RF_RXPWR (p : Nat) : Nat := 0x21000 + p * 0x80 + 0xd
def SYN_CTL (y : Nat) : Nat := 0x21400 + y * 0x80 + 0x0
def SYN_FREQ (y : Nat) : Nat := 0x21400 + y * 0x80 + 0x1
def SYN_CAL (y : Nat) : Nat := 0x21400 + y * 0x80 + 0x2
def SYN_TEMP_STEP (y : Nat) : Nat := 0x21400 + y * 0x80 + 0x3
def SYN_STATUS (y : Nat) : Nat := 0x21400 + y * 0x80 + 0x4
def COEX_CTL : Nat := 0x21500
def COEX_STATUS : Nat := 0x21501
def CAL_CMD : Nat := 0x22000
def CAL_SCOPE : Nat := 0x22001
def CAL_STATUS : Nat := 0x22002
def CAL_TOL : Nat := 0x22003
def CAL_SLEW : Nat := 0x22004
def CAL_TSLOT : Nat := 0x22005
def CAL_EPOCH : Nat := 0x22006
def CAL_TORN_MAP : Nat := 0x22007
def CAL_INFO : Nat := 0x22008
def CAL_REJ : Nat := 0x22009
def CAL_TORN_AN (b : Nat) : Nat := 0x22010 + b

/-- Vector memory word `w` of line `L` of bank `b` (R132, R419). -/
def VMEM (b L w : Nat) : Nat := 0x1000000 + b * 0x200000 + L * 8 + w
/-- Responder RAM entry `i` of bank `b` (R167). -/
def RESP_RAM (b i : Nat) : Nat := 0x3000000 + b * 0x1000 + i
/-- Capture memory word `o` of engine `e` (R240). -/
def CAPT (e o : Nat) : Nat := 0x4000000 + e * 0x100000 + o
/-- Battery store word `i` in the window (R343). -/
def BS (i : Nat) : Nat := 0x30000 + i
/-- The temperature register of die `d`: 0 to 5 pin dies, 6 RF die, 7 core die (R420, the die numbers of R262). -/
def TEMP (d : Nat) : Nat := if d < 6 then TEMP_PIN d else if d = 6 then TEMP_RF else TEMP_CORE

end A

namespace F

def UNIT_ID1.STEP : Fld := ⟨32, 4⟩
def UNIT_ID1.PART : Fld := ⟨28, 4⟩
def UNIT_ID1.SERIAL_HI : Fld := ⟨0, 28⟩

def UNIT_ADDR.VALID : Fld := ⟨6, 1⟩
def UNIT_ADDR.ADDR : Fld := ⟨0, 6⟩

def UNIT_STATUS.ACTIVE : Fld := ⟨24, 12⟩
def UNIT_STATUS.SAFE : Fld := ⟨12, 12⟩
def UNIT_STATUS.RF_READY : Fld := ⟨11, 1⟩
def UNIT_STATUS.CAL_BUSY : Fld := ⟨10, 1⟩
def UNIT_STATUS.RELOAD : Fld := ⟨9, 1⟩
def UNIT_STATUS.FAULT_LOW : Fld := ⟨8, 1⟩
def UNIT_STATUS.INT_LOW : Fld := ⟨7, 1⟩
def UNIT_STATUS.WAKE_LOW : Fld := ⟨6, 1⟩
def UNIT_STATUS.TICK_OK : Fld := ⟨5, 1⟩
def UNIT_STATUS.UNIT_STATE : Fld := ⟨0, 3⟩

def PWR_STATUS.UNIT_STATE : Fld := ⟨8, 3⟩
def PWR_STATUS.VBAK_GOOD : Fld := ⟨7, 1⟩
def PWR_STATUS.VRF_GOOD : Fld := ⟨6, 1⟩
def PWR_STATUS.VNEG_GOOD : Fld := ⟨5, 1⟩
def PWR_STATUS.VPOS_GOOD : Fld := ⟨4, 1⟩
def PWR_STATUS.VAON_GOOD : Fld := ⟨3, 1⟩
def PWR_STATUS.VDDA_GOOD : Fld := ⟨2, 1⟩
def PWR_STATUS.VDDIO_GOOD : Fld := ⟨1, 1⟩
def PWR_STATUS.VDDC_GOOD : Fld := ⟨0, 1⟩

def CLK_STATUS.CONV_LOST : Fld := ⟨15, 7⟩
def CLK_STATUS.XT32_OK : Fld := ⟨14, 1⟩
def CLK_STATUS.LINK_B_LOCK : Fld := ⟨13, 1⟩
def CLK_STATUS.LINK_A_LOCK : Fld := ⟨12, 1⟩
def CLK_STATUS.REF_OK : Fld := ⟨11, 1⟩
def CLK_STATUS.CORE_LOCK : Fld := ⟨10, 1⟩
def CLK_STATUS.CONV_LOCK : Fld := ⟨0, 7⟩

def DIE_LINK_STATUS.RETRY : Fld := ⟨22, 8⟩
def DIE_LINK_STATUS.UP_OVF : Fld := ⟨15, 7⟩
def DIE_LINK_STATUS.LINK_FAULT : Fld := ⟨8, 7⟩
def DIE_LINK_STATUS.LINK_UP : Fld := ⟨0, 7⟩

def FAULT_STATUS.BANK : Fld := ⟨24, 12⟩
def FAULT_STATUS.DIE : Fld := ⟨16, 8⟩
def FAULT_STATUS.STORE : Fld := ⟨15, 1⟩
def FAULT_STATUS.STORE_LOST : Fld := ⟨14, 1⟩
def FAULT_STATUS.TORN : Fld := ⟨13, 1⟩
def FAULT_STATUS.ALM : Fld := ⟨12, 1⟩
def FAULT_STATUS.PROG : Fld := ⟨11, 1⟩
def FAULT_STATUS.XT32 : Fld := ⟨10, 1⟩
def FAULT_STATUS.TICK : Fld := ⟨9, 1⟩
def FAULT_STATUS.START_CAUSE : Fld := ⟨0, 3⟩

def FAULT_ENABLE.BANK_EN : Fld := ⟨24, 12⟩
def FAULT_ENABLE.DIE_EN : Fld := ⟨16, 8⟩
def FAULT_ENABLE.STORE_EN : Fld := ⟨15, 1⟩
def FAULT_ENABLE.LOST_EN : Fld := ⟨14, 1⟩
def FAULT_ENABLE.TORN_EN : Fld := ⟨13, 1⟩
def FAULT_ENABLE.ALM_EN : Fld := ⟨12, 1⟩
def FAULT_ENABLE.PROG_EN : Fld := ⟨11, 1⟩
def FAULT_ENABLE.XT32_EN : Fld := ⟨10, 1⟩
def FAULT_ENABLE.TICK_EN : Fld := ⟨9, 1⟩

def FAULT_DIE.CAUSE : Fld := ⟨0, 32⟩

def INT_STATUS.RIRQ : Fld := ⟨12, 16⟩
def INT_STATUS.BANKCH : Fld := ⟨0, 12⟩

def INT_ENABLE.RIRQ_EN : Fld := ⟨12, 16⟩
def INT_ENABLE.BANKCH_EN : Fld := ⟨0, 12⟩

def INT_CTL.NOTE_B : Fld := ⟨3, 1⟩
def INT_CTL.NOTE_A : Fld := ⟨2, 1⟩
def INT_CTL.INT_B : Fld := ⟨1, 1⟩
def INT_CTL.INT_A : Fld := ⟨0, 1⟩

def FAULT_BANK.CAUSE : Fld := ⟨32, 4⟩
def FAULT_BANK.INDEX : Fld := ⟨26, 6⟩
def FAULT_BANK.TICK : Fld := ⟨0, 24⟩

def TICK_COUNT_HI.COUNT_HI : Fld := ⟨24, 12⟩
def TICK_COUNT_HI.FLAGS : Fld := ⟨18, 6⟩
def TICK_COUNT_HI.FINE : Fld := ⟨0, 18⟩

def TICK_STATUS.PHASE_ERR : Fld := ⟨20, 8⟩
def TICK_STATUS.LEAPS : Fld := ⟨12, 8⟩
def TICK_STATUS.STEP_BACK : Fld := ⟨11, 1⟩
def TICK_STATUS.COUNT_MISMATCH : Fld := ⟨10, 1⟩
def TICK_STATUS.TICK_LOST : Fld := ⟨9, 1⟩
def TICK_STATUS.LEAP_PENDING : Fld := ⟨8, 1⟩
def TICK_STATUS.SLEWING : Fld := ⟨7, 1⟩
def TICK_STATUS.FREE : Fld := ⟨6, 1⟩
def TICK_STATUS.COUNT_SET : Fld := ⟨5, 1⟩
def TICK_STATUS.LOCKED : Fld := ⟨4, 1⟩
def TICK_STATUS.FRAME_ERR : Fld := ⟨3, 1⟩

def TICK_BUDGET.HELD : Fld := ⟨24, 12⟩
def TICK_BUDGET.LEDGER_FULL : Fld := ⟨12, 12⟩
def TICK_BUDGET.CAL_DEFER : Fld := ⟨0, 12⟩

def LEAP_CTL.EN : Fld := ⟨15, 1⟩
def LEAP_CTL.JUMP : Fld := ⟨14, 1⟩
def LEAP_CTL.ADOPT : Fld := ⟨13, 1⟩
def LEAP_CTL.MAX : Fld := ⟨8, 3⟩
def LEAP_CTL.THRESH : Fld := ⟨4, 4⟩

def EPACT.EPACT : Fld := ⟨0, 25⟩

def EPACT_CTL.DONE : Fld := ⟨2, 1⟩
def EPACT_CTL.BUSY : Fld := ⟨1, 1⟩
def EPACT_CTL.START : Fld := ⟨0, 1⟩

def EPACT_MEAS_A.VALID : Fld := ⟨35, 1⟩
def EPACT_MEAS_A.NO_PEER : Fld := ⟨34, 1⟩
def EPACT_MEAS_A.MEAN : Fld := ⟨0, 29⟩

def EPACT_MEAS_B.VALID : Fld := ⟨35, 1⟩
def EPACT_MEAS_B.NO_PEER : Fld := ⟨34, 1⟩
def EPACT_MEAS_B.MEAN : Fld := ⟨0, 29⟩

def SEASON_CTL.BOUNDARY : Fld := ⟨35, 1⟩
def SEASON_CTL.INTERVAL : Fld := ⟨0, 32⟩

def SEASON_STATUS.SH_VALID : Fld := ⟨35, 1⟩
def SEASON_STATUS.REC_PENDING : Fld := ⟨34, 1⟩
def SEASON_STATUS.REC_LOST : Fld := ⟨33, 1⟩
def SEASON_STATUS.COUNT_RESTART : Fld := ⟨32, 1⟩
def SEASON_STATUS.LAST_CAUSE : Fld := ⟨26, 6⟩
def SEASON_STATUS.SH_SEASON : Fld := ⟨0, 24⟩

def POWER_CAP.CAP : Fld := ⟨0, 8⟩

def POWER_LEDGER.OVERCAP : Fld := ⟨33, 1⟩
def POWER_LEDGER.WAITING : Fld := ⟨32, 1⟩
def POWER_LEDGER.COMMITTED : Fld := ⟨16, 16⟩
def POWER_LEDGER.HEADROOM : Fld := ⟨0, 16⟩

def POWER_REFUSE.IMPOSSIBLE : Fld := ⟨24, 8⟩
def POWER_REFUSE.REFUSED : Fld := ⟨0, 24⟩

def POWER_REFUSE_SH.IMPOSSIBLE : Fld := ⟨24, 8⟩
def POWER_REFUSE_SH.REFUSED : Fld := ⟨0, 24⟩

def POWER_DIE_CAP.CAP_HI : Fld := ⟨24, 12⟩
def POWER_DIE_CAP.CAP_MID : Fld := ⟨12, 12⟩
def POWER_DIE_CAP.CAP_LO : Fld := ⟨0, 12⟩

def POWER_DIE_USE.OVER_HI : Fld := ⟨35, 1⟩
def POWER_DIE_USE.OVER_MID : Fld := ⟨34, 1⟩
def POWER_DIE_USE.OVER_LO : Fld := ⟨33, 1⟩
def POWER_DIE_USE.USE_HI : Fld := ⟨22, 11⟩
def POWER_DIE_USE.USE_MID : Fld := ⟨11, 11⟩
def POWER_DIE_USE.USE_LO : Fld := ⟨0, 11⟩

def TEMP_CORE.VALID : Fld := ⟨35, 1⟩
def TEMP_CORE.HOT : Fld := ⟨34, 1⟩
def TEMP_CORE.TREF : Fld := ⟨12, 12⟩
def TEMP_CORE.TEMP : Fld := ⟨0, 12⟩

def TEMP_PIN.VALID : Fld := ⟨35, 1⟩
def TEMP_PIN.HOT : Fld := ⟨34, 1⟩
def TEMP_PIN.TREF : Fld := ⟨12, 12⟩
def TEMP_PIN.TEMP : Fld := ⟨0, 12⟩

def TEMP_RF.VALID : Fld := ⟨35, 1⟩
def TEMP_RF.HOT : Fld := ⟨34, 1⟩
def TEMP_RF.TREF : Fld := ⟨12, 12⟩
def TEMP_RF.TEMP : Fld := ⟨0, 12⟩

def ALMANAC_CTL.RELOAD : Fld := ⟨23, 1⟩
def ALMANAC_CTL.TARGET : Fld := ⟨18, 4⟩
def ALMANAC_CTL.FALLBACK : Fld := ⟨17, 1⟩
def ALMANAC_CTL.AUTO_BANK : Fld := ⟨0, 12⟩

def ALMANAC_STATUS.NONE : Fld := ⟨35, 1⟩
def ALMANAC_STATUS.SLOW : Fld := ⟨34, 1⟩
def ALMANAC_STATUS.SLOT : Fld := ⟨33, 1⟩
def ALMANAC_STATUS.MIXED : Fld := ⟨32, 1⟩
def ALMANAC_STATUS.GLOBAL_STALE : Fld := ⟨31, 1⟩
def ALMANAC_STATUS.FELL_BACK : Fld := ⟨30, 1⟩
def ALMANAC_STATUS.RELOAD_FAIL : Fld := ⟨29, 1⟩
def ALMANAC_STATUS.RELOAD_IGN : Fld := ⟨28, 1⟩
def ALMANAC_STATUS.WR_IGN : Fld := ⟨27, 1⟩
def ALMANAC_STATUS.ABSENT : Fld := ⟨26, 1⟩
def ALMANAC_STATUS.STEP : Fld := ⟨21, 4⟩
def ALMANAC_STATUS.BUSY : Fld := ⟨20, 1⟩
def ALMANAC_STATUS.BUSY_TGT : Fld := ⟨16, 4⟩
def ALMANAC_STATUS.QUEUE : Fld := ⟨12, 4⟩

def NVM_ADDR.ADDR : Fld := ⟨0, 29⟩

def NVM_DATA.BYTES : Fld := ⟨0, 32⟩

def NVM_CMD.ACT_RELOAD : Fld := ⟨3, 1⟩
def NVM_CMD.OP : Fld := ⟨0, 3⟩

def NVM_STATUS.BUSY : Fld := ⟨35, 1⟩
def NVM_STATUS.VERIFIED : Fld := ⟨34, 1⟩
def NVM_STATUS.ACT_SCHED : Fld := ⟨33, 1⟩
def NVM_STATUS.ACT_PEND : Fld := ⟨32, 1⟩
def NVM_STATUS.REFUSED : Fld := ⟨31, 1⟩
def NVM_STATUS.FAIL : Fld := ⟨30, 1⟩
def NVM_STATUS.SUSPENDED : Fld := ⟨29, 1⟩
def NVM_STATUS.WRITABLE : Fld := ⟨27, 2⟩
def NVM_STATUS.LAST_OP : Fld := ⟨24, 3⟩
def NVM_STATUS.VERR : Fld := ⟨20, 4⟩
def NVM_STATUS.VSEG : Fld := ⟨16, 4⟩
def NVM_STATUS.VER_OK : Fld := ⟨14, 2⟩
def NVM_STATUS.FB_OK : Fld := ⟨12, 2⟩

def RING_STATUS.ADDR_CHANGED : Fld := ⟨29, 1⟩
def RING_STATUS.PREF_MISMATCH : Fld := ⟨28, 1⟩
def RING_STATUS.ENUM_GAP : Fld := ⟨27, 1⟩
def RING_STATUS.ENUM_CONFLICT : Fld := ⟨26, 1⟩
def RING_STATUS.ENUM_OVF : Fld := ⟨25, 1⟩
def RING_STATUS.AT_LATE : Fld := ⟨24, 1⟩
def RING_STATUS.AT_OVF : Fld := ⟨23, 1⟩
def RING_STATUS.RQ_OVF : Fld := ⟨22, 1⟩
def RING_STATUS.UNDELIV : Fld := ⟨21, 1⟩
def RING_STATUS.WRAP_EV : Fld := ⟨20, 1⟩
def RING_STATUS.WRAP_HI : Fld := ⟨15, 1⟩
def RING_STATUS.WRAP_LO : Fld := ⟨14, 1⟩
def RING_STATUS.IN_B_UP : Fld := ⟨13, 1⟩
def RING_STATUS.IN_A_UP : Fld := ⟨12, 1⟩
def RING_STATUS.TQ_LEVEL : Fld := ⟨4, 5⟩

def RING_ERR_A.SYM_ERR : Fld := ⟨24, 12⟩
def RING_ERR_A.CRC_ERR : Fld := ⟨12, 12⟩
def RING_ERR_A.TTL_DROP : Fld := ⟨0, 12⟩

def RING_ERR_B.SYM_ERR : Fld := ⟨24, 12⟩
def RING_ERR_B.CRC_ERR : Fld := ⟨12, 12⟩
def RING_ERR_B.TTL_DROP : Fld := ⟨0, 12⟩

def REF_DECLARE.NV : Fld := ⟨0, 33⟩

def CHUCK_DECLARE.DECLARED : Fld := ⟨12, 1⟩
def CHUCK_DECLARE.TEMP : Fld := ⟨0, 12⟩

def BS_STATUS.TORN_CNT : Fld := ⟨14, 10⟩
def BS_STATUS.TSLOT_FIX : Fld := ⟨6, 1⟩
def BS_STATUS.CNT_REPAIR : Fld := ⟨5, 1⟩
def BS_STATUS.WR_IGN : Fld := ⟨4, 1⟩
def BS_STATUS.FAILED : Fld := ⟨3, 1⟩
def BS_STATUS.LOST : Fld := ⟨2, 1⟩
def BS_STATUS.BUSY : Fld := ⟨1, 1⟩
def BS_STATUS.READY : Fld := ⟨0, 1⟩

def WAKE_CTL.BANK_PULL : Fld := ⟨12, 12⟩
def WAKE_CTL.MAXERR : Fld := ⟨8, 3⟩
def WAKE_CTL.AUTO_REL : Fld := ⟨5, 1⟩
def WAKE_CTL.ENELLE_PULL : Fld := ⟨4, 1⟩
def WAKE_CTL.BCAST_EN : Fld := ⟨3, 1⟩
def WAKE_CTL.UNIT_EN : Fld := ⟨2, 1⟩
def WAKE_CTL.DEEP_REQ : Fld := ⟨1, 1⟩

def WAKE_CODE.WORD : Fld := ⟨0, 32⟩

def WAKE_BCODE.WORD : Fld := ⟨0, 32⟩

def WAKE_STATUS.WAKEN_LOW : Fld := ⟨15, 1⟩
def WAKE_STATUS.ROUTER : Fld := ⟨14, 1⟩
def WAKE_STATUS.EBCAST : Fld := ⟨13, 1⟩
def WAKE_STATUS.EUNIT : Fld := ⟨12, 1⟩
def WAKE_STATUS.BANK : Fld := ⟨0, 12⟩

def WAKE_BANK.COUNT : Fld := ⟨8, 8⟩
def WAKE_BANK.CAUSE : Fld := ⟨7, 1⟩
def WAKE_BANK.FIRST_CH : Fld := ⟨0, 6⟩

def BANK_MODE.REQ : Fld := ⟨0, 2⟩

def BANK_STATUS.START_LATE : Fld := ⟨24, 1⟩
def BANK_STATUS.ERR : Fld := ⟨20, 4⟩
def BANK_STATUS.START_IGN : Fld := ⟨19, 1⟩
def BANK_STATUS.VM_WR_IGN : Fld := ⟨18, 1⟩
def BANK_STATUS.LEDGER_WAIT : Fld := ⟨17, 1⟩
def BANK_STATUS.MODE_PEND : Fld := ⟨16, 1⟩
def BANK_STATUS.STACK : Fld := ⟨12, 4⟩
def BANK_STATUS.SEQ : Fld := ⟨4, 3⟩
def BANK_STATUS.STATE : Fld := ⟨0, 2⟩

def SEQ_START.GO : Fld := ⟨35, 1⟩
def SEQ_START.STOP : Fld := ⟨34, 1⟩
def SEQ_START.ABORT : Fld := ⟨33, 1⟩
def SEQ_START.COND : Fld := ⟨28, 2⟩
def SEQ_START.FLAG : Fld := ⟨24, 4⟩
def SEQ_START.ADDR : Fld := ⟨0, 18⟩

def SEQ_PC.PC : Fld := ⟨0, 18⟩

def SEQ_FLAGS.F : Fld := ⟨0, 16⟩

def SEQ_CNT.COUNT : Fld := ⟨0, 24⟩

def VEC_PERIOD.P : Fld := ⟨0, 16⟩

def BANK_ESEL.SEL : Fld := ⟨0, 32⟩

def ES_DRV.FMT : Fld := ⟨24, 2⟩
def ES_DRV.TIME : Fld := ⟨0, 23⟩

def ES_RTN.TIME : Fld := ⟨0, 23⟩

def ES_STB.TIME : Fld := ⟨0, 23⟩

def BANK_CH_INT.REQ : Fld := ⟨0, 32⟩

def RESP_CTL.MISS_FAULT : Fld := ⟨19, 1⟩
def RESP_CTL.MISS_DRV : Fld := ⟨18, 1⟩
def RESP_CTL.TVAL : Fld := ⟨17, 1⟩
def RESP_CTL.FLAG : Fld := ⟨12, 4⟩
def RESP_CTL.HOLD : Fld := ⟨4, 8⟩
def RESP_CTL.QUAL_EN : Fld := ⟨3, 1⟩
def RESP_CTL.QUAL_POL : Fld := ⟨2, 1⟩
def RESP_CTL.STB_EDGE : Fld := ⟨1, 1⟩
def RESP_CTL.EN : Fld := ⟨0, 1⟩

def RESP_PINS.QUAL : Fld := ⟨28, 6⟩
def RESP_PINS.STB : Fld := ⟨22, 6⟩
def RESP_PINS.DW : Fld := ⟨17, 5⟩
def RESP_PINS.DBASE : Fld := ⟨11, 6⟩
def RESP_PINS.AW : Fld := ⟨6, 5⟩
def RESP_PINS.ABASE : Fld := ⟨0, 6⟩

def RESP_WIN.MASK : Fld := ⟨4, 4⟩
def RESP_WIN.MATCH : Fld := ⟨0, 4⟩

def RESP_MISS.OE : Fld := ⟨16, 16⟩
def RESP_MISS.DATA : Fld := ⟨0, 16⟩

def RESP_STAT.MISS_FLT : Fld := ⟨3, 1⟩
def RESP_STAT.TERM : Fld := ⟨2, 1⟩
def RESP_STAT.CFG_PEND : Fld := ⟨1, 1⟩
def RESP_STAT.ACTIVE : Fld := ⟨0, 1⟩

def RESP_HITS.HITS : Fld := ⟨0, 32⟩

def RESP_ERRS.CUT : Fld := ⟨24, 12⟩
def RESP_ERRS.OVR : Fld := ⟨12, 12⟩
def RESP_ERRS.MISSES : Fld := ⟨0, 12⟩

def RESP_LAST.VALID : Fld := ⟨35, 1⟩
def RESP_LAST.MISS : Fld := ⟨34, 1⟩
def RESP_LAST.ADDR : Fld := ⟨0, 16⟩

def RESP_FIRSTMISS.VALID : Fld := ⟨35, 1⟩
def RESP_FIRSTMISS.ADDR : Fld := ⟨0, 16⟩

def PMC_CMD.GO : Fld := ⟨35, 1⟩
def PMC_CMD.STOP : Fld := ⟨34, 1⟩
def PMC_CMD.REPEAT : Fld := ⟨25, 1⟩
def PMC_CMD.WAIT_RAMP : Fld := ⟨24, 1⟩
def PMC_CMD.MEAS : Fld := ⟨23, 1⟩
def PMC_CMD.NAVG : Fld := ⟨16, 5⟩
def PMC_CMD.SETTLE : Fld := ⟨0, 16⟩

def PMC_SCAN.COUNT : Fld := ⟨12, 7⟩
def PMC_SCAN.STRIDE : Fld := ⟨6, 6⟩
def PMC_SCAN.FIRST : Fld := ⟨0, 6⟩

def PMC_CTL.EN : Fld := ⟨0, 8⟩

def PMC_STAT.HOLDER : Fld := ⟨34, 2⟩
def PMC_STAT.BUSY : Fld := ⟨33, 1⟩
def PMC_STAT.WAITING : Fld := ⟨32, 1⟩
def PMC_STAT.LEDGER_WAIT : Fld := ⟨31, 1⟩
def PMC_STAT.IGN : Fld := ⟨30, 1⟩
def PMC_STAT.RESTARTS : Fld := ⟨16, 8⟩
def PMC_STAT.DONE : Fld := ⟨6, 7⟩
def PMC_STAT.CH : Fld := ⟨0, 6⟩

def SRC_CTL.LIM : Fld := ⟨16, 8⟩
def SRC_CTL.CH : Fld := ⟨9, 6⟩
def SRC_CTL.ROUTE_EN : Fld := ⟨8, 1⟩
def SRC_CTL.LOAD : Fld := ⟨4, 1⟩
def SRC_CTL.RANGE : Fld := ⟨2, 2⟩
def SRC_CTL.EN : Fld := ⟨0, 1⟩

def SRC_CODE.CODE : Fld := ⟨0, 16⟩

def SRC_OFS.OFS : Fld := ⟨0, 16⟩

def SRC_WAVE.LAST : Fld := ⟨18, 18⟩
def SRC_WAVE.FIRST : Fld := ⟨0, 18⟩

def SRC_PLAY.GO : Fld := ⟨35, 1⟩
def SRC_PLAY.STOP : Fld := ⟨34, 1⟩
def SRC_PLAY.END : Fld := ⟨33, 1⟩
def SRC_PLAY.COND : Fld := ⟨28, 2⟩
def SRC_PLAY.FLAG : Fld := ⟨24, 4⟩
def SRC_PLAY.REPS : Fld := ⟨0, 24⟩

def SRC_STATUS.UNCAL : Fld := ⟨19, 1⟩
def SRC_STATUS.CAL : Fld := ⟨18, 1⟩
def SRC_STATUS.EN_PEND : Fld := ⟨17, 1⟩
def SRC_STATUS.GO_IGN : Fld := ⟨16, 1⟩
def SRC_STATUS.RANGE_STOP : Fld := ⟨15, 1⟩
def SRC_STATUS.CONFLICT : Fld := ⟨14, 1⟩
def SRC_STATUS.NOROUTE : Fld := ⟨13, 1⟩
def SRC_STATUS.FAULT : Fld := ⟨12, 1⟩
def SRC_STATUS.LIMITED : Fld := ⟨11, 1⟩
def SRC_STATUS.LIMIT : Fld := ⟨10, 1⟩
def SRC_STATUS.PLAY : Fld := ⟨8, 2⟩
def SRC_STATUS.RANGE_EFF : Fld := ⟨4, 2⟩
def SRC_STATUS.LOAD_EFF : Fld := ⟨3, 1⟩
def SRC_STATUS.STATE : Fld := ⟨0, 2⟩

def AE_CTL.GO : Fld := ⟨35, 1⟩
def AE_CTL.STOP : Fld := ⟨34, 1⟩
def AE_CTL.HOLDOFF : Fld := ⟨19, 12⟩
def AE_CTL.CH : Fld := ⟨13, 6⟩
def AE_CTL.ROUTE_EN : Fld := ⟨12, 1⟩
def AE_CTL.RANGE : Fld := ⟨10, 2⟩
def AE_CTL.TERM : Fld := ⟨9, 1⟩
def AE_CTL.NAVG : Fld := ⟨4, 5⟩
def AE_CTL.FMT : Fld := ⟨3, 1⟩
def AE_CTL.FULL : Fld := ⟨2, 1⟩
def AE_CTL.MODE : Fld := ⟨1, 1⟩
def AE_CTL.EN : Fld := ⟨0, 1⟩

def AE_OFS.OFS : Fld := ⟨0, 16⟩

def AE_PRE.PRE : Fld := ⟨0, 20⟩

def AE_POST.NREC1 : Fld := ⟨24, 4⟩
def AE_POST.POST : Fld := ⟨0, 21⟩

def AE_TRIG.FORCE : Fld := ⟨35, 1⟩
def AE_TRIG.TICK_EN : Fld := ⟨34, 1⟩
def AE_TRIG.LANEB_EN : Fld := ⟨33, 1⟩
def AE_TRIG.LANE_B : Fld := ⟨29, 4⟩
def AE_TRIG.LANEA_EN : Fld := ⟨28, 1⟩
def AE_TRIG.LANE_A : Fld := ⟨24, 4⟩
def AE_TRIG.SLOPE : Fld := ⟨23, 1⟩
def AE_TRIG.LVL_EN : Fld := ⟨22, 1⟩
def AE_TRIG.HYST : Fld := ⟨16, 6⟩
def AE_TRIG.LEVEL : Fld := ⟨0, 16⟩

def AE_STATUS.REC_LOST : Fld := ⟨24, 12⟩
def AE_STATUS.CFG_ERR : Fld := ⟨22, 1⟩
def AE_STATUS.GO_IGN : Fld := ⟨21, 1⟩
def AE_STATUS.OVR : Fld := ⟨20, 1⟩
def AE_STATUS.TERM_CONFLICT : Fld := ⟨19, 1⟩
def AE_STATUS.NOROUTE : Fld := ⟨18, 1⟩
def AE_STATUS.EN_PEND : Fld := ⟨17, 1⟩
def AE_STATUS.UNCAL : Fld := ⟨16, 1⟩
def AE_STATUS.SEG : Fld := ⟨12, 4⟩
def AE_STATUS.REC_LEVEL : Fld := ⟨7, 5⟩
def AE_STATUS.STATE : Fld := ⟨0, 3⟩

def AE_RECPOP.POP : Fld := ⟨0, 1⟩

def AE_TRIGCNT.COUNT : Fld := ⟨0, 32⟩

def AE_TRIGCNT_SH.COUNT : Fld := ⟨0, 32⟩

def AE_MISSED.COUNT : Fld := ⟨0, 32⟩

def AE_MISSED_SH.COUNT : Fld := ⟨0, 32⟩

def CH_MODE.LATCH_CLR : Fld := ⟨11, 1⟩
def CH_MODE.LOAD_EN : Fld := ⟨10, 1⟩
def CH_MODE.CMP_ON : Fld := ⟨9, 1⟩
def CH_MODE.STATIC_LVL : Fld := ⟨7, 2⟩
def CH_MODE.FUNC : Fld := ⟨0, 4⟩

def CH_VIH.CODE : Fld := ⟨0, 16⟩

def CH_VIL.CODE : Fld := ⟨0, 16⟩

def CH_VT.CODE : Fld := ⟨0, 16⟩

def CH_CMPH.CODE : Fld := ⟨0, 16⟩

def CH_CMPL.CODE : Fld := ⟨0, 16⟩

def CH_FILTER.STROBE_FILT : Fld := ⟨15, 1⟩
def CH_FILTER.HYST : Fld := ⟨12, 3⟩
def CH_FILTER.M : Fld := ⟨4, 4⟩
def CH_FILTER.N : Fld := ⟨0, 4⟩

def CH_LOAD.I_SINK : Fld := ⟨16, 12⟩
def CH_LOAD.I_SRC : Fld := ⟨0, 12⟩

def CH_LATCH.DRV : Fld := ⟨4, 1⟩
def CH_LATCH.BELOW : Fld := ⟨3, 1⟩
def CH_LATCH.INSIDE : Fld := ⟨2, 1⟩
def CH_LATCH.ABOVE : Fld := ⟨1, 1⟩
def CH_LATCH.FAIL : Fld := ⟨0, 1⟩

def CH_STATUS.UNCAL : Fld := ⟨19, 1⟩
def CH_STATUS.MODE_PEND : Fld := ⟨18, 1⟩
def CH_STATUS.THR_INVERT : Fld := ⟨17, 1⟩
def CH_STATUS.DRV_FAULT : Fld := ⟨16, 1⟩
def CH_STATUS.DRV_LIMIT : Fld := ⟨15, 1⟩
def CH_STATUS.INBAND_START : Fld := ⟨14, 1⟩
def CH_STATUS.STATE : Fld := ⟨12, 2⟩
def CH_STATUS.PAIR : Fld := ⟨10, 2⟩
def CH_STATUS.TEST : Fld := ⟨9, 1⟩
def CH_STATUS.FUNC_EFF : Fld := ⟨0, 4⟩

def CH_ROUTE.WAKE_EN : Fld := ⟨8, 5⟩
def CH_ROUTE.INT_EN : Fld := ⟨0, 5⟩

def CH_SELFTEST.RAW : Fld := ⟨10, 2⟩
def CH_SELFTEST.STATE : Fld := ⟨8, 2⟩
def CH_SELFTEST.LIVE : Fld := ⟨7, 1⟩
def CH_SELFTEST.PAIR_OVR : Fld := ⟨6, 1⟩
def CH_SELFTEST.PAIR : Fld := ⟨4, 2⟩
def CH_SELFTEST.TIE : Fld := ⟨2, 2⟩
def CH_SELFTEST.SWAP_TH : Fld := ⟨1, 1⟩
def CH_SELFTEST.SWAP_IN : Fld := ⟨0, 1⟩

def CH_EDGE_CTL.SRC : Fld := ⟨4, 1⟩
def CH_EDGE_CTL.EN : Fld := ⟨0, 4⟩

def CH_EDGE_STAT.MISSED : Fld := ⟨8, 8⟩
def CH_EDGE_STAT.OVF : Fld := ⟨7, 1⟩
def CH_EDGE_STAT.KIND : Fld := ⟨5, 2⟩
def CH_EDGE_STAT.LEVEL : Fld := ⟨0, 5⟩

def CH_FAILCNT.COUNT : Fld := ⟨0, 32⟩

def CH_FAILCNT_SH.COUNT : Fld := ⟨0, 32⟩

def CH_FAIL_ADDR.VALID : Fld := ⟨35, 1⟩
def CH_FAIL_ADDR.ADDR : Fld := ⟨0, 18⟩

def CH_VIGIL_CTL.VTH : Fld := ⟨16, 10⟩
def CH_VIGIL_CTL.K : Fld := ⟨8, 3⟩
def CH_VIGIL_CTL.INV : Fld := ⟨4, 1⟩
def CH_VIGIL_CTL.MAXERR : Fld := ⟨0, 3⟩

def CH_VIGIL_CODE.CODE : Fld := ⟨0, 32⟩

def CH_VIGIL_STAT.CHIP : Fld := ⟨9, 1⟩
def CH_VIGIL_STAT.WEAK : Fld := ⟨8, 1⟩
def CH_VIGIL_STAT.PEND : Fld := ⟨7, 1⟩
def CH_VIGIL_STAT.MATCH : Fld := ⟨6, 1⟩
def CH_VIGIL_STAT.FILL : Fld := ⟨0, 6⟩

def CH_VIGIL_CNT.COUNT : Fld := ⟨0, 32⟩

def CH_VIGIL_CNT_SH.COUNT : Fld := ⟨0, 32⟩

def CH_PMU_CTL.RAMP : Fld := ⟨12, 4⟩
def CH_PMU_CTL.LIM_HI_EN : Fld := ⟨11, 1⟩
def CH_PMU_CTL.LIM_LO_EN : Fld := ⟨10, 1⟩
def CH_PMU_CTL.FORCE : Fld := ⟨4, 2⟩
def CH_PMU_CTL.RANGE : Fld := ⟨0, 3⟩

def CH_PMU_SET.FV_CODE : Fld := ⟨16, 16⟩
def CH_PMU_SET.FI_CODE : Fld := ⟨0, 16⟩

def CH_PMU_VCLAMP.VCH : Fld := ⟨16, 16⟩
def CH_PMU_VCLAMP.VCL : Fld := ⟨0, 16⟩

def CH_PMU_ICLAMP.MAG : Fld := ⟨0, 15⟩

def CH_PMU_STATUS.LIM_HI : Fld := ⟨15, 1⟩
def CH_PMU_STATUS.LIM_LO : Fld := ⟨14, 1⟩
def CH_PMU_STATUS.CLAMPED : Fld := ⟨13, 1⟩
def CH_PMU_STATUS.CLAMP : Fld := ⟨12, 1⟩
def CH_PMU_STATUS.RAMP : Fld := ⟨11, 1⟩
def CH_PMU_STATUS.CTL_PEND : Fld := ⟨10, 1⟩
def CH_PMU_STATUS.OVW : Fld := ⟨9, 1⟩
def CH_PMU_STATUS.CONNECTED : Fld := ⟨8, 1⟩
def CH_PMU_STATUS.FORCE_EFF : Fld := ⟨6, 2⟩
def CH_PMU_STATUS.RANGE_EFF : Fld := ⟨3, 3⟩

def CH_PMU_RESINFO.NEW : Fld := ⟨35, 1⟩
def CH_PMU_RESINFO.NOCONN : Fld := ⟨34, 1⟩
def CH_PMU_RESINFO.OVR : Fld := ⟨33, 1⟩
def CH_PMU_RESINFO.RAMPED : Fld := ⟨32, 1⟩
def CH_PMU_RESINFO.HI : Fld := ⟨31, 1⟩
def CH_PMU_RESINFO.LO : Fld := ⟨30, 1⟩
def CH_PMU_RESINFO.MEAS : Fld := ⟨29, 1⟩
def CH_PMU_RESINFO.RANGE : Fld := ⟨26, 3⟩
def CH_PMU_RESINFO.NAVG : Fld := ⟨21, 5⟩
def CH_PMU_RESINFO.PMC : Fld := ⟨18, 3⟩
def CH_PMU_RESINFO.TICK : Fld := ⟨0, 18⟩

def CH_PMU_SUM.RESULTS : Fld := ⟨20, 16⟩
def CH_PMU_SUM.HI : Fld := ⟨10, 10⟩
def CH_PMU_SUM.LO : Fld := ⟨0, 10⟩

def CH_PMU_SUM_SH.RESULTS : Fld := ⟨20, 16⟩
def CH_PMU_SUM_SH.HI : Fld := ⟨10, 10⟩
def CH_PMU_SUM_SH.LO : Fld := ⟨0, 10⟩

def RULE_COND.EN : Fld := ⟨35, 1⟩
def RULE_COND.LOGIC : Fld := ⟨32, 3⟩
def RULE_COND.ONCE : Fld := ⟨31, 1⟩
def RULE_COND.SRST : Fld := ⟨30, 1⟩
def RULE_COND.N : Fld := ⟨0, 24⟩

def RULE_ACT.OP : Fld := ⟨32, 4⟩
def RULE_ACT.NOTICE : Fld := ⟨13, 1⟩
def RULE_ACT.SEASON : Fld := ⟨12, 1⟩
def RULE_ACT.WAKE : Fld := ⟨11, 1⟩
def RULE_ACT.COUNT : Fld := ⟨10, 1⟩
def RULE_ACT.CNTSEL : Fld := ⟨6, 4⟩
def RULE_ACT.INT : Fld := ⟨5, 1⟩
def RULE_ACT.IRQ : Fld := ⟨0, 4⟩

def RT_CTL.TSTEP : Fld := ⟨0, 6⟩

def RT_STATUS.SUPPR : Fld := ⟨24, 12⟩
def RT_STATUS.NOTE_LOST : Fld := ⟨16, 8⟩
def RT_STATUS.ARG_ERR : Fld := ⟨15, 1⟩
def RT_STATUS.CMD_LATE : Fld := ⟨14, 1⟩
def RT_STATUS.CMD_OVF : Fld := ⟨13, 1⟩
def RT_STATUS.LANE_IGN : Fld := ⟨12, 1⟩
def RT_STATUS.WAKE : Fld := ⟨11, 1⟩

def RT_FIRED.RULES : Fld := ⟨0, 32⟩

def RT_SPENT.RULES : Fld := ⟨0, 32⟩

def ARB_LOSS.SEQ : Fld := ⟨27, 9⟩
def ARB_LOSS.ROUTER : Fld := ⟨18, 9⟩
def ARB_LOSS.CAL : Fld := ⟨9, 9⟩
def ARB_LOSS.HOST : Fld := ⟨0, 9⟩

def ARB_LOSS_SH.SEQ : Fld := ⟨27, 9⟩
def ARB_LOSS_SH.ROUTER : Fld := ⟨18, 9⟩
def ARB_LOSS_SH.CAL : Fld := ⟨9, 9⟩
def ARB_LOSS_SH.HOST : Fld := ⟨0, 9⟩

def RT_TMR.EN : Fld := ⟨35, 1⟩
def RT_TMR.ABS : Fld := ⟨34, 1⟩
def RT_TMR.PERIOD : Fld := ⟨0, 32⟩

def LANE_CTL.LEVEL : Fld := ⟨20, 1⟩
def LANE_CTL.SRC : Fld := ⟨16, 4⟩
def LANE_CTL.INV : Fld := ⟨15, 1⟩
def LANE_CTL.INDEX : Fld := ⟨0, 10⟩

def RT_FLAGS.F : Fld := ⟨0, 16⟩

def RT_RCNT.ARMED : Fld := ⟨35, 1⟩
def RT_RCNT.VALUE : Fld := ⟨0, 24⟩

def RF_CTL.RL_MIN : Fld := ⟨8, 6⟩
def RF_CTL.SYN : Fld := ⟨0, 1⟩

def RF_LEVEL.LEVEL : Fld := ⟨0, 10⟩

def RF_TUNE.SHUNT_OUT : Fld := ⟨10, 6⟩
def RF_TUNE.SERIES : Fld := ⟨6, 4⟩
def RF_TUNE.SHUNT_IN : Fld := ⟨0, 6⟩

def RF_MISMATCH.VALID : Fld := ⟨35, 1⟩
def RF_MISMATCH.RL : Fld := ⟨16, 8⟩
def RF_MISMATCH.FWD : Fld := ⟨8, 8⟩
def RF_MISMATCH.REV : Fld := ⟨0, 8⟩

def RF_STATUS.DROP_CAUSE : Fld := ⟨19, 3⟩
def RF_STATUS.TX_DROPPED : Fld := ⟨18, 1⟩
def RF_STATUS.TX_IGN : Fld := ⟨17, 1⟩
def RF_STATUS.TX_CUT : Fld := ⟨16, 1⟩
def RF_STATUS.MISMATCH : Fld := ⟨15, 1⟩
def RF_STATUS.RX_DET : Fld := ⟨14, 1⟩
def RF_STATUS.SYN_PEND : Fld := ⟨13, 1⟩
def RF_STATUS.RX_EFF : Fld := ⟨12, 1⟩
def RF_STATUS.UNCAL : Fld := ⟨11, 1⟩
def RF_STATUS.CAL : Fld := ⟨10, 1⟩
def RF_STATUS.TX : Fld := ⟨5, 3⟩

def RF_TXCMD.GO : Fld := ⟨35, 1⟩
def RF_TXCMD.STOP : Fld := ⟨34, 1⟩
def RF_TXCMD.MODE : Fld := ⟨32, 2⟩
def RF_TXCMD.REPS : Fld := ⟨24, 8⟩
def RF_TXCMD.DUR : Fld := ⟨0, 24⟩

def RF_TX_TIMEOUT.TICKS : Fld := ⟨0, 16⟩

def RF_OOK.LEN1 : Fld := ⟨24, 7⟩
def RF_OOK.CHIP : Fld := ⟨0, 24⟩

def RF_PAT.CHIPS : Fld := ⟨0, 32⟩

def RF_RXCTL.OFS : Fld := ⟨16, 16⟩
def RF_RXCTL.THRESH : Fld := ⟨4, 10⟩
def RF_RXCTL.RBW : Fld := ⟨1, 2⟩
def RF_RXCTL.EN : Fld := ⟨0, 1⟩

def RF_RXPWR.VALID : Fld := ⟨35, 1⟩
def RF_RXPWR.PWR : Fld := ⟨0, 12⟩

def SYN_CTL.EN : Fld := ⟨0, 1⟩

def SYN_FREQ.FREQ : Fld := ⟨0, 33⟩

def SYN_CAL.GO : Fld := ⟨35, 1⟩
def SYN_CAL.VALID : Fld := ⟨13, 1⟩
def SYN_CAL.DUE : Fld := ⟨12, 1⟩
def SYN_CAL.TEMP : Fld := ⟨0, 12⟩

def SYN_TEMP_STEP.STEP : Fld := ⟨0, 6⟩

def SYN_STATUS.HPORT : Fld := ⟨12, 3⟩
def SYN_STATUS.HOLDER : Fld := ⟨10, 2⟩
def SYN_STATUS.RUN : Fld := ⟨9, 1⟩
def SYN_STATUS.LOCK : Fld := ⟨8, 1⟩
def SYN_STATUS.SETTLING : Fld := ⟨7, 1⟩
def SYN_STATUS.CAL : Fld := ⟨6, 1⟩
def SYN_STATUS.FREQ_PEND : Fld := ⟨5, 1⟩
def SYN_STATUS.LOCK_LOST : Fld := ⟨4, 1⟩
def SYN_STATUS.CAL_FAIL : Fld := ⟨3, 1⟩

def COEX_CTL.TAIL : Fld := ⟨20, 8⟩
def COEX_CTL.WAIT : Fld := ⟨4, 16⟩
def COEX_CTL.REVOKE : Fld := ⟨2, 1⟩
def COEX_CTL.MODE : Fld := ⟨1, 1⟩
def COEX_CTL.EN : Fld := ⟨0, 1⟩

def COEX_STATUS.RFGNT : Fld := ⟨2, 1⟩
def COEX_STATUS.RFREQ : Fld := ⟨1, 1⟩
def COEX_STATUS.GNT_LOST : Fld := ⟨0, 1⟩

def CAL_CMD.GO : Fld := ⟨35, 1⟩
def CAL_CMD.STOP : Fld := ⟨34, 1⟩
def CAL_CMD.SLOT : Fld := ⟨8, 2⟩
def CAL_CMD.PARTS : Fld := ⟨0, 5⟩

def CAL_SCOPE.KIND : Fld := ⟨28, 4⟩
def CAL_SCOPE.BANK : Fld := ⟨24, 4⟩
def CAL_SCOPE.COUNT : Fld := ⟨16, 7⟩
def CAL_SCOPE.STRIDE : Fld := ⟨8, 6⟩
def CAL_SCOPE.SEL : Fld := ⟨0, 8⟩

def CAL_STATUS.BUSY : Fld := ⟨35, 1⟩
def CAL_STATUS.DONE : Fld := ⟨34, 1⟩
def CAL_STATUS.DISAGREE : Fld := ⟨33, 1⟩
def CAL_STATUS.STAT_FAIL : Fld := ⟨32, 1⟩
def CAL_STATUS.TEMP_OUT : Fld := ⟨31, 1⟩
def CAL_STATUS.NOT_RUN : Fld := ⟨30, 1⟩
def CAL_STATUS.ABORTED : Fld := ⟨29, 1⟩
def CAL_STATUS.GO_IGN : Fld := ⟨28, 1⟩
def CAL_STATUS.COMMIT : Fld := ⟨26, 1⟩
def CAL_STATUS.ACCEPTED : Fld := ⟨12, 12⟩
def CAL_STATUS.REJECTED : Fld := ⟨0, 12⟩

def CAL_TOL.TWIN : Fld := ⟨8, 8⟩
def CAL_TOL.TOL : Fld := ⟨0, 8⟩

def CAL_SLEW.AT_SEASON : Fld := ⟨8, 1⟩
def CAL_SLEW.STEP : Fld := ⟨0, 8⟩

def CAL_TSLOT.T3 : Fld := ⟨27, 9⟩
def CAL_TSLOT.T2 : Fld := ⟨18, 9⟩
def CAL_TSLOT.T1 : Fld := ⟨9, 9⟩
def CAL_TSLOT.T0 : Fld := ⟨0, 9⟩

def CAL_EPOCH.SETTLED : Fld := ⟨8, 1⟩
def CAL_EPOCH.EPOCH : Fld := ⟨0, 8⟩

def CAL_TORN_MAP.BANK_CH : Fld := ⟨16, 12⟩
def CAL_TORN_MAP.BANK_AN : Fld := ⟨4, 12⟩

def CAL_INFO.SLOTS : Fld := ⟨32, 4⟩
def CAL_INFO.TORN : Fld := ⟨31, 1⟩
def CAL_INFO.EPOCH : Fld := ⟨22, 8⟩
def CAL_INFO.ELEM : Fld := ⟨0, 10⟩

def CAL_REJ.VALID : Fld := ⟨35, 1⟩
def CAL_REJ.CAUSE : Fld := ⟨32, 3⟩
def CAL_REJ.ELEM : Fld := ⟨0, 10⟩

def CAL_TORN_AN.RF : Fld := ⟨16, 8⟩
def CAL_TORN_AN.PMC : Fld := ⟨8, 8⟩
def CAL_TORN_AN.AE : Fld := ⟨2, 2⟩
def CAL_TORN_AN.SRC : Fld := ⟨0, 2⟩

end F

end Sys2Proof.Machine
end

