-- ==== Sys2Proof/Machine/RegMap.lean ====
section
/-! DEFINITION. The register map: for every address of the register space, the access masks of its fields (R6), its reset
value and the event at which it takes it (R424), and whether a bank, router or RF reload keeps it (R421 to R423, R426). -/

namespace Sys2Proof.Machine

/-- The event at which a register takes its reset value (R424); `bank`, `chan`, `router` and `rf` are start-up registers
that a reload of their target resets too. -/
inductive ResetEv where
  | fuses | startup | vaon | store | bank | chan | router | rf
  deriving DecidableEq, Repr

/-- What the map says of one register word: the reset value, the bits of each access code, and the reset event. `mapped` is
false for an address in no row of the map (R9). -/
structure RegInfo where
  reset : Word := 0
  rw : Word := 0
  wo : Word := 0
  w1c : Word := 0
  rc : Word := 0
  atM : Word := 0
  asM : Word := 0
  ev : ResetEv := .startup
  kept : Bool := false
  mapped : Bool := true
  deriving DecidableEq, Repr

/-- An address outside the map: reads 0, ignores writes (R9). -/
def RegInfo.unmapped : RegInfo := { mapped := false }

/-- The global registers (R420). -/
def infoGlobal (a : Nat) : RegInfo :=
  if a = 0x0 then { ev := .fuses }   -- UNIT_ID0
  else if a = 0x1 then { reset := 0x10000000, ev := .fuses }   -- UNIT_ID1
  else if a = 0x2 then {}   -- UNIT_ADDR
  else if a = 0x3 then { reset := 0x1 }   -- UNIT_STATUS
  else if a = 0x4 then { reset := 0x100 }   -- PWR_STATUS
  else if a = 0x5 then { w1c := 0x3f8000 }   -- CLK_STATUS
  else if a = 0x6 then { w1c := 0x3fff00, rc := 0x3fc00000 }   -- DIE_LINK_STATUS
  else if a = 0x8 then { w1c := 0xfffffde00 }   -- FAULT_STATUS
  else if a = 0x9 then { reset := 0xfffffd000, rw := 0xffffffe00 }   -- FAULT_ENABLE
  else if a = 0xa then {}   -- FAULT_DIE
  else if a = 0xc then { w1c := 0xffff000 }   -- INT_STATUS
  else if a = 0xd then { rw := 0xfffffff, atM := 0xfffffff }   -- INT_ENABLE
  else if a = 0xe then { reset := 0x5, rw := 0xf }   -- INT_CTL
  else if 0x10 ≤ a ∧ a < 0x1c then {}   -- FAULT_BANK
  else if a = 0x20 then {}   -- TICK_COUNT_LO
  else if a = 0x21 then { reset := 0x80000 }   -- TICK_COUNT_HI
  else if a = 0x22 then { w1c := 0xe08, rc := 0xff000 }   -- TICK_STATUS
  else if a = 0x23 then { rc := 0xfffffffff }   -- TICK_BUDGET
  else if a = 0x24 then { reset := 0x8230, rw := 0xc7f0, wo := 0x2000 }   -- LEAP_CTL
  else if a = 0x25 then { rw := 0x1ffffff }   -- EPACT
  else if a = 0x26 then { wo := 0x1 }   -- EPACT_CTL
  else if a = 0x27 then {}   -- EPACT_MEAS_A
  else if a = 0x28 then {}   -- EPACT_MEAS_B
  else if a = 0x30 then { rw := 0xffffffff, wo := 0x800000000, atM := 0x8ffffffff }   -- SEASON_CTL
  else if a = 0x31 then { ev := .store }   -- SEASON_COUNT
  else if a = 0x32 then { w1c := 0x200000000 }   -- SEASON_STATUS
  else if 0x40 ≤ a ∧ a < 0x50 then {}   -- SEASON_REC
  else if a = 0x50 then { reset := 0xd0, rw := 0xff, atM := 0xff }   -- POWER_CAP
  else if a = 0x51 then { reset := 0x5dcc544 }   -- POWER_LEDGER
  else if a = 0x52 then {}   -- POWER_REFUSE
  else if a = 0x53 then {}   -- POWER_REFUSE_SH
  else if 0x54 ≤ a ∧ a < 0x56 then { reset := 0x244244244, rw := 0xfffffffff, atM := 0xfffffffff }   -- POWER_DIE_CAP
  else if 0x56 ≤ a ∧ a < 0x58 then {}   -- POWER_DIE_USE
  else if a = 0x58 then {}   -- TEMP_CORE
  else if 0x59 ≤ a ∧ a < 0x5f then {}   -- TEMP_PIN
  else if a = 0x5f then {}   -- TEMP_RF
  else if a = 0x60 then { reset := 0x20000, rw := 0x3e0fff, wo := 0x800000, atM := 0xbc0000 }   -- ALMANAC_CTL
  else if a = 0x61 then { w1c := 0x7c000000 }   -- ALMANAC_STATUS
  else if a = 0x62 then { rw := 0x1fffffff }   -- NVM_ADDR
  else if a = 0x63 then { rw := 0xffffffff }   -- NVM_DATA
  else if a = 0x64 then { wo := 0xf }   -- NVM_CMD
  else if a = 0x65 then { w1c := 0xc0000000 }   -- NVM_STATUS
  else if a = 0x70 then { w1c := 0x3ff00000 }   -- RING_STATUS
  else if a = 0x71 then { rc := 0xfffffffff }   -- RING_ERR_A
  else if a = 0x72 then { rc := 0xfffffffff }   -- RING_ERR_B
  else if a = 0x78 then { rw := 0x1ffffffff, asM := 0x1ffffffff }   -- REF_DECLARE
  else if a = 0x79 then { rw := 0x1fff, asM := 0x1fff }   -- CHUCK_DECLARE
  else if a = 0x7c then { w1c := 0x74 }   -- BS_STATUS
  else if a = 0x80 then { reset := 0x210, rw := 0xfff73c, wo := 0x2, atM := 0x2, ev := .vaon }   -- WAKE_CTL
  else if a = 0x81 then { rw := 0xffffffff, ev := .vaon }   -- WAKE_CODE
  else if a = 0x82 then { rw := 0xffffffff, ev := .vaon }   -- WAKE_BCODE
  else if a = 0x83 then { w1c := 0x3fff, ev := .vaon }   -- WAKE_STATUS
  else if a = 0x84 then { ev := .vaon }   -- WAKE_ETIME
  else if a = 0x85 then { ev := .vaon }   -- VIGIL_TIME
  else if 0x90 ≤ a ∧ a < 0x9c then { ev := .vaon }   -- WAKE_BANK
  else if 0xa0 ≤ a ∧ a < 0xac then { ev := .vaon }   -- WAKE_TIME
  else RegInfo.unmapped

/-- The registers of one bank, by offset in its block (R421). -/
def infoBank (o : Nat) : RegInfo :=
  if o = 0x0 then { rw := 0x3, atM := 0x3, ev := .bank }   -- BANK_MODE
  else if o = 0x1 then { w1c := 0x10c0000, ev := .bank }   -- BANK_STATUS
  else if o = 0x2 then { rw := 0x3f03ffff, wo := 0xe00000000, atM := 0xe3f03ffff, ev := .bank }   -- SEQ_START
  else if o = 0x3 then { rw := 0xfffffffff, ev := .bank }   -- SEQ_AT
  else if o = 0x4 then { ev := .bank }   -- SEQ_PC
  else if o = 0x5 then { ev := .bank }   -- SEQ_VCNT
  else if o = 0x6 then { rw := 0xffff, atM := 0xffff, ev := .bank }   -- SEQ_FLAGS
  else if 0x7 ≤ o ∧ o < 0xb then { ev := .bank }   -- SEQ_CNT
  else if o = 0x0b then { reset := 0x30, rw := 0xffff, atM := 0xffff, ev := .bank }   -- VEC_PERIOD
  else if 0xc ≤ o ∧ o < 0x10 then { rw := 0xffffffff, atM := 0xffffffff, ev := .bank }   -- BANK_ESEL
  else if 0x10 ≤ o ∧ o < 0x1c ∧ (o - 0x10) % 3 = 0 then { rw := 0x37fffff, atM := 0x37fffff, ev := .bank }   -- ES_DRV
  else if 0x11 ≤ o ∧ o < 0x1d ∧ (o - 0x11) % 3 = 0 then { rw := 0x7fffff, atM := 0x7fffff, ev := .bank }   -- ES_RTN
  else if 0x12 ≤ o ∧ o < 0x1e ∧ (o - 0x12) % 3 = 0 then { rw := 0x7fffff, atM := 0x7fffff, ev := .bank }   -- ES_STB
  else if 0x1c ≤ o ∧ o < 0x1e then { ev := .bank }   -- BANK_CH_INT
  else if o = 0x20 then { reset := 0xa0000, rw := 0xeffff, atM := 0xeffff, ev := .bank }   -- RESP_CTL
  else if o = 0x21 then { reset := 0x3ff800000, rw := 0x3ffffffff, atM := 0x3ffffffff, ev := .bank }   -- RESP_PINS
  else if o = 0x22 then { rw := 0xff, atM := 0xff, ev := .bank }   -- RESP_WIN
  else if o = 0x23 then { rw := 0xffffffff, atM := 0xffffffff, ev := .bank }   -- RESP_MISS
  else if o = 0x24 then { w1c := 0xc, ev := .bank }   -- RESP_STAT
  else if o = 0x25 then { rc := 0xffffffff, ev := .bank }   -- RESP_HITS
  else if o = 0x26 then { rc := 0xfffffffff, ev := .bank }   -- RESP_ERRS
  else if o = 0x27 then { ev := .bank }   -- RESP_LAST
  else if o = 0x28 then { rc := 0x80000ffff, ev := .bank }   -- RESP_FIRSTMISS
  else if 0x30 ≤ o ∧ o < 0x38 then { rw := 0x39fffff, wo := 0xc00000000, atM := 0xc039fffff, ev := .bank }   -- PMC_CMD
  else if 0x38 ≤ o ∧ o < 0x40 then { reset := BitVec.ofNat 36 (0x1040 + (o - 0x38) * 0x1), rw := 0x7ffff, atM := 0x7ffff, ev := .bank }   -- PMC_SCAN
  else if 0x40 ≤ o ∧ o < 0x80 then { ev := .bank }   -- SEQ_CAPT
  else if o = 0x80 then { reset := 0xff, rw := 0xff, atM := 0xff, ev := .bank }   -- PMC_CTL
  else if 0x81 ≤ o ∧ o < 0x89 then { w1c := 0x40000000, rc := 0xff0000, ev := .bank }   -- PMC_STAT
  else if o = 0x90 ∨ o = 0x98 then { reset := 0x100000, rw := 0xff7f1d, atM := 0xff7f1d, ev := .bank }   -- SRC_CTL
  else if o = 0x91 ∨ o = 0x99 then { rw := 0xffff, atM := 0xffff, ev := .bank }   -- SRC_CODE
  else if o = 0x92 ∨ o = 0x9a then { reset := 0x5555, rw := 0xffff, atM := 0xffff, ev := .bank }   -- SRC_OFS
  else if o = 0x93 ∨ o = 0x9b then { rw := 0xfffffffff, atM := 0xfffffffff, ev := .bank }   -- SRC_WAVE
  else if o = 0x94 ∨ o = 0x9c then { reset := 0x1, rw := 0x23fffffff, wo := 0xc00000000, atM := 0xe3fffffff, ev := .bank }   -- SRC_PLAY
  else if o = 0x95 ∨ o = 0x9d then { w1c := 0x19800, ev := .bank }   -- SRC_STATUS
  else if o = 0xa0 ∨ o = 0xd0 then { rw := 0x7fffffff, wo := 0xc00000000, atM := 0xc7fffffff, ev := .bank }   -- AE_CTL
  else if o = 0xa1 ∨ o = 0xd1 then { reset := 0x5555, rw := 0xffff, atM := 0xffff, ev := .bank }   -- AE_OFS
  else if o = 0xa2 ∨ o = 0xd2 then { rw := 0xfffff, atM := 0xfffff, ev := .bank }   -- AE_PRE
  else if o = 0xa3 ∨ o = 0xd3 then { reset := 0x1, rw := 0xf1fffff, atM := 0xf1fffff, ev := .bank }   -- AE_POST
  else if o = 0xa4 ∨ o = 0xd4 then { reset := 0x10000, rw := 0x7ffffffff, wo := 0x800000000, atM := 0xfffffffff, ev := .bank }   -- AE_TRIG
  else if o = 0xa5 ∨ o = 0xd5 then { w1c := 0x700000, rc := 0xfff000000, ev := .bank }   -- AE_STATUS
  else if o = 0xa6 ∨ o = 0xd6 then { wo := 0x1, atM := 0x1, ev := .bank }   -- AE_RECPOP
  else if (0xa8 ≤ o ∧ o < 0xb0) ∨ (0xd8 ≤ o ∧ o < 0xe0) then { ev := .bank }   -- AE_REC
  else if o = 0xb0 ∨ o = 0xe0 then { ev := .bank, kept := true }   -- AE_TRIGCNT
  else if o = 0xb1 ∨ o = 0xe1 then { ev := .bank, kept := true }   -- AE_TRIGCNT_SH
  else if o = 0xb2 ∨ o = 0xe2 then { ev := .bank, kept := true }   -- AE_MISSED
  else if o = 0xb3 ∨ o = 0xe3 then { ev := .bank, kept := true }   -- AE_MISSED_SH
  else if o = 0xb4 ∨ o = 0xe4 then { ev := .bank, kept := true }   -- AE_DEAD
  else if o = 0xb5 ∨ o = 0xe5 then { ev := .bank, kept := true }   -- AE_DEAD_SH
  else RegInfo.unmapped

/-- The registers of one channel, by offset in its block (R422). -/
def infoChan (o : Nat) : RegInfo :=
  if o = 0x0 then { reset := 0x180, rw := 0xf8f, atM := 0xf8f, ev := .chan }   -- CH_MODE
  else if o = 0x1 then { reset := 0x3333, rw := 0xffff, atM := 0xffff, ev := .chan }   -- CH_VIH
  else if o = 0x2 then { reset := 0x3333, rw := 0xffff, atM := 0xffff, ev := .chan }   -- CH_VIL
  else if o = 0x3 then { reset := 0x3333, rw := 0xffff, atM := 0xffff, ev := .chan }   -- CH_VT
  else if o = 0x4 then { reset := 0x3333, rw := 0xffff, atM := 0xffff, ev := .chan }   -- CH_CMPH
  else if o = 0x5 then { reset := 0x3333, rw := 0xffff, atM := 0xffff, ev := .chan }   -- CH_CMPL
  else if o = 0x6 then { reset := 0x2011, rw := 0xf0ff, atM := 0xf0ff, ev := .chan }   -- CH_FILTER
  else if o = 0x7 then { rw := 0xfff0fff, atM := 0xfff0fff, ev := .chan }   -- CH_LOAD
  else if o = 0x8 then { w1c := 0x1f, ev := .chan }   -- CH_LATCH
  else if o = 0x9 then { reset := 0x3000, w1c := 0x18000, atM := 0x10000, ev := .chan }   -- CH_STATUS
  else if o = 0xa then { rw := 0x1f1f, ev := .chan }   -- CH_ROUTE
  else if o = 0xb then { reset := 0x300, rw := 0xff, atM := 0xff, ev := .chan }   -- CH_SELFTEST
  else if o = 0xc then { rw := 0x1f, atM := 0x1f, ev := .chan }   -- CH_EDGE_CTL
  else if o = 0xd then { ev := .chan }   -- CH_EDGE_LO
  else if o = 0xe then { reset := 0x80000, ev := .chan }   -- CH_EDGE_HI
  else if o = 0xf then { w1c := 0x80, rc := 0xff00, ev := .chan }   -- CH_EDGE_STAT
  else if o = 0x10 then { ev := .chan, kept := true }   -- CH_FAILCNT
  else if o = 0x11 then { ev := .chan, kept := true }   -- CH_FAILCNT_SH
  else if o = 0x12 then { ev := .chan }   -- CH_FAIL_ADDR
  else if o = 0x18 then { reset := 0x2000000, rw := 0x3ff0717, atM := 0x3ff0717, ev := .chan }   -- CH_VIGIL_CTL
  else if o = 0x19 then { rw := 0xffffffff, atM := 0xffffffff, ev := .chan }   -- CH_VIGIL_CODE
  else if o = 0x1a then { reset := 0x100, w1c := 0x40, ev := .chan }   -- CH_VIGIL_STAT
  else if o = 0x1b then { ev := .chan, kept := true }   -- CH_VIGIL_CNT
  else if o = 0x1c then { ev := .chan, kept := true }   -- CH_VIGIL_CNT_SH
  else if o = 0x1d then { ev := .chan }   -- CH_VIGIL_TS_LO
  else if o = 0x1e then { reset := 0x80000, ev := .chan }   -- CH_VIGIL_TS_HI
  else if o = 0x20 then { reset := 0xa002, rw := 0xfc37, atM := 0xfc37, ev := .chan }   -- CH_PMU_CTL
  else if o = 0x21 then { reset := 0x33330000, rw := 0xffffffff, atM := 0xffffffff, ev := .chan }   -- CH_PMU_SET
  else if o = 0x22 then { reset := 0xffff0000, rw := 0xffffffff, atM := 0xffffffff, ev := .chan }   -- CH_PMU_VCLAMP
  else if o = 0x23 then { reset := 0x7fff, rw := 0x7fff, atM := 0x7fff, ev := .chan }   -- CH_PMU_ICLAMP
  else if o = 0x24 then { reset := 0x7ffffffff, rw := 0xfffffffff, ev := .chan }   -- CH_PMU_LIMHI
  else if o = 0x25 then { reset := 0x800000000, rw := 0xfffffffff, ev := .chan }   -- CH_PMU_LIMLO
  else if o = 0x26 then { reset := 0x10, w1c := 0xe200, ev := .chan }   -- CH_PMU_STATUS
  else if o = 0x27 then { ev := .chan }   -- CH_PMU_RES
  else if o = 0x28 then { ev := .chan }   -- CH_PMU_RESINFO
  else if o = 0x29 then { ev := .chan, kept := true }   -- CH_PMU_SUM
  else if o = 0x2a then { ev := .chan, kept := true }   -- CH_PMU_SUM_SH
  else RegInfo.unmapped

/-- The router registers, by offset from 0x002_0000 (R423). -/
def infoRouter (o : Nat) : RegInfo :=
  if o < 0x100 ∧ o % 4 = 0 then { rw := 0xfffffffff, atM := 0xfffffffff, ev := .router }   -- RULE_SRC
  else if o < 0x100 ∧ o % 4 = 1 then { rw := 0xfc0ffffff, atM := 0xfc0ffffff, ev := .router }   -- RULE_COND
  else if o < 0x100 ∧ o % 4 = 2 then { rw := 0xf00003fef, atM := 0xf00003fef, ev := .router }   -- RULE_ACT
  else if o < 0x100 ∧ o % 4 = 3 then { rw := 0xfffffffff, atM := 0xfffffffff, ev := .router }   -- RULE_ARG
  else if o = 0x100 then { reset := 0x8, rw := 0x3f, ev := .router }   -- RT_CTL
  else if o = 0x101 then { w1c := 0xf800, rc := 0xfffff0000, ev := .router }   -- RT_STATUS
  else if 0x102 ≤ o ∧ o < 0x104 then { w1c := 0xffffffff, ev := .router }   -- RT_FIRED
  else if 0x104 ≤ o ∧ o < 0x106 then { w1c := 0xffffffff, ev := .router }   -- RT_SPENT
  else if o = 0x106 then { ev := .router, kept := true }   -- ARB_LOSS
  else if o = 0x107 then { ev := .router, kept := true }   -- ARB_LOSS_SH
  else if 0x108 ≤ o ∧ o < 0x10c then { reset := 0x1, rw := 0xcffffffff, atM := 0xcffffffff, ev := .router }   -- RT_TMR
  else if 0x110 ≤ o ∧ o < 0x120 then { rw := 0xfffffffff, ev := .router }   -- RT_CNT
  else if 0x120 ≤ o ∧ o < 0x130 then { rw := 0xf83ff, atM := 0xf83ff, ev := .router }   -- LANE_CTL
  else if 0x130 ≤ o ∧ o < 0x13c then { ev := .router, kept := true }   -- RT_FLAGS
  else if 0x140 ≤ o ∧ o < 0x180 then { ev := .router }   -- RT_RCNT
  else RegInfo.unmapped

/-- The RF registers, by offset from 0x002_1000 (R423). -/
def infoRf (o : Nat) : RegInfo :=
  if o < 0x400 ∧ o % 0x80 = 0x0 then { reset := BitVec.ofNat 36 (0x1400 + (o / 0x80 / 4) * 0x1), rw := 0x3f01, atM := 0x3f01, ev := .rf }   -- RF_CTL
  else if o < 0x400 ∧ o % 0x80 = 0x1 then { reset := 0x230, rw := 0x3ff, atM := 0x3ff, ev := .rf }   -- RF_LEVEL
  else if o < 0x400 ∧ o % 0x80 = 0x2 then { rw := 0xffff, atM := 0xffff, ev := .rf }   -- RF_TUNE
  else if o < 0x400 ∧ o % 0x80 = 0x3 then { ev := .rf }   -- RF_MISMATCH
  else if o < 0x400 ∧ o % 0x80 = 0x4 then { reset := 0x80, w1c := 0x7c000, ev := .rf }   -- RF_STATUS
  else if o < 0x400 ∧ o % 0x80 = 0x5 then { reset := 0x1000fa0, rw := 0x3ffffffff, wo := 0xc00000000, atM := 0xfffffffff, ev := .rf }   -- RF_TXCMD
  else if o < 0x400 ∧ o % 0x80 = 0x6 then { reset := 0x1000, rw := 0xffff, ev := .rf }   -- RF_TX_TIMEOUT
  else if o < 0x400 ∧ o % 0x80 = 0x7 then { reset := 0x1f124f80, rw := 0x7fffffff, ev := .rf }   -- RF_OOK
  else if o < 0x400 ∧ 0x8 ≤ o % 0x80 ∧ o % 0x80 < 0xc then { rw := 0xffffffff, ev := .rf }   -- RF_PAT
  else if o < 0x400 ∧ o % 0x80 = 0xc then { reset := 0x1900, rw := 0xffff3ff7, atM := 0xffff3ff7, ev := .rf }   -- RF_RXCTL
  else if o < 0x400 ∧ o % 0x80 = 0xd then { ev := .rf }   -- RF_RXPWR
  else if 0x400 ≤ o ∧ o < 0x500 ∧ o % 0x80 = 0x0 then { rw := 0x1, atM := 0x1, ev := .rf }   -- SYN_CTL
  else if 0x400 ≤ o ∧ o < 0x500 ∧ o % 0x80 = 0x1 then { reset := 0x3b9aca00, rw := 0x1ffffffff, atM := 0x1ffffffff, ev := .rf }   -- SYN_FREQ
  else if 0x400 ≤ o ∧ o < 0x500 ∧ o % 0x80 = 0x2 then { reset := 0x1000, wo := 0x800000000, atM := 0x800000000, ev := .rf }   -- SYN_CAL
  else if 0x400 ≤ o ∧ o < 0x500 ∧ o % 0x80 = 0x3 then { reset := 0x10, rw := 0x3f, ev := .rf }   -- SYN_TEMP_STEP
  else if 0x400 ≤ o ∧ o < 0x500 ∧ o % 0x80 = 0x4 then { w1c := 0x18, ev := .rf }   -- SYN_STATUS
  else if o = 0x500 then { reset := 0x10000, rw := 0xffffff7, atM := 0xffffff7, ev := .rf }   -- COEX_CTL
  else if o = 0x501 then { w1c := 0x1, ev := .rf }   -- COEX_STATUS
  else RegInfo.unmapped

/-- The calibration engine registers (R423). -/
def infoCal (a : Nat) : RegInfo :=
  if a = 0x22000 then { reset := 0x1f, rw := 0x31f, wo := 0xc00000000, atM := 0xc0000031f }   -- CAL_CMD
  else if a = 0x22001 then { reset := 0x10000000, rw := 0xff7f3fff, atM := 0xff7f3fff }   -- CAL_SCOPE
  else if a = 0x22002 then { w1c := 0x3f0000000 }   -- CAL_STATUS
  else if a = 0x22003 then { reset := 0x404, rw := 0xffff }   -- CAL_TOL
  else if a = 0x22004 then { reset := 0x1, rw := 0x1ff }   -- CAL_SLEW
  else if a = 0x22005 then { reset := 0x55208b432, rw := 0xfffffffff, asM := 0xfffffffff, ev := .store }   -- CAL_TSLOT
  else if a = 0x22006 then { reset := 0x100 }   -- CAL_EPOCH
  else if a = 0x22007 then { ev := .store }   -- CAL_TORN_MAP
  else if a = 0x22008 then { rw := 0x3ff }   -- CAL_INFO
  else if a = 0x22009 then {}   -- CAL_REJ
  else if 0x22010 ≤ a ∧ a < 0x2201c then { ev := .store }   -- CAL_TORN_AN
  else RegInfo.unmapped

/-- What the map says of the register at address `a` (R419). -/
def regInfo (a : Nat) : RegInfo :=
  if a < 0x1000 then infoGlobal a
  else if a < 0x1c00 then infoBank ((a - 0x1000) % 0x100)
  else if a < 0x10000 then RegInfo.unmapped
  else if a < 0x1c000 then infoChan ((a - 0x10000) % 0x40)
  else if a < 0x20000 then RegInfo.unmapped
  else if a < 0x21000 then infoRouter (a - 0x20000)
  else if a < 0x22000 then infoRf (a - 0x21000)
  else if a < 0x23000 then infoCal a
  else RegInfo.unmapped

/-- The reset value of the register at `a`: the default of the register table. -/
def resetWord (a : Nat) : Word := (regInfo a).reset

/-- The bits of a register whose writes take effect at a boundary (AT or AS, R6). -/
def RegInfo.delayed (i : RegInfo) : Word := i.atM ||| i.asM

/-- The bits a writer can set, clear or trigger (R6). -/
def RegInfo.writable (i : RegInfo) : Word := i.rw ||| i.wo ||| i.w1c

end Sys2Proof.Machine
end

