-- ==== Sys2Proof/Machine/Tab.lean ====
section
/-! DEFINITION. Sparse tables in one canonical form: a list of (key, value) pairs with strictly rising keys and no pair whose
value is the default of its key. Registers, memories and the per-resource records of the state are held so; equal tables are
equal lists. -/

namespace Sys2Proof.Machine

variable {α : Type}

/-- The value at key `k`; an unlisted key reads as its default. -/
def Tab.get (d : Nat → α) : List (Nat × α) → Nat → α
  | [], k => d k
  | p :: t, k => if k = p.1 then p.2 else Tab.get d t k

/-- The table without key `k`. -/
def Tab.erase (t : List (Nat × α)) (k : Nat) : List (Nat × α) := t.filter (fun p => decide (p.1 ≠ k))

/-- Insert a pair before the first larger key. -/
def Tab.ins (k : Nat) (v : α) : List (Nat × α) → List (Nat × α)
  | [] => [(k, v)]
  | p :: t => if k < p.1 then (k, v) :: p :: t else p :: Tab.ins k v t

/-- Write `v` at key `k`, keeping the canonical form: writing the default removes the pair. -/
def Tab.set [DecidableEq α] (d : Nat → α) (t : List (Nat × α)) (k : Nat) (v : α) : List (Nat × α) :=
  if v = d k then Tab.erase t k else Tab.ins k v (Tab.erase t k)

/-- Apply `f` to the value at key `k`. -/
def Tab.upd [DecidableEq α] (d : Nat → α) (t : List (Nat × α)) (k : Nat) (f : α → α) : List (Nat × α) :=
  Tab.set d t k (f (Tab.get d t k))

/-- The table with every key that `p` accepts back at its default. -/
def Tab.drop (p : Nat → Bool) (t : List (Nat × α)) : List (Nat × α) := t.filter (fun q => !p q.1)

/-- Keys strictly rising above `lo`. -/
def Tab.rising : Option Nat → List (Nat × α) → Bool
  | _, [] => true
  | none, p :: t => Tab.rising (some p.1) t
  | some j, p :: t => decide (j < p.1) && Tab.rising (some p.1) t

/-- The canonical form of a table. -/
def Tab.wf [DecidableEq α] (d : Nat → α) (t : List (Nat × α)) : Bool :=
  Tab.rising none t && t.all (fun p => decide (p.2 ≠ d p.1))

end Sys2Proof.Machine
end

