-- ==== Sys2Proof/Machine/State.lean ====
section
/-! DEFINITION. The state of one LXV768: its register words, memories and battery store as sparse tables, the hidden state
of every chapter as records, the pins, and the queue of waiting commands. Plain data throughout. -/

namespace Sys2Proof.Machine

/-- No command faults: every fault of R409 is the effect of a command on the state, and the unit goes on (assumption 5). -/
inductive Fault where
  deriving DecidableEq, Repr

/-- Why a command has no meaning. -/
inductive Refusal where
  /-- Raised by an arm of `exec` that has no meaning yet; safe. -/
  | notModelled (mnemonic : String)
  deriving DecidableEq, Repr

/-- A table of words by address. -/
abbrev Words := List (Nat × Word)

/-- A timestamp (R57). -/
structure Stamp where
  tick : Nat := 0
  fine : Nat := 0
  interp : Bool := false
  estim : Bool := true
  leapAdj : Bool := false
  loc : Bool := false
  invalid : Bool := false
  deriving DecidableEq, Repr

/-- An event as the router sees it: its selector (R262), the tick in which it occurs (R263), by the boundaries
passed (`Clk.seq`), and its timestamp. -/
structure Ev where
  cls : Nat
  idx : Nat
  kind : Nat
  tick : Nat
  st : Stamp
  /-- What the event carries for the statistics: the vector address of a failing strobe (R96). -/
  info : Nat := 0
  deriving DecidableEq, Repr

/-- An item of the power ledger (R32). `chan` is a channel active, `vigil` one in light vigil, `calEl` an element held by the
calibration engine (R325). -/
inductive Item where
  | unitBase
  | pll (die : Nat)
  | bankBase (b : Nat)
  | chan (c : Nat)
  | vigil (c : Nat)
  | pmu (c : Nat)
  | pmc (n : Nat)
  | src (n : Nat)
  | ae (e : Nat)
  | rfBase
  | syn (y : Nat)
  | rx (p : Nat)
  | tx (p : Nat)
  | calEl (e : Nat)
  deriving DecidableEq, Repr

/-- A ledger charge: an item and its amount in mW. -/
abbrev Charge := Item × Nat

/-- What takes effect at a tick boundary (R45). -/
inductive Eff where
  /-- An AT or AS register value comes into force (R6, R46). -/
  | force (a : Nat) (v : Word)
  /-- A W1C bit that clears at a boundary (R83, R279). -/
  | clear (a : Nat) (m : Word)
  /-- A bank power state comes into force: 0 OFF, 1 SAFE, 2 ACTIVE (R155). -/
  | bank (b req : Nat)
  /-- GO, STOP and ABORT of a sequencer (R156). -/
  | seq (b : Nat) (go stop abort : Bool) (cond flag addr : Nat)
  /-- An abort by the router (R269). -/
  | abort (b : Nat)
  /-- GO or STOP of a converter (R192, R196). -/
  | pmc (b k : Nat) (go stop : Bool) (who : Writer)
  /-- A granted and admitted converter command begins (R193). -/
  | pmcBegin (n : Nat)
  /-- GO or STOP of playback (R218, R220). -/
  | play (n : Nat) (go stop : Bool)
  /-- An admitted source enters PARKED (R211). -/
  | srcOn (n : Nat)
  /-- GO or STOP of an engine (R235, R236). -/
  | ae (e : Nat) (go stop : Bool)
  /-- An admitted engine enters IDLE (R234). -/
  | aeOn (e : Nat)
  /-- A record pop (R255). -/
  | pop (e : Nat)
  /-- Trigger condition 3 of an engine in force for the tick (R245). -/
  | aeTrig (e : Nat)
  /-- The ledger has admitted a transmit command (R294). -/
  | txAdm (p : Nat)
  /-- A transmit command is dropped with a cause (R297). -/
  | txDrop (p cause : Nat)
  /-- STOP of a transmit (R301). -/
  | txStop (p : Nat)
  /-- A transmit is cut at the boundary that ends the window (R304). -/
  | txCut (p : Nat)
  /-- Receive comes into force (R310). -/
  | rxOn (p : Nat)
  /-- A synthesiser calibration requested (R291). -/
  | synCal (y : Nat) (h : Side)
  /-- A granted synthesiser calibration begins (R291). -/
  | synBegin (y : Nat)
  /-- The grant of a rejected synthesiser calibration ends (R39). -/
  | synEnd (y : Nat)
  /-- GO or STOP of the calibration engine (R322, R331). -/
  | cal (go stop : Bool)
  /-- The elements of a calibration group are held (R325). -/
  | calHold (els : List Nat)
  /-- The calibration run ends with its step not run (R39). -/
  | calNotRun
  /-- A reload request (R372). -/
  | reload (target : Nat)
  /-- Flags of a bank set and cleared (R154). -/
  | flags (b setM clrM : Nat)
  /-- RIRQ bits set (R279). -/
  | rirq (m : Nat)
  /-- The router wake latch set or cleared across C9 (R270). -/
  | wake (on : Bool)
  /-- Lanes granted for the tick (R278). -/
  | lanes (m : Nat)
  /-- A season boundary with the causes of the mask (R67). -/
  | season (mask : Nat)
  /-- A deep vigil request (R126). -/
  | deep
  /-- A counter's COUNT action (R269). -/
  | count (k : Nat)
  /-- A notice packet queued (R280). -/
  | notice (rule : Nat) (st : Stamp) (sel : Word)
  /-- An error halt of a sequencer (R158). -/
  | errHalt (b code : Nat)
  /-- A die fault is recorded: `FAULT_DIE` cause (R17, R417). -/
  | dieFault (d cause : Nat)
  /-- What R126 does at the boundary after the request takes effect. -/
  | deepDown
  /-- The values of a reload come into force at E (R373, R374). -/
  | reloadEnd (target : Nat)
  /-- The GO fields of a reloaded segment act at E (R374). -/
  | reloadGo (target : Nat)
  deriving DecidableEq, Repr

/-- An effect waiting for its boundary: the tick it begins and its writer (R7), and whether it is a value that the ledger has
admitted for that boundary (R78). -/
structure Staged where
  due : Nat
  who : Writer
  eff : Eff
  adm : Bool := false
  deriving DecidableEq, Repr

/-- What a ledger request is for: a later request of the same key replaces it (R78, R186), and a stop withdraws it. -/
inductive ReqKey where
  | reg (a : Nat)
  | wreg (b : Nat)
  | rule (n : Nat)
  | pmc (n : Nat)
  | src (n : Nat)
  | ae (e : Nat)
  | tx (p : Nat)
  | rx (p : Nat)
  | synRun (y : Nat)
  | synCal (y : Nat)
  | bank (b : Nat)
  | cal
  | list (target : Nat)
  deriving DecidableEq, Repr

/-- Where a ledger request waits (R48, R49). -/
inductive Slot where
  | shared | reserved | held
  deriving DecidableEq, Repr

/-- A request that raises the charge (R34): the effects that its admission stages. The charge is computed from them each
time it is considered (R458). -/
structure Req where
  id : Nat
  key : ReqKey
  cls : Cls
  idx : Nat
  who : Writer
  effs : List Eff
  /-- The first window that considers it (R46). -/
  frm : Nat
  /-- Windows for which it has waited. -/
  age : Nat := 0
  /-- It has waited 64 ticks or more (R36). -/
  aged : Bool := false
  /-- It has been refused once (R38). -/
  counted : Bool := false
  slot : Slot := .shared
  deriving DecidableEq, Repr

/-- The power ledger (R32 to R42). -/
structure Ledger where
  committed : List Charge := []
  queue : List Req := []
  nextId : Nat := 0
  /-- Releases that have taken effect and are credited in the next window (R35). -/
  releases : List Item := []
  /-- Releases of the next boundary that this window has credited already. -/
  credited : List Item := []
  /-- Segment lists (R370): the items behind the head, by target 0 to 11 for a bank, 12 router, 13 RF. -/
  lists : List (Nat × List Eff) := []
  /-- Refusals and rejections of this window, counted after the season latch (R42). -/
  winRef : Nat := 0
  winImp : Nat := 0
  /-- `TICK_BUDGET.HELD` has counted this window (R49). -/
  heldCounted : Bool := false
  deriving DecidableEq, Repr

/-- A shared resource (R282). -/
inductive Res where
  | pmc (n : Nat)
  | bus (b : Nat)
  | syn (y : Nat)
  | lane (n : Nat)
  | store
  deriving DecidableEq, Repr

/-- A request for a shared resource (R283, R284). -/
structure Arb where
  id : Nat
  res : Res
  cls : Cls
  idx : Nat
  /-- The first window whose phase 3 handles it (R46). -/
  frm : Nat := 0
  /-- Windows in a row in which it lost. -/
  age : Nat := 0
  aged : Bool := false
  counted : Bool := false
  who : Writer := .host .a
  /-- Which of its class's requests it is: the port of a transmit, 8 for a calibration; 0 elsewhere. -/
  tag : Nat := 0
  deriving DecidableEq, Repr

/-- What the pin driver does (R134). -/
inductive Drive where
  | hiz | vil | vih | vt
  deriving DecidableEq, Repr

/-- An entry of an edge FIFO (R101). -/
structure Edge where
  kind : Nat
  st : Stamp
  deriving DecidableEq, Repr

/-- The comparator's raw outputs and its input from an instant on: fine units since reset, H, L, and the level in µV. -/
structure CmpPt where
  at_ : Nat
  h : Bool
  l : Bool
  level : Int
  deriving DecidableEq, Repr

/-- The hidden state of a channel. -/
structure Chan where
  /-- What the driver does at the pin, and the active load (R77, R83, R84). -/
  drive : Drive := .hiz
  load : Bool := false
  /-- What the pin codes of PATTERN ask of the driver, with the edges still to come (R134, R140). -/
  pat : Drive := .hiz
  wave : List (Nat × Drive) := []
  /-- Ticks in a row in which the driver limited its current (R83). -/
  limTicks : Nat := 0
  rawH : Bool := false
  rawL : Bool := false
  /-- The level of the pin in µV as reported last: outside the device (R462). -/
  level : Int := 0
  /-- Raw outputs and input of the last decisions, newest first (R88). -/
  pts : List CmpPt := []
  /-- Time-stamped raw crossings of the last decisions, newest first: instant and edge kind (R90). -/
  cross : List (Nat × Nat) := []
  /-- The last time-stamped crossing of H and of L (R90). -/
  stampedH : Option Nat := none
  stampedL : Option Nat := none
  /-- The instant of the last change of H (R164, R169). -/
  hAt : Nat := 0
  /-- The instant of the last start of the comparator (R91). -/
  started : Nat := 0
  /-- The comparator is powered in active mode (R91). -/
  active : Bool := false
  edges : List Edge := []
  /-- Correlator history, newest first (R111). -/
  chips : List Bool := []
  /-- Deep-vigil sampler: running, and its control and code words in force beyond C9 (R112). -/
  sampler : Bool := false
  sCtl : Word := 0
  sCode : Word := 0
  /-- The tick at which a move from vigil to an active function completes (R128). -/
  leaveAt : Option Nat := none
  /-- A match made in deep vigil that is crossing C8, with its timestamp (R116). -/
  deepMatch : List Stamp := []
  /-- Word 1 of the last match timestamp (R114). -/
  vTs1 : Word := 0x80000
  /-- The W1C writes of `CH_LATCH` in a tick: the tick and the bits (R94), with `CH_FAIL_ADDR` as it stood. -/
  latchWrAt : Nat := 0
  latchWr : Word := 0
  failOld : Word := 0
  /-- The PMU forces, or its release is under way (R186). -/
  pmuOn : Bool := false
  /-- Forced value of the PMU, an FV or FI code (R187). -/
  pmuVal : Int := 0
  /-- FI is ramping to 0 A before the force is released (R188). -/
  pmuRelease : Bool := false
  /-- A smaller range to be switched in when the ramp reaches its full scale (R189). -/
  pmuRange : Option Nat := none
  /-- Information word of the stored result (R200). -/
  pmuInfo : Word := 0
  /-- Held by the calibration engine (R325). -/
  held : Bool := false
  /-- A CH_MODE write that waits for the release (R325). -/
  modeWait : Option (Word × Writer) := none
  deriving DecidableEq, Repr

/-- What a sequencer waits for (R145 to R151). -/
inductive Wait where
  | none
  | flag
  | hand
  | mloop
  /-- The hold after WTICK: the ticks that it adds, and the boundary at which line L + 1 starts, once the line's end has been
  passed (R146). -/
  | ticks (n : Nat) (at_ : Option Nat)
  /-- The hold after WREG, and the window that commits the writes (R151). -/
  | wreg (win : Option Nat)
  /-- The hold before a line that starts at a boundary (R148, R151). -/
  | target (line : Nat) (at_ : Option Nat)
  /-- The HALT line is being applied (R152). -/
  | halt
  deriving DecidableEq, Repr

/-- A strobe that its vector has placed and that is still to be decided (R87, R140): its instant in fine units since reset, the
bank channel index, the pin code, the line, the repetition of which it is a match test (R148), and the levels of the pin in µV
that its decisions see. -/
structure Strobe where
  at_ : Nat
  ch : Nat
  code : Nat
  line : Nat
  test : Option Nat := none
  levels : List Int := []
  deriving DecidableEq, Repr

/-- A repetition of a match loop that is still to be judged (R148): its start, its line, the match tests still to come, whether
one has failed, and its last strobe instant. -/
structure Rep where
  id : Nat
  line : Nat
  left : Nat
  failed : Bool := false
  last : Nat
  deriving DecidableEq, Repr

/-- The hidden state of a bank: its sequencer and responder. -/
structure Bank where
  line : Nat := 0
  stack : List Nat := []
  wait : Wait := .none
  /-- Armed by GO: condition, flag and first line (R156, R157). -/
  armCond : Nat := 0
  armFlag : Nat := 0
  armAddr : Nat := 0
  /-- The first line is being issued: the tick at which it starts (R157). -/
  firstAt : Option Nat := none
  /-- The end of the last vector applied, in fine units since reset; while the first line of a run is being issued, its start. -/
  endAt : Nat := 0
  /-- Strobes and repetitions of vectors applied that are still to be decided (R87, R148). -/
  strobes : List Strobe := []
  reps : List Rep := []
  /-- Fetch of the lines that start in a tick (R153): the tick, and the half CORE cycles used. -/
  fetchAt : Nat := 0
  fetched : Nat := 0
  /-- The pin die holds the bank in its safe pin state until its power state changes (R17, R170). -/
  cut : Bool := false
  /-- An error halt that completes at the first boundary after the last vector applied: its code (R158). -/
  err : Option Nat := none
  /-- A repetition of the match loop at this line has matched: repetitions go on to this instant (R148). -/
  matched : Option (Nat × Nat) := none
  /-- Vectors of the current REPT line that have been applied (R143). -/
  rep : Nat := 0
  /-- A bank admitted to ACTIVE waits for PLL lock (R155). -/
  pllWait : Bool := false
  /-- A request for ACTIVE that waits for a die fault condition to end (R412), and its writer. -/
  dieWait : Option Writer := none
  /-- The responder holds its pins (R161, R173). -/
  hand : Bool := false
  /-- The start of the last handover, its end, and an end that is fixed and still to come, in fine units since reset (R173 to
  R175). -/
  handFrom : Nat := 0
  handEnded : Option Nat := none
  handTo : Option Nat := none
  /-- The last active strobe edge handled, and the last that began a cycle (R165). -/
  lastEdge : Option Nat := none
  lastCycle : Option Nat := none
  /-- The responder's registers as they stood at the start of the handover (R177). -/
  respCtl : Word := 0
  respPins : Word := 0
  respWin : Word := 0
  respMiss : Word := 0
  /-- Data and output enables driven by the responder, and KEEP (R168, R169). -/
  respDrive : Option (Nat × Nat × Bool) := none
  /-- A miss in this tick with MISS_FAULT (R170). -/
  missNow : Bool := false
  /-- A bank fault that the next window records: `FAULT_BANKb.CAUSE` and INDEX (R17, R417). -/
  fault : Option (Nat × Nat) := none
  /-- Under reload, from R0 to E (R373). -/
  reload : Bool := false
  /-- The WREG writes' request has been made, and has been admitted or needs none (R151). -/
  wregAsked : Bool := false
  wregReady : Bool := false
  /-- The `CH_MODE` addresses that the admitted request of the line charged for (R78). -/
  wregAdm : List Nat := []
  deriving DecidableEq, Repr

/-- A measured channel whose result is not stored yet (R200): the channel, the tick count of the last sample, and what
`CH_PMU_RESINFO` reports. -/
structure PmcDone where
  ch : Nat
  tick : Nat
  noconn : Bool
  ramped : Bool
  range : Nat
  meas : Bool
  navg : Nat
  /-- Boundary at which the result is due: its event belongs to the tick before (R200). -/
  due : Nat
  deriving DecidableEq, Repr

/-- The hidden state of a precision converter (R193 to R198). -/
structure Pmc where
  holder : Option Cls := none
  who : Writer := .host .a
  cmd : Word := 0
  scan : Word := 0
  /-- Index i of the channel being measured and its connection tick C_i. -/
  i : Nat := 0
  conn : Nat := 0
  settle : Option Nat := none
  ramped : Bool := false
  noconn : Bool := false
  running : Bool := false
  done : List PmcDone := []
  deriving DecidableEq, Repr

/-- A waveform that plays (R217 to R222): the boundary S at which it started, in fine units since reset, the DC code and the
lines and passes of that boundary, and the lines read for the samples of the tick, by their number in the stream. -/
structure Wave where
  from_ : Nat
  code : Int
  first : Nat
  last : Nat
  reps : Nat
  lines : List (Nat × List Word) := []
  deriving DecidableEq, Repr

/-- The hidden state of a source (R209 to R226). -/
structure Src where
  /-- Admitted by the ledger (R211). -/
  on : Bool := false
  /-- The writer of EN, in whose class the source asks for admission (R211, R212). -/
  who : Writer := .host .a
  /-- The boundary at which the source was last parked (R210). -/
  parked : Nat := 0
  hold : Bool := false
  /-- Limiting ticks in a row, and whether this tick limits (R224). -/
  lim : Nat := 0
  limNow : Bool := false
  /-- The waveform that plays. -/
  wave : Option Wave := none
  /-- The last sample, which holds after playback with END = 0 (R219). -/
  lastHeld : Option Int := none
  deriving DecidableEq, Repr

/-- A trigger record (R256), the segment it occupies and the tick of its last sample. While it is held, the positions of the
segment, counted from the record's first, that lie before `lo` or from `hi` on read as `blank` (R236, R242). -/
structure Rec where
  seg : Nat
  words : List Word
  at_ : Nat
  len : Nat
  first : Nat
  lo : Nat
  hi : Nat
  blank : Word
  deriving DecidableEq, Repr

/-- A stretch of samples that an engine writes into a segment, from its arm on (R241). Instants are in fine units since reset;
samples are numbered from the arm. -/
structure Shot where
  seg : Nat := 0
  /-- The instant of sample 0, and the dead time and the missed transitions before it (R252, R256). -/
  armAt : Nat := 0
  dead : Nat := 0
  missed : Nat := 0
  /-- The trigger (R249): conditions, primary, timestamp, offsets and trigger sample; no condition before it. -/
  mask : Nat := 0
  prim : Nat := 0
  st : Stamp := {}
  ofs : List Nat := [0, 0, 0, 0]
  sample : Nat := 0
  /-- The trigger sample is over-range, the last sample that is, and the last one that a change of settings touches (R232). -/
  ovrTrig : Bool := false
  ovrAt : Option Nat := none
  chgAt : Option Nat := none
  /-- The word under way: sample A, or the sum so far (R237, R238). -/
  acc : Int := 0
  /-- The instant of the record's last sample, once it is complete. -/
  endAt : Nat := 0
  /-- The record has been discarded (R243). -/
  lost : Bool := false
  deriving DecidableEq, Repr

/-- The hidden state of an acquisition engine (R233 to R258). -/
structure Ae where
  /-- Admitted by the ledger (R234), and the writer of EN. -/
  on : Bool := false
  who : Writer := .host .a
  hold : Bool := false
  /-- The settings read at GO (R232). -/
  ctl : Word := 0
  pre : Word := 0
  post : Word := 0
  seq : Nat := 0
  /-- State of the four trigger conditions (R245), and condition 3 in the tick before (R248). -/
  cond : List Bool := [false, false, false, false]
  tickPrev : Bool := false
  /-- The input of the level detector in µV, as reported last: outside the device (R246). -/
  level : Int := 0
  /-- Transitions of enabled conditions that are still to be judged (R248): condition, instant in fine units since reset, and
  whether it was measured. -/
  trans : List (Nat × Nat × Bool) := []
  /-- The samples that are written now, and stretches that ended in this tick, whose words its end forms (R241). -/
  shot : Shot := {}
  ended : List Shot := []
  /-- Missed transitions since the last trigger sample (R250). -/
  missed : Nat := 0
  /-- Dead time (R252, R253): the instant of the last sample before it, its periods that are counted, and those still to be
  counted at the next boundary; the boundary of the pop that freed the next segment. -/
  deadFrom : Nat := 0
  deadCnt : Nat := 0
  deadPend : Nat := 0
  freeAt : Nat := 0
  recs : List Rec := []
  /-- Completed records that enter the FIFO in phase 5 (R255). -/
  done : List Rec := []
  /-- RANGE, TERM, OFS or the route changed at the boundary that began the tick (R232). -/
  chg : Bool := false
  deriving DecidableEq, Repr

/-- The transmit command of an RF port (R294 to R305). -/
structure Port where
  cmd : Word := 0
  ook : Word := 0
  pat : List Word := []
  issue : Nat := 0
  who : Writer := .host .a
  grant : Bool := false
  admitted : Bool := false
  started : Nat := 0
  /-- The instant S of the transmit, and that of its end E, in fine units since reset (R298, R299). -/
  startFine : Nat := 0
  endFine : Option Nat := none
  /-- The boundary at which the command entered COEX. -/
  coexAt : Nat := 0
  /-- The last instant ended in alarm (R308). -/
  alarm : Bool := false
  /-- The receive detector is armed (R312). -/
  rxArmed : Bool := false
  /-- The instant from which the measurement intervals run, and the number of the next one (R310). -/
  rxFrom : Nat := 0
  rxIdx : Nat := 0
  /-- The instant since which receive in force has not been blanked (R311). -/
  rxSince : Option Nat := none
  /-- Receive has been admitted and waits for the RF die's PLL (R21). -/
  rxWait : Bool := false
  synTo : Option Nat := none
  ended : Bool := false
  /-- The command was ready in the last window (R294, R303), and the boundary at which its transmit starts. -/
  ready : Bool := false
  startAt : Option Nat := none
  /-- The port transmitted in the tick before (R307). -/
  was : Bool := false
  deriving DecidableEq, Repr

/-- A synthesiser (R287 to R293). -/
structure Syn where
  /-- The band selection that the last successful calibration stored (R293): a free value. -/
  band : Nat := 0
  freqTo : Option Nat := none
  /-- LOCK at the tick instant (R294). -/
  lockAt : Bool := false
  deriving DecidableEq, Repr

/-- A value crossing C9 (R26). -/
inductive C9 where
  | ctl (v : Word)
  | code (bcast : Bool) (v : Word)
  | clear (v : Word)
  | latch (b ch : Nat)
  | wake (on : Bool)
  | sampler (c : Nat) (on : Bool) (ctl code : Word)
  deriving DecidableEq, Repr

/-- The always-on island (R119 to R124, R463). -/
structure Island where
  time : Nat := 0
  running : Bool := false
  c9 : List C9 := []
  /-- WAKE_CTL, WAKE_CODE and WAKE_BCODE beyond C9. -/
  ctl : Word := 0x210
  code : Word := 0
  bcode : Word := 0
  rtWake : Bool := false
  /-- WAKEIN samples, newest first (R123). -/
  samples : List Bool := []
  /-- Flags set at the last entry to RUNNING and not cleared since, which AUTO_REL releases (R120): the wake flags, then EUNIT
  and EBCAST. -/
  autoRel : Word := 0
  wakeN : Bool := false
  /-- Setting causes present in this VIGIL period: wake flags, then EUNIT and EBCAST (R119). -/
  causes : Nat := 0
  /-- Wake events not yet counted in the store (R120). -/
  wakeEvents : Nat := 0
  /-- Enelle matches whose result crosses C8 (R124). -/
  enelle : List (Bool × Bool) := []
  deriving DecidableEq, Repr

/-- The tick and its correction (R43 to R66). -/
structure Clk where
  /-- The 48-bit tick count (R56). -/
  count : Nat := 0
  /-- Tick boundaries passed since reset: the clock of every duration and due tick, which a change of the count by
  adoption does not move (R459). -/
  seq : Nat := 0
  /-- Card count to be adopted at the next boundary (R54). -/
  adoptTo : Option Nat := none
  running : Bool := false
  /-- Ticks in a row with the phase error at or above THRESH (R59). -/
  persist : Nat := 0
  /-- The instant of the current tick in fine units since reset (R61): the sum of the tick lengths. -/
  start : Nat := 0
  /-- Length and count of the tick before, and whether its timestamps carried LOCAL (R58). -/
  prevLen : Nat := 153600
  prevCount : Nat := 0
  prevLocal : Bool := true
  /-- The phase error as measured last, in fine units (R59, R62). -/
  phase : Int := 0
  /-- The first tick that a jump may stretch or shorten, and the phase error that it removes (R62). -/
  jumpFrom : Nat := 0
  jumpErr : Int := 0
  /-- A scheduled leap: the tick it is due at or after (R59). -/
  leapDue : Option Nat := none
  lastLeap : Option Nat := none
  /-- Steps that JUMP has still to take, and the slew that follows (R62). -/
  jump : Int := 0
  slew : Int := 0
  /-- EPACT applied so far (R63). -/
  epact : Int := 0
  /-- Length of the current tick in fine units (R60). -/
  tickLen : Nat := 153600
  missing : Nat := 0
  adopt : Bool := false
  /-- The card count minus the unit's, as decoded last (R54). -/
  cardDiff : Option Nat := none
  /-- Epact measurement: ticks left, marker sums and counts (R64, R65). -/
  measLeft : Nat := 0
  sumA : Int := 0
  cntA : Nat := 0
  sumB : Int := 0
  cntB : Nat := 0
  deriving DecidableEq, Repr

/-- The season under way (R67 to R76, R459). -/
structure Season where
  /-- A season has begun (R72). -/
  open_ : Bool := false
  startTick : Nat := 0
  len : Nat := 0
  /-- The causes of the boundary at the current tick, 0 for none. -/
  due : Nat := 0
  /-- The tick at which the season began (R461). -/
  startSeq : Nat := 0
  local_ : Bool := false
  leap : Bool := false
  /-- The same marks for the season that begins at the current tick, before its latch (R67). -/
  nextLocal : Bool := false
  nextLeap : Bool := false
  stepBack : Bool := false
  moving : Bool := false
  torn : Bool := false
  epochStart : Nat := 0
  commits : Nat := 0
  clamped : Nat := 0
  used : Nat := 0
  /-- Minimum and maximum sample of each die 0 to 7 (R461); none before the first. -/
  tmin : List (Option Int) := []
  tmax : List (Option Int) := []
  /-- Records of ended seasons that wait for the store, each with the first tick of its store cycles (R75), and the seasons
  counter that waits for it (R351), from its own tick on (R353). -/
  recs : List (Nat × List Word) := []
  seasonDue : Bool := false
  seasonFrom : Nat := 0
  /-- `REF_DECLARE`, `CHUCK_DECLARE` and the almanac slot in force in the season that ends at the current tick (R73, R380). -/
  oldRef : Word := 0
  oldChuck : Word := 0
  oldSlot : Nat := 0
  deriving DecidableEq, Repr

/-- Supplies, clocks and the whole unit (R27 to R31, R126, R413). -/
inductive UnitState where
  | starting | running | deepPending | deepReady | waking
  deriving DecidableEq, Repr

/-- Supplies, dies, links and unit pins. -/
structure UnitSt where
  st : UnitState := .starting
  vddc : Bool := false
  vddio : Bool := false
  vdda : Bool := false
  vaon : Bool := false
  vrf : Bool := false
  vbak : Bool := false
  /-- Pin dies whose VPOS or VNEG is good, by bit (R412). -/
  vpos : Nat := 0
  vneg : Nat := 0
  /-- The watchdog condition holds and the core is held in reset (R413). -/
  watchdog : Bool := false
  /-- Causes of the next full start-up, by code (R414). -/
  causes : Nat := 0
  /-- Dies whose CONV PLL is started, by bit; 6 is the RF die. -/
  pllOn : Nat := 0
  /-- Retries of each link in this tick (R15). -/
  retries : List Nat := [0, 0, 0, 0, 0, 0, 0]
  /-- Dies whose CONV PLL reported lock at the last boundary, by bit (R21). -/
  lockPrev : Nat := 0
  /-- Dies whose running CONV PLL has lost lock and not regained it, by bit (R22, R412). -/
  pllLost : Nat := 0
  /-- Dies whose link is being retrained, by bit (R411). -/
  retrain : Nat := 0
  /-- Dies recorded as faulted in this window, by cause (R417). -/
  dieFaults : List (Nat × Nat) := []
  /-- DEEP_REQ waits for a reload to end (R126). -/
  deepReq : Bool := false
  /-- VDDC, or another main supply, fell in DEEP_READY (R127). -/
  vddcFell : Bool := false
  otherFell : Bool := false
  intN : Bool := false
  faultN : Bool := false
  ringOut : Bool := false
  rfreq : Bool := false
  rfgnt : Bool := false
  /-- Ticks in RUNNING not yet counted as powered hours, across power cycles (R351). -/
  runTicks : Nat := 0
  /-- The boundary at which RFREQ falls after the last need (R303). -/
  tail : Option Nat := none
  deriving DecidableEq, Repr

/-- An element accepted by the calibration run (R327, R329). -/
structure Accept where
  elem : Nat
  slot : List Int
  common : List Int
  changed : Bool
  deriving DecidableEq, Repr

/-- The calibration engine (R322 to R339). -/
structure Cal where
  /-- The settings in force at GO (R322). -/
  slot : Nat := 0
  parts : Nat := 0
  tol : Word := 0
  tslot : Word := 0
  /-- The scope's bank, 12 for an RF port, and whether it has been available in this run (R331). -/
  bank : Nat := 0
  up : Bool := false
  /-- Groups still to come (R323). -/
  groups : List (List Nat) := []
  /-- The available elements of the next group, and how far it is: 0 not asked, 1 waiting for grants, 2 for the ledger,
  3 admitted (R324, R325). -/
  asking : List Nat := []
  stage : Nat := 0
  /-- The group that is measured, and the dies whose temperature has left the window since (R327). -/
  held : List Nat := []
  left : Nat := 0
  /-- Accepted elements whose selection changed, held until the commit completes (R326). -/
  kept : List Nat := []
  accepted : List Accept := []
  allOk : Bool := true
  /-- The timestamp of the last group decision (R353). -/
  decided : Stamp := {}
  /-- The commit: 0 none, 1 due, 2 writing (R329). -/
  commit : Nat := 0
  /-- The words that a commit has still to write, in the order of R347. -/
  words : List (Nat × Word) := []
  /-- Elements that take their selections at the next boundary (R338). -/
  apply : List Nat := []
  /-- Elements that slew toward values of a commit (R339). -/
  moves : List Nat := []
  /-- Coefficients in force and their targets, by 64 E + i for slot entry i and 64 E + 18 + j for common entry j. -/
  coef : List (Nat × Int) := []
  target : List (Nat × Int) := []
  /-- Round-robin position (R50). -/
  rr : Nat := 0
  /-- The inactive buffer's new values, and how many of them are still to be loaded (R337). -/
  buffer : List (Nat × Int) := []
  bufLeft : Nat := 0
  /-- What the entries of the active buffer are interpolated from while a switch is pending (R337): by coefficient, a slot and
  the value that it held before the commit, none where it was not valid. -/
  olds : List (Nat × Nat × Option Int) := []
  /-- Latest sample of each die 0 to 7. -/
  temps : List (Option Int) := [none, none, none, none, none, none, none, none]
  /-- Torn elements (R348). -/
  torn : List Nat := []
  /-- Slots of a `CAL_TSLOT` change that the store does not show yet (R354). -/
  tslotDue : Nat := 0
  /-- The first tick of the next reserved cycle of that change, and the cycles done. -/
  tslotAt : Nat := 0
  tslotPos : Nat := 0
  deriving DecidableEq, Repr

/-- The almanac loader, the flash and the NVM registers' hidden state (R357 to R381). -/
structure Alm where
  flash : List (Nat × Byte) := []
  /-- Flash density in bytes (R359). -/
  density : Nat := 0x2000000
  buf : List (Nat × Byte) := []
  ptr : Nat := 0
  /-- Reloads that wait: R0 and target, in order (R373). -/
  queue : List (Nat × Nat) := []
  /-- The target being reloaded. -/
  busy : Option Nat := none
  /-- The values of the segment under reload, by address (R47). -/
  fill : Words := []
  /-- What segments enable and the ledger has yet to let in: target, address and effect, in the order of the last write of each
  address (R370, R374). -/
  items : List (Nat × Nat × Eff) := []
  /-- The segment under reload is absent, or could not be loaded (R374, R376), and its payload's CRC. -/
  absent : Bool := false
  failed : Bool := false
  /-- The segment comes from the other slot (R376). -/
  mixed : Bool := false
  /-- Targets whose segment in force came from the other slot, by bit (R376). -/
  foreign : Nat := 0
  crc : Nat := 0
  /-- The reload is committed: its values come into force at the next boundary (R374). -/
  commit : Bool := false
  /-- A host operation in progress: OP and flash address (R379). -/
  op : Option (Nat × Nat) := none
  /-- A scheduled activation: slot and ACT_RELOAD (R380). -/
  sched : Option (Nat × Bool) := none
  /-- The previous slot in force, while ACTSEQ waits to be programmed (R381). -/
  prev : Option (Option Nat) := none
  lastVerified : Option Nat := none
  /-- PAYLOAD_CRC of the segments in force, by target, the global segment as target 14 (R380). -/
  segs : List (Nat × Nat) := []
  /-- The GO writes of segments that act at entry to RUNNING, or at E: address and word (R370, R374). -/
  goes : List (Nat × Word) := []
  deriving DecidableEq, Repr

/-- A held timed write (R396); `lost` are the words that a later write of the same effective point has displaced, `hid` those
whose registers a later write has reached (R7). -/
structure Timed where
  at_ : Nat
  addr : Nat
  words : List Word
  h : Side
  lost : List Nat := []
  hid : List Nat := []
  deriving DecidableEq, Repr

/-- A router packet waiting to be sent (R280, R398): interrupt or notice, source index, timestamp, last payload word, and
the hosts it is still to be sent to. -/
structure Note where
  intr : Bool
  idx : Nat
  st : Stamp
  info : Word
  toA : Bool
  toB : Bool
  deriving DecidableEq, Repr

/-- The request of a host that is being served: the words read or written so far and the STATUS up to here (R395). -/
structure Serve where
  words : List Word := []
  status : Nat := 0
  deriving DecidableEq, Repr

/-- The Kelay ring ports (R385 to R408). -/
structure Ring where
  /-- Requests held per host, the first being served: those that wait for an access of the battery store, and those behind
  them (R355, R395). -/
  rqA : List Pkt := []
  rqB : List Pkt := []
  srvA : Serve := {}
  srvB : Serve := {}
  /-- The host that holds the battery store port for its access cycle (R282). -/
  port : Option Side := none
  timed : List Timed := []
  /-- Own packets waiting, per host they are for. -/
  outA : List Pkt := []
  outB : List Pkt := []
  tagA : Nat := 0
  tagB : Nat := 0
  /-- What left last on each ring output. -/
  lastA : Option Pkt := none
  lastB : Option Pkt := none
  aliveA : Option (Bool × Bool × Nat) := none
  aliveB : Option (Bool × Bool × Nat) := none
  /-- READY of the last ALIVE on each input, and whether one is fresh (R402, R405). -/
  readyA : Bool := false
  readyB : Bool := false
  freshA : Bool := false
  freshB : Bool := false
  /-- READY sent by this unit (R405). -/
  ready : Bool := false
  /-- The address that takes effect in the next window (R400). -/
  newAddr : Option Nat := none
  /-- The tick count [15:0] in the markers sent at the current tick instant, one on each ring (R64, R389). -/
  marker : Option Nat := none
  /-- The last timestamp queued per source index, and the length of its tick in fine units (R281). -/
  lastSt : List (Nat × Stamp × Nat) := []
  deriving DecidableEq, Repr

/-- The event router's hidden state (R261 to R284). -/
structure Router where
  events : List Ev := []
  /-- Ring commands that wait for their AT: code and tick (R275). -/
  cmds : List (Nat × Nat) := []
  notes : List Note := []
  arbs : List Arb := []
  nextId : Nat := 0
  /-- Granted instances and the class that holds each (R283). -/
  grants : List (Res × Cls) := []
  /-- Start of each relative timer (R273). -/
  tmr : List (Nat × Nat) := []
  /-- Flags in force in the tick before (R263), by bank. -/
  flagsPrev : List (Nat × Nat) := []
  /-- Dies whose temperature reference waits for its first sample, by bit (R274). -/
  tref : Nat := 0xff
  /-- INT_STATUS AND INT_ENABLE at the last boundary (R280). -/
  intPrev : Word := 0
  /-- Losses of this window by class, counted after the season latch (R284). -/
  winLoss : List Nat := [0, 0, 0, 0]
  /-- Lanes granted to the router for the tick. -/
  laneReq : Nat := 0
  /-- Lanes held deasserted in this tick (R277). -/
  laneHold : Nat := 0
  /-- Under reload, from R0 to E (R373). -/
  reload : Bool := false
  deriving DecidableEq, Repr

/-- What a store word that nothing has written since reads as: the content at delivery (assumption 6), what a re-initialisation
writes (R351), or, after a time with neither VAON nor VBAK, a free value for each word, from the counter's value then on
(R342). -/
inductive StoreFill where
  | delivered
  | reinit
  | lost (base : Nat)
  deriving DecidableEq, Repr

/-- The whole unit, with the queue of commands that wait. -/
structure State where
  /-- Register words as a read finds them (R7). -/
  reg : Words := []
  /-- Values in force of registers with AT or AS fields (R6). -/
  frc : Words := []
  /-- Vector memory, responder RAM and capture memory. -/
  mem : Words := []
  /-- Battery store words (R343). -/
  bs : Words := []
  /-- What the store's unlisted words read as. -/
  bsFill : StoreFill := .delivered
  /-- W1C bits that an event has set in the current window (R428). -/
  setBits : Words := []
  /-- Second words latched for host A and for host B (R430). -/
  latA : Words := []
  latB : Words := []
  staged : List Staged := []
  led : Ledger := {}
  chan : List (Nat × Chan) := []
  bank : List (Nat × Bank) := []
  pmc : List (Nat × Pmc) := []
  src : List (Nat × Src) := []
  ae : List (Nat × Ae) := []
  port : List (Nat × Port) := []
  syn : List (Nat × Syn) := []
  isl : Island := {}
  clk : Clk := {}
  sea : Season := {}
  unit : UnitSt := {}
  cal : Cal := {}
  alm : Alm := {}
  ring : Ring := {}
  rt : Router := {}
  /-- The register space under a reload of the RF segment (R373). -/
  rfReload : Bool := false
  /-- The counter of the free values (assumption 9): the model's own field. -/
  free : Nat := 0
  /-- The commands that wait, first in, first out. -/
  pending : List Instr := []
  deriving DecidableEq, Repr

/-- The unit right after VAON and the main supplies are applied: every table at its default, the unit STARTING. -/
def State.reset : State := {}

end Sys2Proof.Machine
end

