-- ==== Sys2Proof/Machine/Ops.lean ====
section
/-! DEFINITION. The named operations over the state: register words and fields, the hidden records, timestamps, events, W1C
bits set by events, and what is staged for a tick boundary. -/

namespace Sys2Proof.Machine

/-! ### Register words -/

/-- The word a read finds (R7). -/
def State.rd (s : State) (a : Nat) : Word := Tab.get resetWord s.reg a

/-- The word with a new value. -/
def State.wr (s : State) (a : Nat) (v : Word) : State := { s with reg := Tab.set resetWord s.reg a v }

/-- A field of a register word. -/
def State.fget (s : State) (a : Nat) (f : Fld) : Nat := f.get (s.rd a)

/-- A one-bit field of a register word. -/
def State.fon (s : State) (a : Nat) (f : Fld) : Bool := f.on (s.rd a)

/-- A field of a register word set. -/
def State.fset (s : State) (a : Nat) (f : Fld) (v : Nat) : State := s.wr a (f.put (s.rd a) v)

/-- A one-bit field of a register word set or cleared. -/
def State.fbit (s : State) (a : Nat) (f : Fld) (b : Bool) : State := s.fset a f (bit01 b)

/-- A counting field raised by `n`, saturating. -/
def State.inc (s : State) (a : Nat) (f : Fld) (n : Nat) : State := s.fset a f (satAdd f (s.fget a f) n)

/-- The value in force of a register with AT or AS fields (R6). -/
def State.eff (s : State) (a : Nat) : Word := Tab.get resetWord s.frc a

/-- The value in force, set. -/
def State.setEff (s : State) (a : Nat) (v : Word) : State := { s with frc := Tab.set resetWord s.frc a v }

/-- A field in force. -/
def State.eget (s : State) (a : Nat) (f : Fld) : Nat := f.get (s.eff a)

/-- A one-bit field in force. -/
def State.eon (s : State) (a : Nat) (f : Fld) : Bool := f.on (s.eff a)

/-- Both the word that reads and the word in force set, for a change the device itself makes to a register. -/
def State.putBoth (s : State) (a : Nat) (v : Word) : State := (s.wr a v).setEff a v

/-- A field set both as read and in force. -/
def State.fsetBoth (s : State) (a : Nat) (f : Fld) (v : Nat) : State :=
  (s.fset a f v).setEff a (f.put (s.eff a) v)

/-- W1C bits set by an event; they withstand a clear of the same window (R428). -/
def State.raise (s : State) (a : Nat) (m : Word) : State :=
  { s.wr a (s.rd a ||| m) with setBits := Tab.set (fun _ => 0) s.setBits a (Tab.get (fun _ => 0) s.setBits a ||| m) }

/-- One W1C field of flags set by an event. -/
def State.raiseF (s : State) (a : Nat) (f : Fld) : State := s.raise a f.mask

/-- A raise under a condition. -/
def State.raiseIf (s : State) (c : Bool) (a : Nat) (f : Fld) : State := if c then s.raiseF a f else s

/-- Bits cleared by writing 1, but for those an event has set in this window (R428). -/
def State.w1c (s : State) (a : Nat) (m : Word) : State :=
  s.wr a (s.rd a &&& ~~~(m &&& ~~~Tab.get (fun _ => 0) s.setBits a))

/-- The second word of a latched pair as a host sees it (R430). -/
def State.latch (s : State) (h : Side) (a : Nat) (v : Word) : State :=
  match h with
  | .a => { s with latA := Tab.set resetWord s.latA a v }
  | .b => { s with latB := Tab.set resetWord s.latB a v }

/-! ### Memories and the battery store -/

/-- A word of vector memory, responder RAM or capture memory. -/
def State.memRd (s : State) (a : Nat) : Word := Tab.get (fun _ => 0) s.mem a

/-- Such a word written. -/
def State.memWr (s : State) (a : Nat) (v : Word) : State := { s with mem := Tab.set (fun _ => 0) s.mem a v }

/-! ### Hidden records -/

/-- The hidden state of channel `c`. -/
def State.ch (s : State) (c : Nat) : Chan := Tab.get (fun _ => {}) s.chan c

/-- A change of it. -/
def State.updCh (s : State) (c : Nat) (f : Chan → Chan) : State := { s with chan := Tab.upd (fun _ => {}) s.chan c f }

/-- The hidden state of bank `b`. -/
def State.bk (s : State) (b : Nat) : Bank := Tab.get (fun _ => {}) s.bank b

/-- A change of it. -/
def State.updBk (s : State) (b : Nat) (f : Bank → Bank) : State := { s with bank := Tab.upd (fun _ => {}) s.bank b f }

/-- The hidden state of converter `n`. -/
def State.pm (s : State) (n : Nat) : Pmc := Tab.get (fun _ => {}) s.pmc n

/-- A change of it. -/
def State.updPm (s : State) (n : Nat) (f : Pmc → Pmc) : State := { s with pmc := Tab.upd (fun _ => {}) s.pmc n f }

/-- The hidden state of source `n`. -/
def State.sr (s : State) (n : Nat) : Src := Tab.get (fun _ => {}) s.src n

/-- A change of it. -/
def State.updSr (s : State) (n : Nat) (f : Src → Src) : State := { s with src := Tab.upd (fun _ => {}) s.src n f }

/-- The hidden state of engine `e`. -/
def State.en (s : State) (e : Nat) : Ae := Tab.get (fun _ => {}) s.ae e

/-- A change of it. -/
def State.updEn (s : State) (e : Nat) (f : Ae → Ae) : State := { s with ae := Tab.upd (fun _ => {}) s.ae e f }

/-- The hidden state of RF port `p`. -/
def State.pt (s : State) (p : Nat) : Port := Tab.get (fun _ => {}) s.port p

/-- A change of it. -/
def State.updPt (s : State) (p : Nat) (f : Port → Port) : State := { s with port := Tab.upd (fun _ => {}) s.port p f }

/-- The hidden state of synthesiser `y`. -/
def State.sy (s : State) (y : Nat) : Syn := Tab.get (fun _ => {}) s.syn y

/-- A change of it. -/
def State.updSy (s : State) (y : Nat) (f : Syn → Syn) : State := { s with syn := Tab.upd (fun _ => {}) s.syn y f }

/-- A change of the clock record. -/
def State.updClk (s : State) (f : Clk → Clk) : State := { s with clk := f s.clk }

/-- A change of the season record. -/
def State.updSea (s : State) (f : Season → Season) : State := { s with sea := f s.sea }

/-- A change of the unit record. -/
def State.updUnit (s : State) (f : UnitSt → UnitSt) : State := { s with unit := f s.unit }

/-- A change of the calibration record. -/
def State.updCal (s : State) (f : Cal → Cal) : State := { s with cal := f s.cal }

/-- A change of the loader record. -/
def State.updAlm (s : State) (f : Alm → Alm) : State := { s with alm := f s.alm }

/-- A change of the ring record. -/
def State.updRing (s : State) (f : Ring → Ring) : State := { s with ring := f s.ring }

/-- A change of the router record. -/
def State.updRt (s : State) (f : Router → Router) : State := { s with rt := f s.rt }

/-- A change of the island record. -/
def State.updIsl (s : State) (f : Island → Island) : State := { s with isl := f s.isl }

/-- A change of the ledger. -/
def State.updLed (s : State) (f : Ledger → Ledger) : State := { s with led := f s.led }

/-- A change of the list of what waits for a boundary. -/
def State.updStaged (s : State) (f : List Staged → List Staged) : State := { s with staged := f s.staged }

/-! ### Iteration -/

/-- `f` over every number of a list, in order. -/
def State.each (s : State) (l : List Nat) (f : State → Nat → State) : State := l.foldl f s

/-- `f` over 0 to `n − 1`, in order. -/
def State.upTo (s : State) (n : Nat) (f : State → Nat → State) : State := (List.range n).foldl f s

/-- `f` under a condition. -/
def State.cond (s : State) (c : Bool) (f : State → State) : State := if c then f s else s

/-! ### Names (R1, R2) -/

/-- The bank of a channel. -/
def bankOf (c : Nat) : Nat := c / 64
/-- The pin die of a bank. -/
def dieOfBank (b : Nat) : Nat := b / 2
/-- The pin die of a channel. -/
def dieOf (c : Nat) : Nat := c / 128
/-- The channels of a bank. -/
def bankChans (b : Nat) : List Nat := (List.range 64).map (fun i => 64 * b + i)
/-- The two banks of a pin die. -/
def dieBanks (d : Nat) : List Nat := [2 * d, 2 * d + 1]
/-- Source, digitizer or engine `j` of bank `b`. -/
def elemOf (b j : Nat) : Nat := 2 * b + j
/-- Converter `k` of bank `b`. -/
def pmcOf (b k : Nat) : Nat := 8 * b + k

/-! ### Time -/

/-- The current tick by boundaries passed. -/
def State.now (s : State) : Nat := s.clk.seq

/-- The boundary at which a write that reaches CORE at this cycle takes effect (R46). -/
def State.dueAt (s : State) (cyc : Nat) : Nat :=
  if cyc ≤ Config.lastWriteCycle then s.now + 1 else s.now + 2

/-- Timestamps made now carry LOCAL (R58). -/
def State.isLocal (s : State) : Bool :=
  !s.fon A.TICK_STATUS F.TICK_STATUS.LOCKED || !s.fon A.TICK_STATUS F.TICK_STATUS.COUNT_SET
    || s.fon A.TICK_STATUS F.TICK_STATUS.COUNT_MISMATCH

/-- Tick `n`, the current one or the one before it, is within one tick of a leap tick, or a slew is in progress (R57, R61). -/
def State.leapAdjAt (s : State) (n : Nat) : Bool :=
  s.clk.slew != 0 || s.clk.jump != 0
    || (match s.clk.lastLeap with | some l => decide (n ≤ l + 1) && decide (l ≤ n + 1) | none => false)
    || (match s.clk.leapDue with | some l => decide (l ≤ n + 1) | none => false)

/-- The same of the current tick. -/
def State.leapAdj (s : State) : Bool := s.leapAdjAt s.now

/-- The start of a CORE cycle of the tick, in fine units (R115, R275): 614.4 of them a cycle. -/
def cycleFine (cyc : Nat) : Nat := cyc * 3072 / 5

/-- A timestamp of the current tick; ESTIM where the fine time is not measured (R57, R58). -/
def State.stamp (s : State) (fine : Nat) (interp : Bool) : Stamp :=
  if s.clk.running then
    { tick := s.clk.count, fine := fine, interp := interp, estim := !interp, leapAdj := s.leapAdj, loc := s.isLocal }
  else { tick := 0, fine := 0, interp := false, estim := true, invalid := true, loc := s.isLocal }

/-- The timestamp of an instant that a command carries. -/
def State.stampOf (s : State) (i : Instant) : Stamp := s.stamp i.fine i.interp

/-- The timestamp of the current tick instant (FINE 0, ESTIM). -/
def State.tickStamp (s : State) : Stamp := s.stamp 0 false

/-- An instant of the tick in fine units since reset. -/
def State.instant (s : State) (fine : Nat) : Nat := s.clk.start + fine

/-- The instant of the next tick boundary, as the length of the tick stands (R60, R61). -/
def State.tickEnd (s : State) : Nat := s.clk.start + s.clk.tickLen

/-- The timestamp of an instant of the current tick or of the one before it (R57, R58). -/
def State.stampAt (s : State) (t : Nat) (interp : Bool) : Stamp :=
  if s.clk.start ≤ t ∨ !s.clk.running then s.stamp (t - s.clk.start) interp
  else
    { tick := s.clk.prevCount, fine := t + s.clk.prevLen - s.clk.start, interp := interp, estim := !interp
      leapAdj := s.leapAdjAt (s.now - 1), loc := s.clk.prevLocal }

/-- The timestamp of the last tick instant before the current one (FINE 0, ESTIM). -/
def State.prevStamp (s : State) : Stamp := s.stampAt (s.clk.start - s.clk.prevLen) false

/-- Word 0 of a timestamp (R57). -/
def Stamp.word0 (t : Stamp) : Word := BitVec.ofNat 36 t.tick

/-- Word 1 of a timestamp (R57). -/
def Stamp.word1 (t : Stamp) : Word :=
  BitVec.ofNat 36 ((t.tick / 2 ^ 36) % 2 ^ 12 * 2 ^ 24 + bit01 t.interp * 2 ^ 23 + bit01 t.estim * 2 ^ 22
    + bit01 t.leapAdj * 2 ^ 21 + bit01 t.loc * 2 ^ 20 + bit01 t.invalid * 2 ^ 19 + t.fine % 2 ^ 18)

/-- Timestamp `a` is earlier than `b` (R56). -/
def Stamp.before (a b : Stamp) : Bool :=
  let d := (b.tick + 2 ^ 48 - a.tick % 2 ^ 48) % 2 ^ 48
  if d = 0 then decide (a.fine < b.fine) else decide (d < 2 ^ 47)

/-! ### Events -/

/-- Event classes (R262). -/
def evChan : Nat := 0x1
@[inherit_doc evChan] def evPmu : Nat := 0x2
@[inherit_doc evChan] def evResp : Nat := 0x3
@[inherit_doc evChan] def evAe : Nat := 0x4
@[inherit_doc evChan] def evSrc : Nat := 0x5
@[inherit_doc evChan] def evRf : Nat := 0x6
@[inherit_doc evChan] def evTimer : Nat := 0x7
@[inherit_doc evChan] def evSeason : Nat := 0x8
@[inherit_doc evChan] def evRing : Nat := 0x9
@[inherit_doc evChan] def evUnit : Nat := 0xa
@[inherit_doc evChan] def evTemp : Nat := 0xb
@[inherit_doc evChan] def evFlag : Nat := 0xc
@[inherit_doc evChan] def evRule : Nat := 0xd
@[inherit_doc evChan] def evBank : Nat := 0xe

/-- An event of the current tick (R43). -/
def State.event (s : State) (cls idx kind : Nat) (st : Stamp) (info : Nat := 0) : State :=
  { s with rt := { s.rt with events :=
      s.rt.events ++ [{ cls := cls, idx := idx, kind := kind, tick := s.now, st := st, info := info }] } }

/-- An event of the tick in which its instant lies: the current one or the one before it (R43). -/
def State.eventAt (s : State) (cls idx kind t : Nat) (interp : Bool) (info : Nat := 0) : State :=
  s.updRt (fun r => { r with events := r.events ++ [{ cls := cls, idx := idx, kind := kind
                                                      tick := if s.clk.start ≤ t then s.now else s.now - 1
                                                      st := s.stampAt t interp, info := info }] })

/-- An event at the current tick instant. -/
def State.eventT (s : State) (cls idx kind : Nat) : State := s.event cls idx kind s.tickStamp

/-! ### What waits for a boundary -/

/-- The rank of a writer, highest first (R427). -/
def writerRank : Writer → Nat
  | .router _ => 0
  | .responder => 1
  | .rearm => 2
  | .seq _ => 3
  | .host _ => 4
  | .loader _ => 5

/-- Whether a later write of `new` displaces a pending one of `old` at the same point (R7, R427). -/
def writerPrevails (new old : Writer) : Bool :=
  match new, old with
  | .router m, .router n => decide (m ≤ n)
  | _, _ => decide (writerRank new ≤ writerRank old)

/-- The register whose value an effect brings into force. -/
def Eff.reg : Eff → Option Nat
  | .force a _ => some a
  | .bank b _ => some (A.BANK_MODE b)
  | _ => none

/-- Two staged effects that set the same thing, so that only one of them acts (R7). -/
def Eff.sameTarget (e f : Eff) : Bool := e.reg.isSome && e.reg == f.reg

/-- An effect staged for the boundary `due` (R45, R46), by the rules of R7 and R427. -/
def State.stage (s : State) (due : Nat) (who : Writer) (e : Eff) : State :=
  if s.staged.any (fun t => t.due == due && t.eff.sameTarget e && !writerPrevails who t.who) then s
  else s.updStaged (fun l => l.filter (fun t => !(t.due == due && t.eff.sameTarget e)) ++ [{ due := due, who := who, eff := e }])

/-- A value that the ledger has admitted for the next boundary (R78): no later write of that boundary replaces it. -/
def State.stageAdm (s : State) (who : Writer) (e : Eff) : State :=
  s.updStaged (fun l => l.filter (fun t => !(t.due == s.now + 1 && t.eff.sameTarget e)) ++ [{ due := s.now + 1, who := who, eff := e, adm := true }])

/-- The value of a register in force just before the boundary `due`, by what has been staged. -/
def State.effBefore (s : State) (a due : Nat) : Word :=
  s.staged.foldl (fun v t => match t.eff with
    | .force b w => if b = a ∧ t.due < due then w else v
    | _ => v) (s.eff a)

/-- An effect staged for the next boundary, by a device action. -/
def State.stageNext (s : State) (e : Eff) : State := s.stage (s.now + 1) (.router 0) e

/-- Effects staged for the next boundary that `p` accepts are withdrawn. -/
def State.unstage (s : State) (p : Eff → Bool) : State := s.updStaged (fun l => l.filter (fun t => !p t.eff))

/-- A timestamp that carries LOCAL was made in the current tick: the mark of its season (R67, R75). -/
def State.markLocal (s : State) (loc : Bool) : State :=
  if loc && s.sea.open_ then
    s.updSea (fun k => if k.due = 0 then { k with local_ := true } else { k with nextLocal := true })
  else s

/-- A leap or a slew in the current tick: the mark of its season (R67, R75). -/
def State.markLeap (s : State) : State :=
  s.updSea (fun k => if k.due = 0 then { k with leap := true } else { k with nextLeap := true })

/-- The next `n` free values (assumption 9): the counter moves on. -/
def State.freshN (s : State) (n : Nat) : State := { s with free := s.free + n }

/-- The next free value. -/
def State.fresh (s : State) : State := s.freshN 1

/-- The space of the RF registers is under a reload, or no longer (R373). -/
def State.setRfReload (s : State) (on : Bool) : State := { s with rfReload := on }

/-- The window's record of W1C bits set by events starts anew (R428). -/
def State.noSetBits (s : State) : State := { s with setBits := [] }

/-- Memory words of the addresses that `p` accepts are cleared to 0. -/
def State.memDrop (s : State) (p : Nat → Bool) : State := { s with mem := Tab.drop p s.mem }

/-- A command without effect in this state: the next state is the state (assumption 4). -/
def ok (s : State) : Host.Outcome State Fault Refusal := .next s

end Sys2Proof.Machine
end

