-- ==== Sys2Proof/Machine/Operands.lean ====
section
/-! DEFINITION. The operand forms of register writes: the codes of fields, and for every register the values whose write
is ignored in full. -/

namespace Sys2Proof.Machine

/-! ### Channel functions (R77) -/

/-- FUNC 0x0. -/
def fnOff : Nat := 0
/-- FUNC 0x1. -/
def fnPattern : Nat := 1
/-- FUNC 0x2. -/
def fnStatic : Nat := 2
/-- FUNC 0x3. -/
def fnLight : Nat := 3
/-- FUNC 0x4. -/
def fnDeep : Nat := 4
/-- FUNC 0x5. -/
def fnPmu : Nat := 5
/-- FUNC 0x6. -/
def fnAbus : Nat := 6

/-- A function that powers the comparator in active mode, given `CH_MODE` (R77). -/
def comparatorActive (mode : Word) : Bool :=
  let f := F.CH_MODE.FUNC.get mode
  f == fnPattern || f == fnStatic || ((f == fnPmu || f == fnAbus) && F.CH_MODE.CMP_ON.on mode)

/-- A vigil function (R107). -/
def isVigil (f : Nat) : Bool := f == fnLight || f == fnDeep

/-! ### Bank and sequencer states (R156, `BANK_MODE`) -/

/-- Bank OFF. -/
def bankOff : Nat := 0
/-- Bank SAFE. -/
def bankSafe : Nat := 1
/-- Bank ACTIVE. -/
def bankActive : Nat := 2

/-- Sequencer IDLE. -/
def sqIdle : Nat := 0
/-- Sequencer ARMED. -/
def sqArmed : Nat := 1
/-- Sequencer RUNNING. -/
def sqRunning : Nat := 2
/-- Sequencer WAITING. -/
def sqWaiting : Nat := 3
/-- Sequencer HALTED. -/
def sqHalted : Nat := 4
/-- Sequencer ERROR. -/
def sqError : Nat := 5
/-- Sequencer ABORTED. -/
def sqAborted : Nat := 6

/-- The power state of a bank in force (R18). -/
def State.bankState (s : State) (b : Nat) : Nat := s.fget (A.BANK_STATUS b) F.BANK_STATUS.STATE

/-- The state of a bank's sequencer (R156). -/
def State.seqState (s : State) (b : Nat) : Nat := s.fget (A.BANK_STATUS b) F.BANK_STATUS.SEQ

/-- The function of a channel in force (R80). -/
def State.funcEff (s : State) (c : Nat) : Nat := s.fget (A.CH_STATUS c) F.CH_STATUS.FUNC_EFF

/-- The sequencer is RUNNING or WAITING. -/
def State.seqLive (s : State) (b : Nat) : Bool := s.seqState b == sqRunning || s.seqState b == sqWaiting

/-! ### Writes that are ignored in full -/

/-- A channel INDEX of a selector: a channel, any of a bank, any of the unit (R262). -/
def chanIndexOk (i : Nat) : Bool := decide (i ≤ 780)

/-- A source selector whose class lists its index and kind (R262). -/
def selectorOk (x : Nat) : Bool :=
  let cls := x / 2 ^ 14 % 16
  let idx := x / 2 ^ 4 % 2 ^ 10
  let kind := x % 16
  if cls = evChan then chanIndexOk idx && decide (kind ≤ 14)
  else if cls = evPmu then chanIndexOk idx && decide (kind ≤ 2)
  else if cls = evResp then decide (idx < 12) && decide (kind ≤ 3)
  else if cls = evAe then decide (idx < 24) && decide (kind ≤ 3)
  else if cls = evSrc then decide (idx < 24) && decide (kind ≤ 1)
  else if cls = evRf then (decide (idx < 8) && decide (kind ≤ 4)) || (decide (idx = 8 ∨ idx = 9) && decide (kind ≤ 2))
  else if cls = evTimer then decide (idx < 4) && kind == 0
  else if cls = evSeason ∨ cls = 0 then idx == 0 && kind == 0
  else if cls = evRing then idx == 0
  else if cls = evUnit then idx == 0 && decide (kind ≤ 7)
  else if cls = evTemp then decide (idx < 8) && decide (kind ≤ 1)
  else if cls = evFlag then decide (idx < 12)
  else if cls = evRule then decide (idx < 64) && kind == 0
  else if cls = evBank then decide (idx < 12) && decide (kind ≤ 2)
  else false

/-- A lane source with its index (R276). -/
def laneOk (v : Word) : Bool :=
  let src := F.LANE_CTL.SRC.get v
  let i := F.LANE_CTL.INDEX.get v
  if src = 0 ∨ src = 7 then i == 0
  else if src ≤ 5 then decide (i < 768)
  else if src = 6 then decide (i < 24)
  else false

/-- `RESP_PINS` groups (R162). -/
def respPinsOk (v : Word) : Bool :=
  let ab := F.RESP_PINS.ABASE.get v
  let aw := F.RESP_PINS.AW.get v
  let db := F.RESP_PINS.DBASE.get v
  let dw := F.RESP_PINS.DW.get v
  let stb := F.RESP_PINS.STB.get v
  let q := F.RESP_PINS.QUAL.get v
  let within (x base w : Nat) : Bool := decide (base ≤ x) && decide (x < base + w)
  decide (ab + aw ≤ 64) && decide (db + dw ≤ 64) && stb != q
    && !within stb ab aw && !within stb db dw && !within q ab aw && !within q db dw

/-- `CAL_SCOPE`: the fields of its KIND, the others zero (R323). -/
def calScopeOk (v : Word) : Bool :=
  let kind := F.CAL_SCOPE.KIND.get v
  let bank := F.CAL_SCOPE.BANK.get v
  let cnt := F.CAL_SCOPE.COUNT.get v
  let str := F.CAL_SCOPE.STRIDE.get v
  let sel := F.CAL_SCOPE.SEL.get v
  if kind = 0 then decide (bank ≤ 11) && decide (0 < cnt) && decide (0 < str) && decide (sel + (cnt - 1) * str ≤ 63)
  else if kind = 1 then decide (bank ≤ 11) && cnt == 0 && str == 0 && sel == 0
  else if kind = 2 ∨ kind = 3 then bank == 0 && cnt == 0 && str == 0 && decide (sel < 24)
  else if kind = 4 then decide (bank ≤ 11) && cnt == 0 && str == 0 && decide (0 < sel)
  else if kind = 5 then bank == 0 && cnt == 0 && str == 0 && decide (sel < 8)
  else false

/-- `CAL_TSLOT`: slots that ascend by at least 5.0 °C (R333), in half degrees. -/
def tslotOk (v : Word) : Bool :=
  let t (f : Fld) : Int := twos 9 (f.get v)
  decide (t F.CAL_TSLOT.T0 + 10 ≤ t F.CAL_TSLOT.T1) && decide (t F.CAL_TSLOT.T1 + 10 ≤ t F.CAL_TSLOT.T2)
    && decide (t F.CAL_TSLOT.T2 + 10 ≤ t F.CAL_TSLOT.T3)

/-- The accepted values of a global register. -/
def acceptsGlobal (a : Nat) (v : Word) : Bool :=
  if a = A.POWER_CAP then decide (4 ≤ F.POWER_CAP.CAP.get v) && decide (F.POWER_CAP.CAP.get v ≤ 208)
  else if a = A.POWER_DIE_CAP 0 ∨ a = A.POWER_DIE_CAP 1 then
    decide (100 ≤ F.POWER_DIE_CAP.CAP_HI.get v) && decide (100 ≤ F.POWER_DIE_CAP.CAP_MID.get v)
      && decide (100 ≤ F.POWER_DIE_CAP.CAP_LO.get v)
  else if a = A.LEAP_CTL then
    decide (1 ≤ F.LEAP_CTL.MAX.get v) && decide (F.LEAP_CTL.MAX.get v ≤ 5) && decide (3 ≤ F.LEAP_CTL.THRESH.get v)
  else if a = A.EPACT then
    decide (-12288000 ≤ twos 25 (F.EPACT.EPACT.get v)) && decide (twos 25 (F.EPACT.EPACT.get v) ≤ 12288000)
  else if a = A.REF_DECLARE then
    let nv := F.REF_DECLARE.NV.get v
    nv == 0 || (decide (1000000000 ≤ nv) && decide (nv ≤ 5000000000))
  else true

/-- The accepted values of a bank register, by offset. -/
def acceptsBank (o : Nat) (v : Word) : Bool :=
  if o = 0x0 then F.BANK_MODE.REQ.get v != 3
  else if o = 0x2 then F.SEQ_START.COND.get v != 3
  else if o = 0xb then decide (3 ≤ F.VEC_PERIOD.P.get v)
  else if o = 0x10 ∨ o = 0x13 ∨ o = 0x16 ∨ o = 0x19 then F.ES_DRV.FMT.get v != 3
  else if o = 0x21 then respPinsOk v
  else if 0x30 ≤ o ∧ o < 0x38 then decide (F.PMC_CMD.NAVG.get v ≤ 20)
  else if 0x38 ≤ o ∧ o < 0x40 then
    let n := F.PMC_SCAN.COUNT.get v
    let t := F.PMC_SCAN.STRIDE.get v
    decide (0 < n) && decide (0 < t) && decide (F.PMC_SCAN.FIRST.get v + (n - 1) * t ≤ 63)
  else if o = 0x90 ∨ o = 0x98 then F.SRC_CTL.LIM.get v != 0 && F.SRC_CTL.RANGE.get v != 3
  else if o = 0x93 ∨ o = 0x9b then decide (F.SRC_WAVE.FIRST.get v ≤ F.SRC_WAVE.LAST.get v)
  else if o = 0x94 ∨ o = 0x9c then decide (F.SRC_PLAY.COND.get v ≤ 1)
  else if o = 0xa0 ∨ o = 0xd0 then F.AE_CTL.RANGE.get v != 3 && decide (F.AE_CTL.NAVG.get v ≤ 20)
  else true

/-- The accepted values of a channel register, by offset. -/
def acceptsChan (o : Nat) (v : Word) : Bool :=
  if o = 0x0 then decide (F.CH_MODE.FUNC.get v ≤ 6)
  else if o = 0x6 then
    let m := F.CH_FILTER.M.get v
    let n := F.CH_FILTER.N.get v
    decide (F.CH_FILTER.HYST.get v ≤ 5) && decide (1 ≤ m) && decide (m / 2 + 1 ≤ n) && decide (n ≤ m)
  else if o = 0x7 then decide (F.CH_LOAD.I_SINK.get v ≤ 4000) && decide (F.CH_LOAD.I_SRC.get v ≤ 4000)
  else if o = 0x20 then F.CH_PMU_CTL.FORCE.get v != 3 && decide (F.CH_PMU_CTL.RANGE.get v ≤ 4)
  else if o = 0x22 then decide (F.CH_PMU_VCLAMP.VCL.get v + 1311 ≤ F.CH_PMU_VCLAMP.VCH.get v)
  else if o = 0x23 then decide (328 ≤ F.CH_PMU_ICLAMP.MAG.get v)
  else true

/-- The accepted values of a router register, by offset. -/
def acceptsRouter (o : Nat) (v : Word) : Bool :=
  if o < 0x100 then
    if o % 4 = 0 then selectorOk (v.toNat / 2 ^ 18) && selectorOk (v.toNat % 2 ^ 18)
    else if o % 4 = 1 then decide (F.RULE_COND.LOGIC.get v ≤ 5)
    else if o % 4 = 2 then decide (F.RULE_ACT.OP.get v ≤ 0xa)
    else true
  else if 0x108 ≤ o ∧ o < 0x10c then F.RT_TMR.PERIOD.get v != 0
  else if 0x120 ≤ o ∧ o < 0x130 then laneOk v
  else true

/-- The accepted values of an RF register, by offset. -/
def acceptsRf (o : Nat) (v : Word) : Bool :=
  if o < 0x400 then
    let r := o % 0x80
    if r = 0x1 then decide (F.RF_LEVEL.LEVEL.get v ≤ 560)
    else if r = 0x5 then F.RF_TXCMD.MODE.get v != 3
    else if r = 0x6 then F.RF_TX_TIMEOUT.TICKS.get v != 0
    else if r = 0x7 then decide (240 ≤ F.RF_OOK.CHIP.get v)
    else if r = 0xc then
      decide (-20000 ≤ twos 16 (F.RF_RXCTL.OFS.get v)) && decide (twos 16 (F.RF_RXCTL.OFS.get v) ≤ 20000)
        && decide (F.RF_RXCTL.THRESH.get v ≤ 520)
    else true
  else if o < 0x500 then
    if o % 0x80 = 1 then decide (300000000 ≤ F.SYN_FREQ.FREQ.get v) && decide (F.SYN_FREQ.FREQ.get v ≤ 6000000000) else true
  else if o = 0x500 then F.COEX_CTL.WAIT.get v != 0
  else true

/-- The accepted values of a calibration register. -/
def acceptsCal (a : Nat) (v : Word) : Bool :=
  if a = A.CAL_CMD then F.CAL_CMD.PARTS.get v != 0
  else if a = A.CAL_SCOPE then calScopeOk v
  else if a = A.CAL_TOL then
    decide (1 ≤ F.CAL_TOL.TWIN.get v) && decide (F.CAL_TOL.TWIN.get v ≤ 40) && F.CAL_TOL.TOL.get v != 0
  else if a = A.CAL_SLEW then F.CAL_SLEW.STEP.get v != 0
  else if a = A.CAL_TSLOT then tslotOk v
  else if a = A.CAL_INFO then decide (F.CAL_INFO.ELEM.get v ≤ 919)
  else true

/-- The register takes a write of this value; otherwise the write is ignored in full. -/
def accepts (a : Nat) (v : Word) : Bool :=
  if a < 0x1000 then acceptsGlobal a v
  else if a < 0x1c00 then acceptsBank ((a - 0x1000) % 0x100) v
  else if a < 0x10000 then true
  else if a < 0x1c000 then acceptsChan ((a - 0x10000) % 0x40) v
  else if a < 0x20000 then true
  else if a < 0x21000 then acceptsRouter (a - 0x20000) v
  else if a < 0x22000 then acceptsRf (a - 0x21000) v
  else acceptsCal a v

/-! ### Places of an address -/

/-- What an address of the register space names (R419). -/
inductive Place where
  | global (a : Nat)
  | bankReg (b o : Nat)
  | chanReg (c o : Nat)
  | router (o : Nat)
  | rf (o : Nat)
  | cal (a : Nat)
  | store (i : Nat)
  | vmem (b line w : Nat)
  | resp (b i : Nat)
  | capt (e o : Nat)
  | none
  deriving DecidableEq, Repr

/-- The place of an address (R419). -/
def placeOf (a : Nat) : Place :=
  if a < 0x1000 then .global a
  else if a < 0x1c00 then .bankReg ((a - 0x1000) / 0x100) ((a - 0x1000) % 0x100)
  else if a < 0x10000 then .none
  else if a < 0x1c000 then .chanReg ((a - 0x10000) / 0x40) ((a - 0x10000) % 0x40)
  else if a < 0x20000 then .none
  else if a < 0x21000 then .router (a - 0x20000)
  else if a < 0x22000 then .rf (a - 0x21000)
  else if a < 0x23000 then .cal a
  else if a < 0x30000 then .none
  else if a < 0x40000 then .store (a - 0x30000)
  else if a < 0x1000000 then .none
  else if a < 0x2800000 then .vmem ((a - 0x1000000) / 0x200000) ((a - 0x1000000) % 0x200000 / 8) (a % 8)
  else if a < 0x3000000 then .none
  else if a < 0x300c000 then .resp ((a - 0x3000000) / 0x1000) (a % 0x1000)
  else if a < 0x4000000 then .none
  else if a < 0x5800000 then .capt ((a - 0x4000000) / 0x100000) (a % 0x100000)
  else .none

/-! ### The target of an address and its reload (R373, R427) -/

/-- The bank whose almanac segment an address belongs to. -/
def bankOfPlace : Place → Option Nat
  | .bankReg b _ => some b
  | .chanReg c _ => some (bankOf c)
  | .vmem b _ _ => some b
  | .resp b _ => some b
  | .capt e _ => some (e / 2)
  | _ => none

/-- The target that holds an address is under reload (R373). -/
def State.reloading (s : State) (a : Nat) : Bool :=
  match placeOf a with
  | .router _ => s.rt.reload
  | .rf _ => s.rfReload
  | p => match bankOfPlace p with
    | some b => (s.bk b).reload
    | none => false

/-- A write that a reload ignores sets `ALMANAC_STATUS.WR_IGN` (R373, R427); otherwise it is handled. -/
def State.gated (s : State) (a : Nat) (f : State → State) : State :=
  if s.reloading a then s.raiseF A.ALMANAC_STATUS F.ALMANAC_STATUS.WR_IGN else f s

/-! ### The bank analogue bus (R282, R325) -/

/-- The calibration engine uses the analogue bus of bank `b`: no channel of it is connected to a source or a digitizer. -/
def State.busUsed (s : State) (b : Nat) : Bool :=
  (s.cal.held ++ s.cal.kept).any (fun e => decide (768 ≤ e) && decide (e < 816) && (e - 768) / 2 % 12 == b)

/-! ### Acquisition engines (R233) -/

/-- `AE_CTLj` of engine `e`. -/
def aeCtl (e : Nat) : Nat := A.AE_CTL (e / 2) (e % 2)
/-- `AE_OFSj` of engine `e`. -/
def aeOfs (e : Nat) : Nat := A.AE_OFS (e / 2) (e % 2)
/-- `AE_STATUSj` of engine `e`. -/
def aeStat (e : Nat) : Nat := A.AE_STATUS (e / 2) (e % 2)
/-- `AE_TRIGj` of engine `e`. -/
def aeTrigReg (e : Nat) : Nat := A.AE_TRIG (e / 2) (e % 2)

/-- Engine OFF (R233). -/
def aeOff : Nat := 0
/-- Engine IDLE. -/
def aeIdle : Nat := 1
/-- Engine ARMED. -/
def aeArmed : Nat := 2
/-- Engine FILLING. -/
def aeFilling : Nat := 3
/-- Engine DEAD. -/
def aeDead : Nat := 4
/-- Engine WAIT_FREE. -/
def aeWaitFree : Nat := 5
/-- Engine DONE. -/
def aeDone : Nat := 6
/-- Engine CAL. -/
def aeCal : Nat := 7

/-- The state of an engine. -/
def State.aeState (s : State) (e : Nat) : Nat := s.fget (aeStat e) F.AE_STATUS.STATE

/-- The engine moves to a state. -/
def State.setAe (s : State) (e st : Nat) : State := s.fset (aeStat e) F.AE_STATUS.STATE st

/-! ### A write of a register with AT or AS fields (R6, R7, R46, R427) -/

/-- A value of this register due at the boundary prevails over a write of `who` (R7, R427). A value that the ledger has admitted
stands in no write's way: the write is handled as a new one (R78). -/
def State.outranked (s : State) (a due : Nat) (who : Writer) : Bool :=
  s.staged.any (fun t => t.due == due && !t.adm && t.eff.reg == some a && !writerPrevails who t.who)

/-- The register word with the writable fields of `v`. -/
def State.overlay (s : State) (a : Nat) (v : Word) : Word :=
  (s.rd a &&& ~~~(regInfo a).rw) ||| (v &&& (regInfo a).rw)

/-- A write of the register reaches CORE after the timed writes that are held: it hides their words from reads (R7). -/
def State.hideTimed (s : State) (a : Nat) : State :=
  if s.ring.timed.isEmpty then s
  else s.updRing (fun r => { r with timed := r.timed.map (fun t =>
    if t.addr ≤ a ∧ a < t.addr + t.words.length then { t with hid := (a - t.addr) :: t.hid } else t) })

/-- A register word as a read finds it (R7): a timed write that is held has reached CORE (R395, R396, assumption 71). -/
def State.timedView (s : State) (a : Nat) (v : Word) : Word :=
  let m := (regInfo a).rw &&& (regInfo a).delayed
  s.ring.timed.foldl (fun v t =>
    match t.words[a - t.addr]? with
    | some w =>
      if t.addr ≤ a ∧ !(t.lost ++ t.hid).contains (a - t.addr) ∧ accepts a w then (v &&& ~~~m) ||| (w &&& m) else v
    | none => v) v

/-- A write reaches CORE: the word reads back at once, and its value comes into force at the boundary of R46. -/
def State.writeAt (s : State) (a : Nat) (w : Wr) : State :=
  s.gated a (fun s =>
    if !accepts a w.val || s.outranked a (s.dueAt w.cyc) w.who then s
    else (s.wr a (s.overlay a w.val)).stage (s.dueAt w.cyc) w.who (.force a (s.overlay a w.val)))

end Sys2Proof.Machine
end

