-- ==== Sys2Proof/Machine/BsOps.lean ====
section
/-! DEFINITION. The words of the battery-backed store (R342 to R346, R350 to R352): the map, the check nibble, reading and
writing, and the service counters. -/

namespace Sys2Proof.Machine

/-! ### Map (R343, R346) -/

/-- `BS_SERIAL0`. -/
def bsSerial0 : Nat := 0x0
/-- `BS_SERIAL1`. -/
def bsSerial1 : Nat := 0x1
/-- `BS_COMMIT` (R347). -/
def bsCommit : Nat := 0x2
/-- `BS_ADDR` (R352). -/
def bsAddr : Nat := 0x3
/-- `BS_TSLOT` (R354). -/
def bsTslot : Nat := 0x4
/-- `BS_TSLOT_N` (R354). -/
def bsTslotN : Nat := 0x5
/-- Powered hours (R351). -/
def bsHours : Nat := 0x6
/-- Seasons (R351). -/
def bsSeasons : Nat := 0x8
/-- Wake events (R351). -/
def bsWakes : Nat := 0xa
/-- The timestamp words of slot Ts (R353). -/
def bsStamp (slot : Nat) : Nat := 0x10 + 4 * slot
/-- The record of season `k` (R353). -/
def bsRecord (k : Nat) : Nat := 0x20 + 16 * (k % 16)
/-- The epoch word of element E (R346). -/
def bsEpoch (e : Nat) : Nat := 0xa40 + 2 * e
/-- The slot-epoch word of element E (R346). -/
def bsSlotEpoch (e : Nat) : Nat := 0xa41 + 2 * e
/-- Scratch (R343). -/
def bsScratch (i : Nat) : Bool := decide (0x120 ≤ i) && decide (i < 0xa40)

/-! ### The check nibble (R344) -/

/-- The XOR of the nine nibbles of a word. -/
def nibbleXor (w : Word) : Nat :=
  (List.range 9).foldl (fun x i => x ^^^ (Fld.mk (4 * i) 4).get w) 0

/-- The check field. -/
def fldCheck : Fld := ⟨24, 4⟩

/-- The word passes its check. -/
def checkOk (w : Word) : Bool := nibbleXor w == 0xa

/-- The word with the check that makes the XOR 0xA. -/
def withCheck (w : Word) : Word :=
  let z := fldCheck.put w 0
  fldCheck.put z (nibbleXor z ^^^ 0xa)

/-! ### Fields of the checked words (R345 to R347, R352) -/

/-- The epoch of an entry, LAST of an epoch word, EPOCH of `BS_COMMIT`, and T3's epoch of a slot-epoch word. -/
def fldEpoch : Fld := ⟨28, 8⟩
/-- PEND of an epoch word; OPEN of `BS_COMMIT`. -/
def fldPend : Fld := ⟨23, 1⟩
/-- VALID of an epoch word. -/
def fldValid : Fld := ⟨16, 4⟩
/-- COMMITS of `BS_COMMIT`. -/
def fldCommits : Fld := ⟨0, 23⟩
/-- The value of an entry. -/
def fldEntry : Fld := ⟨0, 24⟩
/-- The epoch of slot Ts in a slot-epoch word. -/
def fldSlotEpoch (slot : Nat) : Fld := if slot = 3 then fldEpoch else ⟨8 * slot, 8⟩
/-- VALID of `BS_ADDR`. -/
def fldAddrValid : Fld := ⟨6, 1⟩
/-- ADDR of `BS_ADDR`. -/
def fldAddr : Fld := ⟨0, 6⟩
/-- The layout version of `BS_SERIAL1`. -/
def fldLayout : Fld := ⟨28, 8⟩

/-! ### Content -/

/-- `BS_TSLOT` as R351 writes it: 50, 90, 130 and 170 half-degrees. -/
def tslotDflt : Word :=
  F.CAL_TSLOT.T3.put (F.CAL_TSLOT.T2.put (F.CAL_TSLOT.T1.put (F.CAL_TSLOT.T0.put 0 50) 90) 130) 170

/-- What an unlisted word of a store reads as that has kept its content: that of delivery (assumption 6), or after a loss what
R351 writes. -/
def storeKept (reinit : Bool) (i : Nat) : Word :=
  if i = bsSerial1 then fldLayout.put 0 1
  else if i = bsCommit ∨ i = bsAddr then withCheck 0
  else if i = bsTslot then tslotDflt
  else if i = bsTslotN then ~~~tslotDflt
  else if i = 0x7 ∨ i = 0x9 ∨ i = 0xb then ~~~(0 : Word)
  else if 0xa40 ≤ i ∧ i < 0x1170 then
    if i % 2 = 0 then withCheck (if reinit then fldPend.put 0 1 else fldValid.put 0 0xf)
    else if reinit then 0 else withCheck 0
  else if 0x1170 ≤ i ∧ i < 0x10000 ∧ !reinit then withCheck 0
  else 0

/-- What an unlisted word of the store reads as (R342, R351). -/
def storeDflt : StoreFill → Nat → Word
  | .delivered, i => storeKept false i
  | .reinit, i => storeKept true i
  | .lost base, i => Config.freeStore (base + i)

/-- A word of the store. -/
def State.bsRd (s : State) (i : Nat) : Word := Tab.get (storeDflt s.bsFill) s.bs i

/-- A word of the store replaced, whole (R342). -/
def State.bsPut (s : State) (i : Nat) (v : Word) : State := { s with bs := Tab.set (storeDflt s.bsFill) s.bs i v }

/-- The store takes no more writes (R350). -/
def State.bsFailed (s : State) : Bool := s.fon A.BS_STATUS F.BS_STATUS.FAILED

/-- A write by the device, which a failed store does not take (R350). -/
def State.bsWr (s : State) (i : Nat) (v : Word) : State := if s.bsFailed then s else s.bsPut i v

/-- A write of a checked word by the device (R344). -/
def State.bsWrC (s : State) (i : Nat) (v : Word) : State := s.bsWr i (withCheck v)

/-- The write of word `i` was read back wrong (R350, R409): the word holds a free value. -/
def State.bsFail (s : State) (i : Nat) : State :=
  if s.bsFailed then s
  else
    (((s.bsPut i (Config.freeStore s.free)).fresh).fset A.BS_STATUS F.BS_STATUS.FAILED 1).raiseF A.FAULT_STATUS
      F.FAULT_STATUS.STORE

/-- A service counter written: the value word first, then its complement (R352). -/
def State.bsCounter (s : State) (i v : Nat) : State :=
  let w := BitVec.ofNat 36 (min v (2 ^ 36 - 1))
  (s.bsWr i w).bsWr (i + 1) (~~~w)

/-- A service counter raised by `n`, saturating (R351). -/
def State.bsCount (s : State) (i n : Nat) : State := s.bsCounter i ((s.bsRd i).toNat + n)

/-- The serial of `UNIT_ID0` and `UNIT_ID1`. -/
def State.serial (s : State) : Nat := (s.rd A.UNIT_ID0).toNat + 2 ^ 36 * s.fget A.UNIT_ID1 F.UNIT_ID1.SERIAL_HI

/-- The store's content gives way to another (R342, R351). -/
def State.bsRefill (s : State) (f : StoreFill) : State := { s with bs := [], bsFill := f }

/-- With neither VAON nor VBAK the store keeps nothing (R342): every word holds a free value. -/
def State.bsRetain (s : State) : State :=
  if s.unit.vaon || s.unit.vbak then s else (s.bsRefill (.lost s.free)).freshN 65536

/-- The content after a loss (R351). -/
def State.bsReinit (s : State) : State :=
  let s := s.bsRefill .reinit
  (s.bsPut bsSerial0 (BitVec.ofNat 36 s.serial)).bsPut bsSerial1
    (fldLayout.put (BitVec.ofNat 36 (s.serial / 2 ^ 36)) 1)

end Sys2Proof.Machine
end

