-- ==== Sys2Proof/Machine/Ledger.lean ====
section
/-! DEFINITION. The power ledger (R32 to R42, R48, R49, R457, R458, segment lists of R370): charges, requests, releases and
the admission of phase 4. -/

namespace Sys2Proof.Machine

/-! ### Charges -/

/-- The pin die an item belongs to; none for RF items and the unit base (R33). -/
def itemDie : Item → Option Nat
  | .pll d => some d
  | .bankBase b => some (dieOfBank b)
  | .chan c => some (dieOf c)
  | .vigil c => some (dieOf c)
  | .pmu c => some (dieOf c)
  | .pmc n => some (n / 16)
  | .src n => some (n / 4)
  | .ae e => some (e / 4)
  | .calEl e => if e < 768 then some (dieOf e) else none
  | _ => none

/-- The amount committed for an item. -/
def committedOf (l : List Charge) (i : Item) : Nat :=
  match l.find? (fun p => p.1 == i) with
  | some p => p.2
  | none => 0

/-- The committed total. -/
def totalOf (l : List Charge) : Nat := (l.map (·.2)).sum

/-- The part of the total that belongs to pin die `d` (R33). -/
def dieTotalOf (l : List Charge) (d : Nat) : Nat := ((l.filter (fun p => itemDie p.1 == some d)).map (·.2)).sum

/-- Commit an item at an amount, if that is more than what it carries (R458). -/
def commitItem (l : List Charge) (p : Charge) : List Charge :=
  if p.2 ≤ committedOf l p.1 then l else l.filter (fun q => q.1 != p.1) ++ [p]

/-- The power state that bank `b` has from the next boundary on, as far as it is decided (R155). -/
def State.bankNext (s : State) (b : Nat) : Nat :=
  s.staged.foldl (fun st t => match t.eff with
    | .bank c req =>
      if c != b || decide (s.now + 1 < t.due) then st
      else if req = bankActive ∧ !s.fon A.CLK_STATUS (F.CLK_STATUS.CONV_LOCK.bit (dieOfBank b)) then max bankSafe (s.bankState b)
      else req
    | _ => st) (s.bankState b)

/-- The target of a reload that an address belongs to: 0 to 11 a bank, 12 the router, 13 RF (R364, R372). -/
def reloadTarget (a : Nat) : Option Nat :=
  match placeOf a with
  | .router _ => some 12
  | .rf _ => some 13
  | p => bankOfPlace p

/-- The value of a register for a charge: in force, or what a committed reload brings into force (R374). -/
def State.effSoon (s : State) (a : Nat) : Word :=
  if s.alm.commit && s.alm.busy.isSome && reloadTarget a == s.alm.busy then Tab.get resetWord s.alm.fill a else s.eff a

/-- The function that a channel has with `CH_MODE` = `v`, as far as its bank's next power state and its calibration allow it
(R77, R80). -/
def State.funcNext (s : State) (c : Nat) (v : Word) : Nat :=
  let f := F.CH_MODE.FUNC.get v
  let st := s.bankNext (bankOf c)
  if s.fon (A.CH_STATUS c) F.CH_STATUS.UNCAL || st == bankOff || (st != bankActive && !isVigil f) then fnOff else f

/-- The charge of a channel's function, were `CH_MODE` to hold `v` (R77, R457). -/
def State.funcItems (s : State) (c : Nat) (v : Word) : List Charge :=
  let f := s.funcNext c v
  let b := bankOf c
  let cmp : List Charge := if F.CH_MODE.CMP_ON.on v then [(.chan c, Config.vecCharge 48)] else []
  if f = fnLight then [(.vigil c, Config.vigilCharge)]
  else if f = fnPattern then [(.chan c, Config.vecCharge (F.VEC_PERIOD.P.get (s.effSoon (A.VEC_PERIOD b))))]
  else if f = fnStatic then [(.chan c, Config.vecCharge 48)]
  else if f = fnPmu then
    let ctl := s.effSoon (A.CH_PMU_CTL c)
    cmp ++ (if F.CH_PMU_CTL.FORCE.get ctl = 0 then [] else [(.pmu c, Config.pmuCharge (F.CH_PMU_CTL.RANGE.get ctl))])
  else if f = fnAbus then cmp
  else []

/-- The RF die base, charged while any port or synthesiser is enabled (R32, R288). -/
def rfBaseItem : Charge := (.rfBase, Config.rfBase)

/-- The synthesiser that feeds a port, in force (R287). -/
def State.synOf (s : State) (p : Nat) : Nat := F.RF_CTL.SYN.get (s.effSoon (A.RF_CTL p))

/-- The charges of holding one element of a calibration group (R325), element numbers of R315. -/
def State.calItems (s : State) (e : Nat) : List Charge :=
  if e < 768 then [(.calEl e, Config.calChanCharge)]
  else if e < 792 then [(.src (e - 768), Config.srcCharge), (.ae (e - 768), Config.aeCharge)]
  else if e < 816 then [(.ae (e - 792), Config.aeCharge)]
  else if e < 912 then [(.pmc (e - 816), Config.pmcCharge)]
  else
    let p := e - 912
    let have_ := committedOf s.led.committed .rfBase + committedOf s.led.committed (.rx p)
      + committedOf s.led.committed (.tx p)
    [(.calEl e, Config.calPortCharge - have_)]

/-- The charges of a bank's move to SAFE or ACTIVE (R32). -/
def bankItems (b req : Nat) : List Charge :=
  if req = bankOff then []
  else [(.pll (dieOfBank b), Config.pllCharge), (.bankBase b, Config.bankCharge)]

/-- The items that an effect charges (R32, R186, R288). -/
def State.effItems (s : State) : Eff → List Charge
  | .bank b req => bankItems b req
  | .pmcBegin n => [(.pmc n, Config.pmcCharge)]
  | .srcOn n => [(.src n, Config.srcCharge)]
  | .aeOn e => [(.ae e, Config.aeCharge)]
  | .txAdm p => [rfBaseItem, (.syn (s.synOf p), Config.synCharge), (.tx p, Config.txCharge)]
  | .rxOn p => [rfBaseItem, (.syn (s.synOf p), Config.synCharge), (.rx p, Config.rxCharge)]
  | .synBegin y => [rfBaseItem, (.syn y, Config.synCharge)]
  | .calHold els => (els.map s.calItems).flatten
  | .force a v =>
    match placeOf a with
    | .chanReg c 0x0 => s.funcItems c v
    | .chanReg c 0x20 =>
      -- FI goes on through its ramp to 0 A, in the range of this write (R188, R189)
      if s.funcEff c = fnPmu ∧ (F.CH_PMU_CTL.FORCE.get v ≠ 0 ∨ s.fget (A.CH_PMU_STATUS c) F.CH_PMU_STATUS.FORCE_EFF = 2) then
        [(.pmu c, Config.pmuCharge (F.CH_PMU_CTL.RANGE.get v))] else []
    | .bankReg b 0xb =>
      ((bankChans b).filter (fun c => s.funcEff c == fnPattern)).map
        (fun c => (.chan c, Config.vecCharge (F.VEC_PERIOD.P.get v)))
    | .rf o =>
      if 0x400 ≤ o ∧ o < 0x500 ∧ o % 0x80 = 0 ∧ F.SYN_CTL.EN.on v then
        [rfBaseItem, (.syn ((o - 0x400) / 0x80), Config.synCharge)]
      else if o < 0x400 ∧ o % 0x80 = 0 ∧ (s.fon (A.RF_STATUS (o / 0x80)) F.RF_STATUS.RX_EFF ∨ (s.pt (o / 0x80)).rxWait) then
        [rfBaseItem, (.syn (F.RF_CTL.SYN.get v), Config.synCharge)]
      else []
    | _ => []
  | _ => []

/-- The unit with the register values that the effects of one request bring into force together (R151). -/
def State.withForces (s : State) (effs : List Eff) : State :=
  effs.foldl (fun s e => match e with
    | .force a v =>
      let s := s.setEff a v
      match placeOf a with
      | .chanReg c 0x0 => s.fset (A.CH_STATUS c) F.CH_STATUS.FUNC_EFF (s.funcNext c v)
      | _ => s
    | _ => s) s

/-- The items go out of the committed total. -/
def dropItems (l : List Charge) (items : List Item) : List Charge := l.filter (fun p => !items.contains p.1)

/-- What the ledger has committed but for the releases that the next phase 4 credits: their items are charged anew (R34, R35). -/
def State.carried (s : State) : List Charge := dropItems s.led.committed s.led.releases

/-- What the ledger would have committed after admitting the effects, all of which are in force together. -/
def State.withEffs (s : State) (effs : List Eff) : List Charge :=
  ((effs.map (s.withForces effs).effItems).flatten).foldl commitItem s.carried

/-- The charge of a request, computed afresh (R458). -/
def State.chargeOf (s : State) (effs : List Eff) : Nat := totalOf (s.withEffs effs) - totalOf s.carried

/-- The part of it that belongs to pin die `d`. -/
def State.diePart (s : State) (effs : List Eff) (d : Nat) : Nat :=
  dieTotalOf (s.withEffs effs) d - dieTotalOf s.carried d

/-- The cap in force, in mW (R34, `POWER_CAP`). -/
def State.cap (s : State) : Nat := s.eget A.POWER_CAP F.POWER_CAP.CAP * Config.capUnit

/-- The cap of a pin die in force, in mW (R33). -/
def State.dieCap (s : State) (d : Nat) : Nat :=
  let f := if d % 3 = 0 then F.POWER_DIE_CAP.CAP_LO else if d % 3 = 1 then F.POWER_DIE_CAP.CAP_MID else F.POWER_DIE_CAP.CAP_HI
  s.eget (A.POWER_DIE_CAP (d / 3)) f * 10

/-- The charge fits under the unit cap and every pin die's cap (R35). -/
def State.fits (s : State) (effs : List Eff) : Bool :=
  decide (totalOf (s.withEffs effs) ≤ s.cap)
    && (List.range 6).all (fun d => decide (dieTotalOf (s.withEffs effs) d ≤ s.dieCap d))

/-- The charge can never be admitted (R39). -/
def State.impossible (s : State) (effs : List Eff) : Bool :=
  decide (s.cap - Config.unitBase < s.chargeOf effs)
    || (List.range 6).any (fun d => decide (s.dieCap d < s.diePart effs d))

/-! ### Releases -/

/-- Items whose charge ends at a boundary that has been reached (R34, R35). An item credited ahead is not credited twice. -/
def State.release (s : State) (items : List Item) : State :=
  s.updLed (fun l => { l with releases := l.releases ++ items.filter (fun i => !l.credited.contains i) })

/-- An item's charge lowered to an amount (R34). -/
def State.lower (s : State) (i : Item) (mw : Nat) : State :=
  if committedOf s.led.committed i ≤ mw then s
  else s.updLed (fun l => { l with committed := l.committed.map (fun p => if p.1 == i then (i, mw) else p) })

/-! ### The queue -/

/-- The reserved entry of a requester, if it has one (R48). -/
def reservedEntry (cls : Cls) (idx : Nat) (key : ReqKey) : Option Nat :=
  match cls, key with
  | _, .list t => some (if t < 12 then t else 100 + t)
  | .seq, _ => some idx
  | .router, _ => some (16 + idx)
  | .cal, _ => some 99
  | .host, _ => none

/-- Requests in shared entries. -/
def State.sharedUsed (s : State) : Nat := (s.led.queue.filter (fun r => r.slot == .shared)).length

/-- The requester's reserved entry is free. -/
def State.reservedFree (s : State) (cls : Cls) (idx : Nat) (key : ReqKey) : Bool :=
  match reservedEntry cls idx key with
  | none => false
  | some e => !s.led.queue.any (fun r => r.slot == .reserved && reservedEntry r.cls r.idx r.key == some e)

/-- The entry that a new request takes (R48, R49): its requester's reserved entry, else a shared one, else none. -/
def State.slotFor (s : State) (cls : Cls) (idx : Nat) (key : ReqKey) : Slot :=
  if s.reservedFree cls idx key then .reserved
  else if s.sharedUsed < Config.ledgerShared then .shared
  else .held

/-- The effect is what requests of this key ask for. -/
def ReqKey.owns : ReqKey → Eff → Bool
  | .bank b, .bank c _ => b == c
  | .pmc n, .pmcBegin m => n == m
  | .src n, .srcOn m => n == m
  | .ae e, .aeOn f => e == f
  | .tx p, .txAdm q => p == q
  | .rx p, .rxOn q => p == q
  | .synCal y, .synBegin z => y == z
  | _, _ => false

/-- A waiting request is of this key, or is a rule's and has such a target among others (R48). -/
def Req.isFor (r : Req) (key : ReqKey) : Bool :=
  r.key == key || (match r.key with | .rule _ => r.effs.any key.owns | _ => false)

/-- A waiting request without what it asks for under this key, if anything is left of it. -/
def Req.without (r : Req) (key : ReqKey) : Option Req :=
  if r.key == key then none
  else match r.key with
    | .rule _ =>
      let e := r.effs.filter (fun x => !key.owns x)
      if e.isEmpty then none else some { r with effs := e }
    | _ => some r

/-- A waiting request of a key. -/
def State.hasReq (s : State) (key : ReqKey) : Bool := s.led.queue.any (fun r => r.isFor key)

/-- The waiting requests of a key leave the queue (R78, R186). -/
def State.withdraw (s : State) (key : ReqKey) : State :=
  s.updLed (fun l => { l with queue := l.queue.filterMap (fun r => r.without key) })

/-- Every waiting request that `p` accepts leaves the queue. -/
def State.withdrawIf (s : State) (p : Req → Bool) : State :=
  s.updLed (fun l => { l with queue := l.queue.filter (fun r => !p r) })

/-- A ring-host request finds the queue full (R48): the write that makes it is discarded. -/
def State.queueFull (s : State) (cls : Cls) (key : ReqKey) (effs : List Eff) : Bool :=
  cls == .host && decide (0 < s.chargeOf effs) && !s.led.queue.any (fun r => r.key == key) && decide (Config.ledgerShared ≤ s.sharedUsed)

/-- The key under which a request waits: all that a rule asks for is one request (R48). -/
def queueKey (key : ReqKey) (who : Writer) : ReqKey :=
  match who with | .router n => .rule n | _ => key

/-- A request joins the queue in the window that considers it, and replaces a waiting one of its key (R46, R48). -/
def State.enqueue (s : State) (key : ReqKey) (cls : Cls) (idx : Nat) (who : Writer) (cyc : Nat) (effs : List Eff) : State :=
  let k := queueKey key who
  let s := s.withdraw key
  s.updLed (fun l => { l with
    queue := l.queue ++ [{ id := l.nextId, key := k, cls := cls, idx := idx, who := who, effs := effs,
                           frm := if cyc ≤ 146 then s.now else s.now + 1, slot := s.slotFor cls idx k }]
    nextId := l.nextId + 1 })

/-- A request to the ledger (R34). With nothing to charge, its effects are staged at once for the boundary of R46. A request
of the same key replaces a waiting one; that of a rule merges into the rule's waiting request (R48). -/
def State.request (s : State) (key : ReqKey) (cls : Cls) (idx : Nat) (who : Writer) (cyc : Nat) (effs : List Eff) : State :=
  let k := queueKey key who
  if s.chargeOf effs = 0 then
    effs.foldl (fun s e => s.stage (s.dueAt cyc) who e) (s.withdraw key)
  else if k != key && s.led.queue.any (fun r => r.key == k) then
    s.updLed (fun l => { l with queue := l.queue.filterMap (fun r =>
      if r.key == k then some { r with effs := r.effs.filter (fun x => !key.owns x) ++ effs } else r.without key) })
  else s.enqueue key cls idx who cyc effs

/-- A segment list (R370): the items of a reload or of a bank's channels, in order; with a list under way they join it. -/
def State.requestList (s : State) (target : Nat) (items : List Eff) : State :=
  match items with
  | [] => s
  | e :: rest =>
    if s.hasReq (.list target) then
      s.updLed (fun l =>
        if l.lists.any (fun p => p.1 == target) then
          { l with lists := l.lists.map (fun p => if p.1 == target then (p.1, p.2 ++ items) else p) }
        else { l with lists := l.lists ++ [(target, items)] })
    else
      let cls := if target < 12 then Cls.seq else Cls.router
      let s := s.updLed (fun l => { l with
        queue := l.queue ++ [{ id := l.nextId, key := .list target, cls := cls,
                               idx := if target < 12 then target else 64, who := .loader target, effs := [e],
                               frm := s.now, slot := s.slotFor cls target (.list target) }]
        nextId := l.nextId + 1 })
      if rest.isEmpty then s else s.updLed (fun l => { l with lists := l.lists ++ [(target, rest)] })

/-! ### What a requester does (R37 to R39) -/

/-- `LEDGER_WAIT` of the converters that a request is for (R193). -/
def State.pmcFlags (s : State) (r : Req) (on : Bool) : State :=
  r.effs.foldl (fun s e => match e with
    | .pmcBegin n => s.fbit (A.PMC_STAT (n / 8) (n % 8)) F.PMC_STAT.LEDGER_WAIT on
    | _ => s) s

/-- The flags of a requester whose request waits (R37, R193). -/
def State.onRefuse (s : State) (r : Req) : State :=
  match r.key with
  | .wreg b => s.fbit (A.BANK_STATUS b) F.BANK_STATUS.LEDGER_WAIT true
  | _ => s.pmcFlags r true

/-- The address is a `CH_MODE`: of its writes, an admitted one is not replaced (R78). -/
def isChMode (a : Nat) : Bool := match placeOf a with | .chanReg _ 0 => true | _ => false

/-- The register values among effects that are `CH_MODE`. -/
def modesOf (effs : List Eff) : List Nat := (effs.filterMap Eff.reg).filter isChMode

/-- What a requester does once its request has been admitted: a WREG line goes on to its commit (R151). -/
def State.onAdmit (s : State) (r : Req) : State :=
  match r.key with
  | .wreg b => s.updBk b (fun k => { k with wregReady := true, wregAdm := modesOf r.effs })
  | _ => s.pmcFlags r false

/-- What becomes of a rejected effect (R39): the host's or router's write leaves no trace, a transmit is dropped, a
calibration step is not run. -/
def State.rejectEff (s : State) : Eff → State
  | .force a _ =>
    let s := s.wr a (s.eff a)
    match placeOf a with
    | .chanReg c 0x0 => s.fbit (A.CH_STATUS c) F.CH_STATUS.MODE_PEND false
    | .chanReg c 0x20 => s.fbit (A.CH_PMU_STATUS c) F.CH_PMU_STATUS.CTL_PEND false
    | _ => s
  | .bank b _ => (s.wr (A.BANK_MODE b) (s.eff (A.BANK_MODE b))).fbit (A.BANK_STATUS b) F.BANK_STATUS.MODE_PEND false
  | .srcOn n => (s.fsetBoth (A.SRC_CTL (n / 2) (n % 2)) F.SRC_CTL.EN 0).fbit (A.SRC_STATUS (n / 2) (n % 2)) F.SRC_STATUS.EN_PEND false
  | .aeOn e => (s.fsetBoth (A.AE_CTL (e / 2) (e % 2)) F.AE_CTL.EN 0).fbit (A.AE_STATUS (e / 2) (e % 2)) F.AE_STATUS.EN_PEND false
  | .txAdm p => s.stageNext (.txDrop p 3)
  | .rxOn p => s.fsetBoth (A.RF_RXCTL p) F.RF_RXCTL.EN 0
  | .synBegin y => s.stageNext (.synEnd y)
  | .calHold _ => s.stageNext .calNotRun
  | .pmcBegin n =>
    ((s.updPm n (fun _ => {})).wr (A.PMC_STAT (n / 8) (n % 8))
        (F.PMC_STAT.LEDGER_WAIT.put (F.PMC_STAT.BUSY.put (s.rd (A.PMC_STAT (n / 8) (n % 8))) 0) 0)).updRt
      (fun r => { r with grants := r.grants.filter (fun g => g.1 != .pmc n) })
  | _ => s

/-- A sequencer's writes wait with its request: they read back, and their flags say that they are pending (R7, R78, R151). -/
def State.askEff (s : State) : Eff → State
  | .force a v =>
    let s := s.wr a v
    match placeOf a with
    | .chanReg c 0x0 => s.fbit (A.CH_STATUS c) F.CH_STATUS.MODE_PEND true
    | .chanReg c 0x20 => s.fbit (A.CH_PMU_STATUS c) F.CH_PMU_STATUS.CTL_PEND true
    | _ => s
  | .srcOn n => s.fbit (A.SRC_STATUS (n / 2) (n % 2)) F.SRC_STATUS.EN_PEND true
  | .aeOn e => s.fbit (A.AE_STATUS (e / 2) (e % 2)) F.AE_STATUS.EN_PEND true
  | _ => s

/-- The waiting request of a bank's sequencer ends with what its line asked for. -/
def State.withdrawWreg (s : State) (b : Nat) : State :=
  ((s.led.queue.filter (fun r => r.key == .wreg b)).map (·.effs)).flatten.foldl State.rejectEff (s.withdraw (.wreg b))

/-- A rejected request: its effects, and for a WREG line the error halt of R151 in their place. -/
def State.onReject (s : State) (r : Req) : State :=
  match r.key with
  | .wreg b =>
    ((r.effs.foldl State.rejectEff s).fbit (A.BANK_STATUS b) F.BANK_STATUS.LEDGER_WAIT false).stageNext (.errHalt b 9)
  | _ => r.effs.foldl State.rejectEff s

/-! ### Phase 4 (R35) -/

/-- A request has waited 64 ticks: from now on it is aged (R36). -/
def State.ageRequest (s : State) (id : Nat) : State :=
  s.updLed (fun l => { l with queue := l.queue.map (fun r =>
    if r.id = id ∧ Config.agedTicks ≤ r.age then { r with aged := true } else r) })

/-- An admitted effect, staged for the boundary that ends the window (R78). -/
def State.stageAdmitted (s : State) (who : Writer) (e : Eff) : State :=
  match e with
  | .force a _ => if isChMode a then s.stageAdm who e else s.stage (s.now + 1) who e
  | _ => s.stage (s.now + 1) who e

/-- The effects of an admitted request, staged for the boundary that ends the window; the writes of a WREG line are committed
by their own command. -/
def State.admitReq (s : State) (r : Req) : State :=
  let s := s.updLed (fun l => { l with committed := s.withEffs r.effs, queue := l.queue.filter (fun q => q.id != r.id) })
  let s := s.onAdmit r
  match r.key with
  | .wreg _ => s
  | _ => r.effs.foldl (fun s e => s.stageAdmitted r.who e) s

/-- One request considered: admitted, refused or rejected. -/
def State.considerOne (s : State) (blocked : Bool) (r : Req) : State × Bool × Bool :=
  if s.impossible r.effs then
    let s := s.updLed (fun l => { l with queue := l.queue.filter (fun q => q.id != r.id), winImp := l.winImp + 1 })
    ((s.onReject r).eventT evUnit 0 3, blocked, true)
  else if s.chargeOf r.effs = 0 ∨ (!blocked ∧ s.fits r.effs) then (s.admitReq r, blocked, true)
  else
    let s1 := if r.counted then s
      else (s.updLed (fun l => { l with
        winRef := l.winRef + 1
        queue := l.queue.map (fun q => if q.id = r.id then { q with counted := true } else q) })).eventT evUnit 0 2
    (s1.onRefuse r, blocked || r.aged, false)

/-- The items of a segment list after its head has left the queue, until one is refused (R370). -/
def State.considerList (s : State) (blocked : Bool) (r : Req) : List Eff → State × Bool
  | [] => (s.updLed (fun l => { l with lists := l.lists.filter (fun p => ReqKey.list p.1 != r.key) }), blocked)
  | e :: rest =>
    let q : Req := { r with id := s.led.nextId, effs := [e], age := 0, aged := false, counted := false, frm := s.now }
    let s := s.updLed (fun l => { l with
      queue := l.queue ++ [q]
      nextId := l.nextId + 1
      lists := l.lists.map (fun p => if ReqKey.list p.1 == r.key then (p.1, rest) else p) })
    let (s, blocked, gone) := s.considerOne blocked q
    if gone then s.considerList blocked r rest else (s, blocked)

/-- One request considered, and the list behind it. -/
def State.consider (p : State × Bool) (r : Req) : State × Bool :=
  if p.1.led.queue.any (fun q => q.id = r.id) then
    let (s, blocked, gone) := p.1.considerOne p.2 r
    match r.key with
    | .list t =>
      if gone then s.considerList blocked r ((s.led.lists.filter (fun q => q.1 == t)).map (·.2)).flatten else (s, blocked)
    | _ => (s, blocked)
  else p

/-- Order of two requests that are not aged (R35 step 3). -/
def Req.le (a b : Req) : Bool :=
  let k (r : Req) : Nat := match r.cls with | .seq => 0 | .router => 1 | .cal => 2 | .host => 3
  if k a ≠ k b then decide (k a < k b) else if a.idx ≠ b.idx then decide (a.idx < b.idx) else decide (a.id ≤ b.id)

/-- Insert into an ordered list. -/
def insertBy {α : Type} (le : α → α → Bool) (x : α) : List α → List α
  | [] => [x]
  | y :: t => if le x y then x :: y :: t else y :: insertBy le x t

/-- A stable order of a list. -/
def sortBy {α : Type} (le : α → α → Bool) (l : List α) : List α := l.foldr (insertBy le) []

/-- The order in which phase 4 considers the queue: aged requests oldest first, then by class, index and age (R35). -/
def considerOrder (q : List Req) : List Req :=
  sortBy (fun a b => decide (a.id ≤ b.id)) (q.filter (·.aged)) ++ sortBy Req.le (q.filter (fun r => !r.aged))

/-- A window in which a request is held back is counted once (R49). -/
def State.countHeld (s : State) : State :=
  if s.led.heldCounted || !s.led.queue.any (fun r => r.slot == .held) then s
  else (s.inc A.TICK_BUDGET F.TICK_BUDGET.HELD 1).updLed (fun l => { l with heldCounted := true })

/-- A held-back request has the flags of a waiting one (R49). -/
def State.flagHeld (s : State) : State :=
  (s.led.queue.filter (fun r => r.slot == .held && decide (r.frm ≤ s.now))).foldl State.onRefuse s

/-- Held-back requests take entries as these are free, oldest first (R49). -/
def State.placeHeld (s : State) : State :=
  let held := s.led.queue.filter (fun r => r.slot == .held)
  let s := s.countHeld
  held.foldl (fun s r => s.updLed (fun l => { l with queue := l.queue.map (fun q =>
    if q.id = r.id then { q with slot := s.slotFor r.cls r.idx r.key } else q) })) s

/-- The ledger's registers (R40). -/
def State.publishLedger (s : State) : State :=
  let tot := totalOf s.led.committed
  let cap := s.cap
  let tooMuch := decide (cap < tot)
  let s := s.wr A.POWER_LEDGER
    (F.POWER_LEDGER.OVERCAP.put (F.POWER_LEDGER.WAITING.put (F.POWER_LEDGER.COMMITTED.put
      (F.POWER_LEDGER.HEADROOM.put 0 (if tooMuch then 0 else cap - tot)) tot)
        (bit01 (s.led.queue.any (fun r => r.counted || r.slot == .held)))) (bit01 tooMuch))
  s.upTo 6 (fun s d =>
    let t := dieTotalOf s.led.committed d
    let f := if d % 3 = 0 then (F.POWER_DIE_USE.USE_LO, F.POWER_DIE_USE.OVER_LO)
      else if d % 3 = 1 then (F.POWER_DIE_USE.USE_MID, F.POWER_DIE_USE.OVER_MID)
      else (F.POWER_DIE_USE.USE_HI, F.POWER_DIE_USE.OVER_HI)
    (s.fset (A.POWER_DIE_USE (d / 3)) f.1 (min ((t + 19) / 20) 2047)).fbit (A.POWER_DIE_USE (d / 3)) f.2
      (decide (s.dieCap d < t)))

/-- Releases credited (R35): those of the boundary that began the tick, and of the next one those that CORE knows: items that
go, and items that `low` carries at a smaller amount. -/
def State.credit (s : State) (ahead : List Item) (low : List Charge) : State :=
  s.updLed (fun l => { l with
    committed := (dropItems l.committed (l.releases ++ ahead)).map (fun p =>
      match low.find? (fun q => q.1 == p.1) with
      | some q => (p.1, min p.2 q.2)
      | none => p)
    releases := [], credited := ahead })

/-- Phase 4 of a window (R35, R36) after the credits: requests are considered, age, and are published. -/
def State.phase4 (s : State) : State :=
  let s := (s.countHeld).flagHeld
  let order := considerOrder (s.led.queue.filter (fun r => decide (r.frm ≤ s.now) && r.slot != .held))
  let s := (order.foldl State.consider (s, false)).1
  (s.updLed (fun l => { l with queue := l.queue.map (fun r => { r with age := r.age + 1 }) })).publishLedger

/-- The ledger starts: the unit base, and the base and PLL of the banks given (R41). What waits in its queue is kept: the state
of the core die stands through deep vigil (R31, R127, assumption 54). -/
def State.startLedger (s : State) (banks : List Nat) : State :=
  (s.updLed (fun l => { l with
    committed := ((banks.map (fun b => bankItems b bankSafe)).flatten).foldl commitItem [(.unitBase, Config.unitBase)]
    releases := [], credited := [] })).publishLedger

end Sys2Proof.Machine
end

