-- ==== Sys2Proof/Machine/Pmu.lean ====
section
/-! DEFINITION. Per-pin parametric measurement (R181 to R202): forcing, ramps and ranges, the precision converters, their
results and summaries. -/

namespace Sys2Proof.Machine

/-! ### Requests of the arbiter -/

/-- The index of a requester in its class (R283). -/
def classIndex : Writer → Nat
  | .router n => n
  | .seq b => b
  | .host .a => 0
  | .host .b => 1
  | _ => 0

/-- The class of a writer (R35, R283): REARM and the responder act for a sequencer, the loader for the router. -/
def classOf : Writer → Cls
  | .router _ => .router
  | .seq _ => .seq
  | .rearm => .seq
  | .responder => .seq
  | .host _ => .host
  | .loader _ => .router

/-- The status register of converter `n`. -/
def pmcStat (n : Nat) : Nat := A.PMC_STAT (n / 8) (n % 8)

/-- `PMC_STATk.WAITING` follows the waiting requests of every class (R192). -/
def State.pmcWaiting (s : State) (n : Nat) : State :=
  s.fbit (pmcStat n) F.PMC_STAT.WAITING (s.rt.arbs.any (fun a => a.res == .pmc n))

/-- The requests that wait for a resource change. -/
def State.updArbs (s : State) (res : Res) (f : Router → Router) : State :=
  match res with
  | .pmc n => (s.updRt f).pmcWaiting n
  | _ => s.updRt f

/-- A request for a shared resource; a converter's request replaces the waiting one of its class (R192). -/
def State.arbRequest (s : State) (res : Res) (cls : Cls) (idx : Nat) (who : Writer) (frm : Nat) (tag : Nat := 0) : State :=
  s.updArbs res (fun r => { r with
    arbs := r.arbs.filter (fun a => !(a.res == res && a.cls == cls && a.tag == tag))
      ++ [{ id := r.nextId, res, cls, idx, frm, who, tag }]
    nextId := r.nextId + 1 })

/-- Requests for a resource withdrawn, of the classes that `p` accepts. -/
def State.arbWithdraw (s : State) (res : Res) (p : Cls → Bool) : State :=
  s.updArbs res (fun r => { r with arbs := r.arbs.filter (fun a => !(a.res == res && p a.cls)) })

/-! ### Converters: start, stop, restart -/

/-- The number of a class in `PMC_STATk.HOLDER`. -/
def clsCode : Cls → Nat
  | .seq => 0
  | .router => 1
  | .cal => 2
  | .host => 3

/-- The converter's EN bit is 1 in force, and it is not torn (R192, R349). -/
def State.pmcUsable (s : State) (b k : Nat) : Bool :=
  (s.eget (A.PMC_CTL b) F.PMC_CTL.EN).testBit k && !(s.fget (A.CAL_TORN_AN b) F.CAL_TORN_AN.PMC).testBit k

/-- GO of a converter in a class (R192); a converter of a bank under reload takes no request (R373). -/
def State.pmcGo (s : State) (b k : Nat) (who : Writer) (frm : Nat) : State :=
  let n := pmcOf b k
  if (s.bk b).reload then s
  else if !s.pmcUsable b k then s.raiseF (pmcStat n) F.PMC_STAT.IGN
  else s.arbRequest (.pmc n) (classOf who) (classIndex who) who frm

/-- The converter is free: no command holds it; its charge ends (R195). -/
def State.pmcFree (s : State) (n : Nat) : State :=
  let s := (s.updPm n (fun p => { p with holder := none, running := false, settle := none, i := 0 })).withdraw (.pmc n)
  ((s.release [.pmc n]).wr (pmcStat n)
    (F.PMC_STAT.LEDGER_WAIT.put (F.PMC_STAT.BUSY.put (s.rd (pmcStat n)) 0) 0)).unstage (fun e => e == .pmcBegin n)

/-- STOP of a converter (R196): the command ends without a result, waiting requests but the calibration engine's are
cancelled. -/
def State.pmcStop (s : State) (b k : Nat) : State :=
  let n := pmcOf b k
  (s.arbWithdraw (.pmc n) (· != .cal)).pmcFree n

/-- Every command and every waiting request of a bank's converters ends (R196). -/
def State.pmcBankStop (s : State) (b : Nat) : State :=
  s.upTo 8 (fun s k =>
    let n := pmcOf b k
    if (s.pm n).holder.isSome || s.rt.arbs.any (fun a => a.res == .pmc n) then
      (s.arbWithdraw (.pmc n) (fun _ => true)).pmcFree n
    else s)

/-- A granted and admitted command begins (R193, R194): it uses the values in force. -/
def State.pmcBegin (s : State) (n : Nat) : State :=
  let b := n / 8
  let k := n % 8
  let scan := s.eff (A.PMC_SCAN b k)
  let s := s.updPm n (fun p => { p with
    cmd := s.eff (A.PMC_CMD b k), scan := scan, i := 0, conn := s.now, settle := none, ramped := false, noconn := false
    running := true })
  s.wr (pmcStat n) (F.PMC_STAT.DONE.put (F.PMC_STAT.CH.put (s.rd (pmcStat n)) (F.PMC_SCAN.FIRST.get scan)) 0)

/-- The bank channel that a running converter measures (R194). -/
def pmcChannel (p : Pmc) : Nat := F.PMC_SCAN.FIRST.get p.scan + p.i * F.PMC_SCAN.STRIDE.get p.scan

/-- Ticks from the settle start to the last sample (R194). -/
def pmcSpan (cmd : Word) : Nat := 4 + F.PMC_CMD.SETTLE.get cmd + 4 * (2 ^ F.PMC_CMD.NAVG.get cmd - 1)

/-- The last sample of the running converter's channel has been taken, in a tick before this one (R194, R198). -/
def State.pmcSampled (s : State) (p : Pmc) : Bool :=
  match p.settle with
  | none => false
  | some t => decide (t + (if p.noconn then 0 else pmcSpan p.cmd) < s.now)

/-- A change on a channel restarts the converters that measure it (R197); `range` says that the change is one of RANGE_EFF,
which restarts MI alone. What changes at the boundary that connects the channel restarts nothing. -/
def State.pmcRestart (s : State) (c : Nat) (range : Bool) : State :=
  s.upTo 8 (fun s k =>
    let n := pmcOf (bankOf c) k
    let p := s.pm n
    if p.running && pmcChannel p == c % 64 && decide (p.conn < s.now) && !s.pmcSampled p
        && !(range && F.PMC_CMD.MEAS.on p.cmd) then
      (s.updPm n (fun p => { p with conn := s.now, settle := none, ramped := false, noconn := false })).inc
        (pmcStat n) F.PMC_STAT.RESTARTS 1
    else s)

/-- The channel of a converter is done: its result waits to be stored; the next channel follows, or the release and, with
REPEAT, a new request in the holder's class (R194, R195). -/
def State.pmcNext (s : State) (n : Nat) : State :=
  let p := s.pm n
  if p.i + 1 < F.PMC_SCAN.COUNT.get p.scan then
    let s := s.updPm n (fun p => { p with i := p.i + 1, conn := s.now, settle := none, ramped := false, noconn := false })
    s.wr (pmcStat n) (F.PMC_STAT.DONE.put (F.PMC_STAT.CH.put (s.rd (pmcStat n)) (pmcChannel (s.pm n))) (p.i + 1))
  else
    let s := (s.pmcFree n).fset (pmcStat n) F.PMC_STAT.DONE (p.i + 1)
    if F.PMC_CMD.REPEAT.on p.cmd then
      match p.holder with
      | some cls => s.arbRequest (.pmc n) cls (classIndex p.who) p.who s.now
      | none => s
    else s

/-- One converter at a tick boundary (R194, R197, R198): the next channel, the settle start, the samples. -/
def State.pmcTick (s : State) (n : Nat) : State :=
  let p := s.pm n
  -- the last sample was taken in the tick before: the next channel connects now
  let last := match p.settle with
    | none => false
    | some t => p.running && decide (s.now = t + (if p.noconn then 0 else pmcSpan p.cmd) + 1)
  let s := if last then s.pmcNext n else s
  let p := s.pm n
  if !p.running then s
  else
    let c := 64 * (n / 8) + pmcChannel p
    let ramp := s.fon (A.CH_PMU_STATUS c) F.CH_PMU_STATUS.RAMP
    let s := if p.settle.isNone && decide (p.conn ≤ s.now) && (!F.PMC_CMD.WAIT_RAMP.on p.cmd || !ramp) then
        let conn := s.funcEff c == fnPmu
          && (F.PMC_CMD.MEAS.on p.cmd || s.fget (A.CH_PMU_STATUS c) F.CH_PMU_STATUS.FORCE_EFF != 0)
        s.updPm n (fun p => { p with settle := some s.now, noconn := !conn })
      else s
    let p := s.pm n
    match p.settle with
    | none => s
    | some t =>
      let first := t + 4 + F.PMC_CMD.SETTLE.get p.cmd
      let atSample := !p.noconn && decide (first ≤ s.now) && decide ((s.now - first) % 4 = 0)
      let s := if atSample && ramp then s.updPm n (fun p => { p with ramped := true }) else s
      let p := s.pm n
      if s.now = t + (if p.noconn then 0 else pmcSpan p.cmd) then
        s.updPm n (fun p => { p with done := p.done ++ [{
          ch := c, tick := s.clk.count, noconn := p.noconn, ramped := p.ramped
          range := s.fget (A.CH_PMU_STATUS c) F.CH_PMU_STATUS.RANGE_EFF, meas := F.PMC_CMD.MEAS.on p.cmd
          navg := F.PMC_CMD.NAVG.get p.cmd, due := s.now + 4 }] })
      else s

/-! ### Results (R199 to R202) -/

/-- The voltage that an MV sample stands for, in units of 2⁻¹⁹ V (R191). -/
def mvLevel (x : Int) : Int := 3 * 2 ^ 19 + 5 * x

/-- The current that an MI sample of a range with full scale `fs` nA stands for, in 1/400,000 nA (R191). -/
def miCurrent (x fs : Int) : Int := x * fs

/-- A sample at the end of the code range is over-range (R191). -/
def overRange (x : Int) : Bool := decide (x ≤ -524288) || decide (524287 ≤ x)

/-- The mean of 2^n samples from their sum, in 1/65,536 of a sample step, halves to even (R199). -/
def pmcResult (sum : Int) (n : Nat) : Int :=
  if n ≤ 16 then sum * 2 ^ (16 - n)
  else
    let q : Int := 2 ^ (n - 16)
    let lo := sum / q
    let r := sum % q
    if 2 * r < q then lo else if q < 2 * r then lo + 1 else if lo % 2 = 0 then lo else lo + 1

/-- A result stored with its information word, its limit tests and its counts (R200 to R202). The events belong to the tick
before. -/
def State.pmcStore (s : State) (n : Nat) (d : PmcDone) (sum : Int) (ovr : Bool) : State :=
  let c := d.ch
  let res : Int := if d.noconn then 0 else pmcResult sum d.navg
  let ctl := s.eff (A.CH_PMU_CTL c)
  let lim (a : Nat) : Int := twos 36 (s.rd a).toNat
  let hi := !d.noconn && F.CH_PMU_CTL.LIM_HI_EN.on ctl && decide (lim (A.CH_PMU_LIMHI c) < res)
  let lo := !d.noconn && F.CH_PMU_CTL.LIM_LO_EN.on ctl && decide (res < lim (A.CH_PMU_LIMLO c))
  let info := F.CH_PMU_RESINFO.NEW.put (F.CH_PMU_RESINFO.NOCONN.put (F.CH_PMU_RESINFO.OVR.put
    (F.CH_PMU_RESINFO.RAMPED.put (F.CH_PMU_RESINFO.HI.put (F.CH_PMU_RESINFO.LO.put (F.CH_PMU_RESINFO.MEAS.put
      (F.CH_PMU_RESINFO.RANGE.put (F.CH_PMU_RESINFO.NAVG.put (F.CH_PMU_RESINFO.PMC.put (F.CH_PMU_RESINFO.TICK.put 0
        d.tick) (n % 8)) d.navg) d.range) (bit01 d.meas)) (bit01 lo)) (bit01 hi)) (bit01 d.ramped))
          (bit01 (ovr && !d.noconn))) (bit01 d.noconn)) 1
  let s := s.raiseIf (F.CH_PMU_RESINFO.NEW.on (s.ch c).pmuInfo) (A.CH_PMU_STATUS c) F.CH_PMU_STATUS.OVW
  let s := (s.wr (A.CH_PMU_RES c) (BitVec.ofInt 36 res)).updCh c (fun h => { h with pmuInfo := info })
  let s := s.cond (!d.noconn) (fun s => s.inc (A.CH_PMU_SUM c) F.CH_PMU_SUM.RESULTS 1)
  let note (s : State) (kind : Nat) : State :=
    s.updRt (fun r => { r with events := r.events ++ [{ cls := evPmu, idx := c, kind, tick := s.now - 1, st := s.prevStamp }] })
  let s := s.cond hi (fun s =>
    note ((s.raiseF (A.CH_PMU_STATUS c) F.CH_PMU_STATUS.LIM_HI).inc (A.CH_PMU_SUM c) F.CH_PMU_SUM.HI 1) 0)
  s.cond lo (fun s =>
    note ((s.raiseF (A.CH_PMU_STATUS c) F.CH_PMU_STATUS.LIM_LO).inc (A.CH_PMU_SUM c) F.CH_PMU_SUM.LO 1) 1)

/-! ### Forcing (R187 to R190) -/

/-- Full scale of a current range, in nA (R182). -/
def fullScale (r : Nat) : Int :=
  if r = 0 then 2000 else if r = 1 then 20000 else if r = 2 then 200000 else if r = 3 then 2000000 else 32000000

/-- The voltage of an FV code in units of 2⁻¹⁷ V (R183). -/
def fvLevel (code : Int) : Int := 20 * code - 262144

/-- The current of an FI code in a range, in 1/32,768 nA (R183). -/
def fiCurrent (code : Int) (range : Nat) : Int := code * fullScale range

/-- What a PMU forces. -/
inductive Forced where
  /-- Nothing. -/
  | nothing
  /-- A voltage in units of 2⁻¹⁷ V, with the current limited to plus or minus `limit`, in 1/32,768 nA. -/
  | voltage (v limit : Int)
  /-- A current in 1/32,768 nA, with the pin voltage limited to an interval, in units of 2⁻¹⁷ V. -/
  | current (i low high : Int)
  deriving DecidableEq, Repr

/-- What the PMU of a channel forces, and the clamp that limits it (R183, R184). -/
def State.forced (s : State) (c : Nat) : Forced :=
  let st := s.rd (A.CH_PMU_STATUS c)
  let range := F.CH_PMU_STATUS.RANGE_EFF.get st
  let v := (s.ch c).pmuVal
  if F.CH_PMU_STATUS.FORCE_EFF.get st = 1 then
    .voltage (fvLevel v) (fiCurrent (s.eget (A.CH_PMU_ICLAMP c) F.CH_PMU_ICLAMP.MAG) range)
  else if F.CH_PMU_STATUS.FORCE_EFF.get st = 2 then
    .current (fiCurrent v range) (fvLevel (s.eget (A.CH_PMU_VCLAMP c) F.CH_PMU_VCLAMP.VCL))
      (fvLevel (s.eget (A.CH_PMU_VCLAMP c) F.CH_PMU_VCLAMP.VCH))
  else .nothing

/-- An FI code of range `a` re-expressed in range `b`, rounded toward zero (R189). -/
def reRange (code : Int) (a b : Nat) : Int := Int.tdiv (code * fullScale a) (fullScale b)

/-- The target the forced value moves to: the smaller full scale before a switch, which comes first, 0 A before a release, else
the target in force (R187 to R189). -/
def State.pmuTarget (s : State) (c : Nat) : Int :=
  let set := s.eff (A.CH_PMU_SET c)
  let h := s.ch c
  if s.fget (A.CH_PMU_STATUS c) F.CH_PMU_STATUS.FORCE_EFF = 1 then (F.CH_PMU_SET.FV_CODE.get set : Int)
  else match h.pmuRange with
    | some r =>
      let cur := s.fget (A.CH_PMU_STATUS c) F.CH_PMU_STATUS.RANGE_EFF
      if 0 ≤ h.pmuVal then reRange 32768 r cur else -(reRange 32768 r cur)
    | none => if h.pmuRelease then 0 else twos 16 (F.CH_PMU_SET.FI_CODE.get set)

/-- The range charge follows the force and the range in force (R186). -/
def State.pmuCharge (s : State) (c : Nat) : State :=
  if s.fget (A.CH_PMU_STATUS c) F.CH_PMU_STATUS.FORCE_EFF = 0 then s.release [.pmu c]
  else s.lower (.pmu c) (Config.pmuCharge (s.fget (A.CH_PMU_STATUS c) F.CH_PMU_STATUS.RANGE_EFF))

/-- The force mode in force, with the restart of R197. -/
def State.setForce (s : State) (c mode : Nat) : State :=
  if s.fget (A.CH_PMU_STATUS c) F.CH_PMU_STATUS.FORCE_EFF = mode then s
  else ((s.fset (A.CH_PMU_STATUS c) F.CH_PMU_STATUS.FORCE_EFF mode).updCh c
    (fun h => { h with pmuOn := mode != 0 })).pmcRestart c false

/-- The range in force, with the restart of R197. -/
def State.setRange (s : State) (c r : Nat) : State :=
  if s.fget (A.CH_PMU_STATUS c) F.CH_PMU_STATUS.RANGE_EFF = r then s
  else (s.fset (A.CH_PMU_STATUS c) F.CH_PMU_STATUS.RANGE_EFF r).pmcRestart c true

/-- A range that waits for its ramp is switched in now (R189). -/
def State.pmuRangeNow (s : State) (c : Nat) : State :=
  match (s.ch c).pmuRange with
  | some r => s.setRange c r
  | none => s

/-- The force is released at once (R190, and FV to sense only). -/
def State.pmuRelease (s : State) (c : Nat) : State :=
  let s := ((s.pmuRangeNow c).setForce c 0).updCh c (fun h => { h with pmuOn := false, pmuRelease := false, pmuRange := none, pmuVal := 0 })
  (((s.fset (A.CH_PMU_STATUS c) F.CH_PMU_STATUS.RAMP 0).fset (A.CH_PMU_STATUS c) F.CH_PMU_STATUS.CLAMP 0).release [.pmu c])

/-- The monitor's readings of the tick before: pin voltage as FV code and current as FI code; a channel without a reading
reads free values (assumption 9). -/
def State.monitor (s : State) (mons : List Monitor) (c : Nat) : State × Int × Int :=
  match mons.find? (fun m => m.ch.val == c) with
  | some m => (s, (m.vCode : Int), m.iCode)
  | none => (s.fresh.fresh, Config.freeReading s.free, Config.freeReading (s.free + 1))

/-- The range change of R189. -/
def State.pmuRangeTo (s : State) (c r : Nat) : State :=
  let cur := s.fget (A.CH_PMU_STATUS c) F.CH_PMU_STATUS.RANGE_EFF
  let v := (s.ch c).pmuVal
  if r = cur then s.updCh c (fun h => { h with pmuRange := none })
  else if s.fget (A.CH_PMU_STATUS c) F.CH_PMU_STATUS.FORCE_EFF != 2 then s.setRange c r
  else if fullScale cur ≤ fullScale r ∨ (v * fullScale cur).natAbs ≤ (32768 * fullScale r).natAbs then
    (s.setRange c r).updCh c (fun h => { h with pmuVal := reRange v cur r, pmuRange := none })
  else s.updCh c (fun h => { h with pmuRange := some r })

/-- The force mode changes (R188); the monitor read the current in range `old`, and the starting value is in the range now
in force (R189). -/
def State.pmuForceTo (s : State) (mons : List Monitor) (c mode old : Nat) : State :=
  let cur := s.fget (A.CH_PMU_STATUS c) F.CH_PMU_STATUS.FORCE_EFF
  if mode = cur then s.updCh c (fun h => { h with pmuRelease := false })
  else if mode = 0 then
    if cur = 1 then s.pmuRelease c else s.updCh c (fun h => { h with pmuRelease := true })
  else
    let (s, v, i) := (s.pmuRangeNow c).monitor mons c
    let fs := fullScale (s.fget (A.CH_PMU_STATUS c) F.CH_PMU_STATUS.RANGE_EFF)
    let start : Int := if mode = 1 then v else if cur = 0 then 0
      else clampInt (-32768) 32767 (roundAway (i * fullScale old) fs.toNat)
    (s.setForce c mode).updCh c (fun h => { h with pmuVal := start, pmuRelease := false, pmuRange := none })

/-- `CH_PMU_CTL` comes into force (R186, R188, R189): the range first, then the force. -/
def State.applyPmuCtl (s : State) (mons : List Monitor) (c : Nat) (v : Word) : State :=
  let s := (s.setEff (A.CH_PMU_CTL c) v).fbit (A.CH_PMU_STATUS c) F.CH_PMU_STATUS.CTL_PEND
    (s.hasReq (.reg (A.CH_PMU_CTL c)))
  if s.funcEff c ≠ fnPmu then s.fset (A.CH_PMU_STATUS c) F.CH_PMU_STATUS.RANGE_EFF (F.CH_PMU_CTL.RANGE.get v)
  else ((s.pmuRangeTo c (F.CH_PMU_CTL.RANGE.get v)).pmuForceTo mons c (F.CH_PMU_CTL.FORCE.get v)
    (s.fget (A.CH_PMU_STATUS c) F.CH_PMU_STATUS.RANGE_EFF)).pmuCharge c

/-- FUNC_EFF becomes PMU: the unit connects, and a force in force starts as from sense only (R188). -/
def State.pmuConnect (s : State) (mons : List Monitor) (c : Nat) : State :=
  let ctl := s.eff (A.CH_PMU_CTL c)
  ((s.fset (A.CH_PMU_STATUS c) F.CH_PMU_STATUS.CONNECTED 1).fset (A.CH_PMU_STATUS c) F.CH_PMU_STATUS.RANGE_EFF
    (F.CH_PMU_CTL.RANGE.get ctl)).pmuForceTo mons c (F.CH_PMU_CTL.FORCE.get ctl)
      (F.CH_PMU_CTL.RANGE.get ctl)

/-- FUNC_EFF leaves PMU (R190, R197). -/
def State.pmuDisconnect (s : State) (c : Nat) : State :=
  ((s.pmuRelease c).fset (A.CH_PMU_STATUS c) F.CH_PMU_STATUS.CONNECTED 0).pmcRestart c false

/-- One step of the ramp, limited to `65,536 >> RAMP` codes (R187). -/
def stepToward (v target : Int) (lim : Nat) : Int := v + clampInt (-(lim : Int)) lim (target - v)

/-- A forcing channel at a tick boundary: a value that was reached is acted on, then one step toward the target
(R187 to R189). -/
def State.pmuTick (s : State) (c : Nat) : State :=
  let h := s.ch c
  if !h.pmuOn then s
  else
    let fi := s.fget (A.CH_PMU_STATUS c) F.CH_PMU_STATUS.FORCE_EFF == 2
    if fi && h.pmuRelease && h.pmuRange.isNone && h.pmuVal == 0 then s.pmuRelease c
    else
      let s := match h.pmuRange with
        | some r =>
          if fi && h.pmuVal == s.pmuTarget c then
            let cur := s.fget (A.CH_PMU_STATUS c) F.CH_PMU_STATUS.RANGE_EFF
            ((s.setRange c r).updCh c (fun h => { h with pmuVal := reRange h.pmuVal cur r, pmuRange := none })).pmuCharge c
          else s
        | none => s
      let t := s.pmuTarget c
      let v := (s.ch c).pmuVal
      if v = t then s.fset (A.CH_PMU_STATUS c) F.CH_PMU_STATUS.RAMP 0
      else
        let lim := 65536 / 2 ^ s.eget (A.CH_PMU_CTL c) F.CH_PMU_CTL.RAMP
        (s.updCh c (fun h => { h with pmuVal := stepToward v t lim })).fset (A.CH_PMU_STATUS c) F.CH_PMU_STATUS.RAMP 1

/-- `CH_PMU_STATUS.CLAMP` as of the tick that ended (R184): it clears where the monitor finds no clamp; a clamp that holds on
sets CLAMPED again. -/
def State.clampTick (s : State) (mons : List Monitor) : State :=
  mons.foldl (fun s m =>
    let a := A.CH_PMU_STATUS m.ch.val
    if !m.clamp then s.fset a F.CH_PMU_STATUS.CLAMP 0
    else s.raiseIf (s.fon a F.CH_PMU_STATUS.CLAMP) a F.CH_PMU_STATUS.CLAMPED) s

/-! ### The commands -/

/-- A write of `CH_PMU_CTL` reaches CORE (R181, R182, R186). -/
def State.writePmuCtl (s : State) (c : Nat) (w : Wr) : State :=
  let a := A.CH_PMU_CTL c
  let v := w.val &&& (regInfo a).rw
  let e : List Eff := [.force a v]
  s.gated a (fun s =>
    if !accepts a w.val then s
    else if s.queueFull (classOf w.who) (.reg a) e then s.inc A.TICK_BUDGET F.TICK_BUDGET.LEDGER_FULL 1
    else
      let pend := decide (0 < s.chargeOf e)
      ((s.wr a v).request (.reg a) (classOf w.who) (classIndex w.who) w.who w.cyc e).fbit
        (A.CH_PMU_STATUS c) F.CH_PMU_STATUS.CTL_PEND pend)

/-- PMU_CTL_WRITE (R181, R186). -/
def execPmuCtlWrite (c : Fin 768) (w : Wr) (s : State) : Host.Outcome State Fault Refusal := .next (s.writePmuCtl c w)

/-- CLAMP_ENTRY (R184, R201): a clamp takes hold of the output of a forcing PMU. -/
def execClampEntry (c : Fin 768) (i : Instant) (s : State) : Host.Outcome State Fault Refusal :=
  let a := A.CH_PMU_STATUS c.val
  if !(s.ch c).pmuOn || s.fon a F.CH_PMU_STATUS.CLAMP then ok s
  else .next (((s.fset a F.CH_PMU_STATUS.CLAMP 1).raiseF a F.CH_PMU_STATUS.CLAMPED).event evPmu c 2 (s.stampOf i))

/-- PMC_GO (R192). -/
def execPmcGo (b : Fin 12) (k : Fin 8) (who : Writer) (s : State) : Host.Outcome State Fault Refusal :=
  .next (s.pmcGo b k who s.now)

/-- PMC_STOP (R196). -/
def execPmcStop (b : Fin 12) (k : Fin 8) (s : State) : Host.Outcome State Fault Refusal := .next (s.pmcStop b k)

/-- A lower converter of the bank has a result of channel `c` to be stored in this window: it comes first (R200). -/
def State.pmcLower (s : State) (b k c : Nat) : Bool :=
  (List.range k).any (fun j => (s.pm (pmcOf b j)).done.any (fun d => d.ch == c && decide (d.due ≤ s.now)))

/-- PMC_RESULT (R200): the oldest measured channel of the converter is stored; none is due before tick s_i + 4, and results of
one channel are stored in ascending converter order. -/
def execPmcResult (b : Fin 12) (k : Fin 8) (sum : Int) (overRange : Bool) (s : State) :
    Host.Outcome State Fault Refusal :=
  let n := pmcOf b k
  match (s.pm n).done with
  | [] => ok s
  | d :: rest =>
    if s.now < d.due || s.pmcLower b k d.ch then ok s
    else .next ((s.updPm n (fun p => { p with done := rest })).pmcStore n d sum overRange)

/-- The read of `CH_PMU_RES` by a host: it latches the information word for that host and clears NEW (R200, R430). -/
def State.readPmuRes (s : State) (c : Nat) (h : Side) : State :=
  let info := (s.ch c).pmuInfo
  let a := A.CH_PMU_RESINFO c
  (s.latch h a info).updCh c (fun k => { k with pmuInfo := F.CH_PMU_RESINFO.NEW.put info 0 })

/-- CH_PMU_RES_READ (R200, R430). -/
def execChPmuResRead (c : Fin 768) (h : Side) (s : State) : Host.Outcome State Fault Refusal := .next (s.readPmuRes c h)

/-- PMC_STAT_READ (R429): RESTARTS clears. -/
def execPmcStatRead (b : Fin 12) (k : Fin 8) (s : State) : Host.Outcome State Fault Refusal :=
  .next (s.fset (A.PMC_STAT b k) F.PMC_STAT.RESTARTS 0)

end Sys2Proof.Machine
end

