-- ==== Sys2Proof/Machine/Channel.lean ====
section
/-! DEFINITION. The pin channel (R77 to R104): functions, drivers, the comparator, its start, the majority filter's events,
edge capture, latches and counts; the trigger lanes that follow it (R276, R277). -/

namespace Sys2Proof.Machine

/-! ### Trigger conditions (R245 to R248) -/

/-- The enable of a trigger condition. -/
def condEnabled (v : Word) (cond : Nat) : Bool :=
  if cond = 0 then F.AE_TRIG.LVL_EN.on v
  else if cond = 1 then F.AE_TRIG.LANEA_EN.on v
  else if cond = 2 then F.AE_TRIG.LANEB_EN.on v
  else F.AE_TRIG.TICK_EN.on v

/-- A condition of an engine is true or false from now on. -/
def State.condTo (s : State) (e cond : Nat) (on : Bool) : State :=
  if (s.en e).cond.getD cond false == on then s else s.updEn e (fun k => { k with cond := k.cond.set cond on })

/-- A false-to-true transition of a condition at an instant, still to be judged; one that is not enabled triggers nothing
(R248). -/
def State.condRise (s : State) (e cond t : Nat) (interp : Bool) : State :=
  s.cond (condEnabled (s.eff (aeTrigReg e)) cond && s.aeState e != aeOff && s.aeState e != aeCal) (fun s =>
    s.updEn e (fun k => { k with trans := k.trans ++ [(cond, t, interp)] }))

/-- A condition takes a state at an instant. -/
def State.condEdge (s : State) (e cond : Nat) (on : Bool) (t : Nat) (interp : Bool) : State :=
  let was := (s.en e).cond.getD cond false
  (s.condTo e cond on).cond (on && !was) (fun s => s.condRise e cond t interp)

/-! ### Trigger lanes (R247, R276 to R278) -/

/-- One of the fields that run self-test is non-zero (R103). -/
def selfTestSet (v : Word) : Bool :=
  F.CH_SELFTEST.TIE.get v != 0 || F.CH_SELFTEST.SWAP_IN.on v || F.CH_SELFTEST.SWAP_TH.on v || F.CH_SELFTEST.PAIR_OVR.on v

/-- The continuous path of a channel reaches its consumers (R92, R98). -/
def State.live (s : State) (c : Nat) : Bool :=
  (s.ch c).active && !s.fon (A.CH_STATUS c) F.CH_STATUS.INBAND_START
    && (!s.fon (A.CH_STATUS c) F.CH_STATUS.TEST || F.CH_SELFTEST.LIVE.on (s.eff (A.CH_SELFTEST c)))

/-- A channel gives its lanes nothing: INBAND_START, or self-test with LIVE = 0 (R98, R276). -/
def State.laneMute (s : State) (c : Nat) : Bool :=
  s.fon (A.CH_STATUS c) F.CH_STATUS.INBAND_START
    || (s.fon (A.CH_STATUS c) F.CH_STATUS.TEST && !F.CH_SELFTEST.LIVE.on (s.eff (A.CH_SELFTEST c)))

/-- The source of lane `n` (R276). -/
def State.laneSource (s : State) (n : Nat) : Bool :=
  let v := s.eff (A.LANE_CTL n)
  let src := F.LANE_CTL.SRC.get v
  let i := F.LANE_CTL.INDEX.get v
  let st := s.fget (A.CH_STATUS i) F.CH_STATUS.STATE
  let h := s.ch i
  if src = 1 then st == 2
  else if src = 2 then st == 1
  else if src = 3 then st == 0
  else if src = 4 then h.active && h.rawH
  else if src = 5 then h.active && h.rawL
  else if src = 6 then (s.en i).cond.headD false
  else src == 7 && s.rt.laneReq.testBit n

/-- The level of lane `n` (R276 to R278). -/
def State.laneLevel (s : State) (n : Nat) : Bool :=
  let v := s.eff (A.LANE_CTL n)
  let src := F.LANE_CTL.SRC.get v
  if s.rt.laneHold.testBit n || s.rt.reload then false
  else if 1 ≤ src ∧ src ≤ 5 ∧ s.laneMute (F.LANE_CTL.INDEX.get v) then false
  else s.laneSource n != F.LANE_CTL.INV.on v

/-- An edge of lane `n` reaches the engines that select it as lane A or lane B (R245, R247). -/
def State.laneEdge (s : State) (n : Nat) (on : Bool) (t : Nat) (interp : Bool) : State :=
  s.upTo 24 (fun s e =>
    let v := s.eff (aeTrigReg e)
    (s.cond (F.AE_TRIG.LANE_A.get v == n) (fun s => s.condEdge e 1 on t interp)).cond (F.AE_TRIG.LANE_B.get v == n)
      (fun s => s.condEdge e 2 on t interp))

/-- `LANE_CTLn.LEVEL` of every lane as it stands: an edge of a lane has the instant at which its source comes true, or the one
at which it ends, each with its measurement (R276). -/
def State.lanesAt (s : State) (rise fall : Nat × Bool) : State :=
  s.upTo 16 (fun s n =>
    let on := s.laneLevel n
    if s.fon (A.LANE_CTL n) F.LANE_CTL.LEVEL == on then s
    else
      let i := if s.laneSource n then rise else fall
      (s.fbit (A.LANE_CTL n) F.LANE_CTL.LEVEL on).laneEdge n on i.1 i.2)

/-- The lanes at a tick instant: FINE 0, ESTIM (R277, R278). -/
def State.refreshLanes (s : State) : State := s.lanesAt (s.clk.start, false) (s.clk.start, false)

/-! ### The comparator (R81, R85, R103) -/

/-- Half the width of the hysteresis band, in µV, by `CH_FILTER.HYST` (R85). -/
def bandHalf (hyst : Nat) : Int := [1000, 2500, 5000, 10000, 25000, 50000].getD hyst 0

/-- An input in µV lies above the level of a code raised by `off` µV: the level is −1.5 V + CODE × 7.5 V / 65,536 (R81). -/
def aboveCode (x : Int) (code : Nat) (off : Int) : Bool := decide ((code : Int) * 7500000 < (x + 1500000 - off) * 65536)

/-- An input in µV lies below that level. -/
def belowCode (x : Int) (code : Nat) (off : Int) : Bool := decide ((x + 1500000 - off) * 65536 < (code : Int) * 7500000)

/-- The output of a threshold comparator that is `one` above its band and the inverse below it; within, it stays (R85). -/
def tripNext (one prev : Bool) (x : Int) (code : Nat) (half : Int) : Bool :=
  if aboveCode x code half then one else if belowCode x code (-half) then !one else prev

/-- Its output as a plain comparison with the threshold (R91); at the threshold itself it is 0. -/
def tripPlain (one : Bool) (x : Int) (code : Nat) : Bool :=
  if aboveCode x code 0 then one else belowCode x code 0 && !one

/-- The state of a decision (R85): 0 below, 1 inside, 2 above. -/
def stateOf (h l : Bool) : Nat := if h then 2 else if l then 0 else 1

/-- The code that H compares with, and that of L (R103: SWAP_TH exchanges them). -/
def State.cmpCodes (s : State) (c : Nat) : Nat × Nat :=
  let h := F.CH_CMPH.CODE.get (s.eff (A.CH_CMPH c))
  let l := F.CH_CMPL.CODE.get (s.eff (A.CH_CMPL c))
  if s.fon (A.CH_STATUS c) F.CH_STATUS.TEST && F.CH_SELFTEST.SWAP_TH.on (s.eff (A.CH_SELFTEST c)) then (l, h) else (h, l)

/-- H is 1 above its threshold and L below its own, unless SWAP_IN exchanges the inputs (R103). -/
def State.cmpUp (s : State) (c : Nat) : Bool :=
  !(s.fon (A.CH_STATUS c) F.CH_STATUS.TEST && F.CH_SELFTEST.SWAP_IN.on (s.eff (A.CH_SELFTEST c)))

/-- The input of the comparator in µV: the level of the pin, or what TIE connects in its place (R103). -/
def State.cmpInput (s : State) (c : Nat) (pin : Int) : Int :=
  if s.fon (A.CH_STATUS c) F.CH_STATUS.TEST then
    match F.CH_SELFTEST.TIE.get (s.eff (A.CH_SELFTEST c)) with
    | 1 => 0
    | 2 => 1000000
    | 3 => 4000000
    | _ => pin
  else pin

/-- Half the band in force. -/
def State.cmpHalf (s : State) (c : Nat) : Int := bandHalf (s.eget (A.CH_FILTER c) F.CH_FILTER.HYST)

/-- H and L for an input, from what they were (R85); `plain` for a comparator that is powered up (R91). -/
def State.cmpNext (s : State) (c : Nat) (plain : Bool) (prev : Bool × Bool) (x : Int) : Bool × Bool :=
  let (hc, lc) := s.cmpCodes c
  let up := s.cmpUp c
  if plain then (tripPlain up x hc, tripPlain (!up) x lc)
  else (tripNext up prev.1 x hc (s.cmpHalf c), tripNext (!up) prev.2 x lc (s.cmpHalf c))

/-- The input lies within the hysteresis band of either threshold. -/
def State.inBand (s : State) (c : Nat) (x : Int) : Bool :=
  let (hc, lc) := s.cmpCodes c
  let half := s.cmpHalf c
  let within (code : Nat) : Bool := !aboveCode x code half && !belowCode x code (-half)
  within hc || within lc

/-- Fine units of 625 ps, the spacing of decisions and the unit of the filter's window (R86). -/
def decisionFine : Nat := 384

/-- How far back crossings and outputs are kept: the longest window of the filter (R88), in fine units. -/
def windowFine : Nat := 16 * decisionFine

/-- Outputs no longer in any window leave; the newest of them still says what the oldest window began with. -/
def keepPts (t : Nat) : List CmpPt → List CmpPt
  | [] => []
  | p :: rest => if p.at_ + windowFine < t then [p] else p :: keepPts t rest

/-- What the comparator's outputs and input are from an instant on. -/
def State.putPoint (s : State) (c t : Nat) (hl : Bool × Bool) (x : Int) : State :=
  s.updCh c (fun h => { h with
    hAt := if hl.1 == h.rawH then h.hAt else t
    rawH := hl.1, rawL := hl.2, pts := keepPts t ({ at_ := t, h := hl.1, l := hl.2, level := x } :: h.pts) })

/-- The outputs and the input at an instant. -/
def State.pointAt (s : State) (c t : Nat) : CmpPt :=
  let h := s.ch c
  match h.pts.find? (fun p => decide (p.at_ ≤ t)) with
  | some p => p
  | none => { at_ := 0, h := h.rawH, l := h.rawL, level := h.level }

/-- `CH_SELFTEST.RAW` during self-test (R104). -/
def State.showRaw (s : State) (c : Nat) : State :=
  let h := s.ch c
  s.cond (s.fon (A.CH_STATUS c) F.CH_STATUS.TEST) (fun s =>
    s.fset (A.CH_SELFTEST c) F.CH_SELFTEST.RAW (2 * bit01 h.rawH + bit01 h.rawL))

/-- H and L at a start (R91): a plain comparison where the comparator is powered up, else the outputs go on with the
thresholds and the band now in force. -/
def State.resolve (s : State) (c : Nat) (plain : Bool) : State :=
  let h := s.ch c
  let x := s.cmpInput c h.level
  (s.putPoint c s.clk.start (s.cmpNext c plain (h.rawH, h.rawL) x) x).showRaw c

/-! ### Edge capture and crossings (R90, R101) -/

/-- An edge timestamp for the FIFO (R14, R101). -/
def State.edgePush (s : State) (c kind : Nat) (st : Stamp) (discarded : Bool) : State :=
  let a := A.CH_EDGE_STAT c
  let s := s.markLocal st.loc
  if discarded then
    (s.inc a F.CH_EDGE_STAT.MISSED 1).raiseF A.DIE_LINK_STATUS (F.DIE_LINK_STATUS.UP_OVF.bit (dieOf c))
  else if Config.edgeDepth ≤ (s.ch c).edges.length then s.raiseF a F.CH_EDGE_STAT.OVF
  else
    let s := s.updCh c (fun h => { h with edges := h.edges ++ [{ kind := kind, st := st }] })
    s.fset a F.CH_EDGE_STAT.LEVEL (s.ch c).edges.length

/-- Edge capture takes edges of this source and kind (R101). -/
def State.captures (s : State) (c src kind : Nat) : Bool :=
  let v := s.eff (A.CH_EDGE_CTL c)
  F.CH_EDGE_CTL.SRC.get v == src && (F.CH_EDGE_CTL.EN.get v).testBit kind

/-- The kind of an edge, numbered as `CH_EDGE_CTL.EN`: CMPL fall, CMPL rise, CMPH rise, CMPH fall. -/
def edgeKind (upper rise : Bool) : Nat := if upper then (if rise then 2 else 3) else (if rise then 1 else 0)

/-- Fine units of 1.25 ns, in which a time-to-digital converter re-arms (R90). -/
def rearmFine : Nat := 768

/-- The time-to-digital converter of H or L re-arms at an instant, from the last crossing that it time-stamped (R90,
assumption 55). -/
def State.rearming (s : State) (c t : Nat) (upper : Bool) : Bool :=
  match (if upper then (s.ch c).stampedH else (s.ch c).stampedL) with
  | some t0 => decide (t < t0 + rearmFine)
  | none => false

/-- A raw trip-point crossing at an instant (R90, R98, R101): time-stamped, or missed during re-arm. -/
def State.crossing (s : State) (c t : Nat) (upper rise discarded : Bool) : State :=
  let k := edgeKind upper rise
  if s.rearming c t upper then s.cond (s.live c) (fun s => s.inc (A.CH_EDGE_STAT c) F.CH_EDGE_STAT.MISSED 1)
  else
    let s := s.updCh c (fun h => { h with
      stampedH := if upper then some t else h.stampedH
      stampedL := if upper then h.stampedL else some t
      cross := (t, k) :: h.cross.filter (fun p => decide (t < p.1 + windowFine)) })
    s.cond (s.live c && s.captures c 1 k) (fun s => s.edgePush c k (s.stampAt t true) discarded)

/-- The comparator's pin voltage at an instant: each output that changes is a crossing, L before H where the input rises (R104: an
edge is named by the change of its output). -/
def State.compInput (s : State) (c t : Nat) (level : Int) (discarded : Bool) : State :=
  let h := s.ch c
  let x := s.cmpInput c level
  let old := s.pointAt c t
  let hl := s.cmpNext c false (h.rawH, h.rawL) x
  let s := ((s.updCh c (fun h => { h with level := level })).putPoint c t hl x).showRaw c
  let low (s : State) : State := s.cond (hl.2 != h.rawL) (fun s => s.crossing c t false (!hl.2) discarded)
  let high (s : State) : State := s.cond (hl.1 != h.rawH) (fun s => s.crossing c t true hl.1 discarded)
  if old.level ≤ x then high (low s) else low (high s)

/-! ### Comparator starts (R91, R92) -/

/-- The filtered state, and its image during self-test (R104). -/
def State.setCmp (s : State) (c st : Nat) : State :=
  let s := s.fset (A.CH_STATUS c) F.CH_STATUS.STATE st
  s.cond (s.fon (A.CH_STATUS c) F.CH_STATUS.TEST) (fun s => s.fset (A.CH_SELFTEST c) F.CH_SELFTEST.STATE st)

/-- COMPARATOR_START (R91) at the current tick instant: state below, INBAND_START, and the raw outputs of the kind of start. -/
def State.compStart (s : State) (c : Nat) (plain : Bool) : State :=
  let s := ((s.setCmp c 0).fset (A.CH_STATUS c) F.CH_STATUS.INBAND_START 1).updCh c (fun h => { h with started := s.clk.start })
  (s.resolve c plain).refreshLanes

/-- A start of a comparator that stays powered. -/
def State.compRestart (s : State) (c : Nat) : State := s.cond (s.ch c).active (fun s => s.compStart c false)

/-- The calibrated input pair of a channel: the first common entry of its element in force (R345). -/
def State.calPair (s : State) (c : Nat) : Nat :=
  match s.cal.coef.find? (fun p => p.1 == 64 * c + 18) with
  | some p => untwos 2 p.2
  | none => 0

/-- The pair in use (R103). -/
def State.refreshPair (s : State) (c : Nat) : State :=
  let v := s.eff (A.CH_SELFTEST c)
  let ovr := s.fon (A.CH_STATUS c) F.CH_STATUS.TEST && F.CH_SELFTEST.PAIR_OVR.on v
  s.fset (A.CH_STATUS c) F.CH_STATUS.PAIR (if ovr then F.CH_SELFTEST.PAIR.get v else s.calPair c)

/-- Self-test follows its fields and the function in force; its start and its end are starts (R91, R103, R104), and a change of
its fields while it runs is one of the comparator's input. -/
def State.refreshTest (s : State) (c : Nat) : State :=
  let on := (s.ch c).active && selfTestSet (s.eff (A.CH_SELFTEST c))
  let was := s.fon (A.CH_STATUS c) F.CH_STATUS.TEST
  let s := s.fbit (A.CH_STATUS c) F.CH_STATUS.TEST on
  let s := if on == was then s.cond on (fun s => (s.compInput c s.clk.start (s.ch c).level false).refreshLanes)
    else if on then s.compStart c false
    else (s.fset (A.CH_SELFTEST c) F.CH_SELFTEST.STATE 3).compRestart c
  s.refreshPair c

/-- The comparator is powered or not (R77, R91). -/
def State.setActive (s : State) (c : Nat) (act : Bool) : State :=
  if act == (s.ch c).active then s
  else
    let s := s.updCh c (fun h => { h with active := act })
    if act then s.compStart c true
    else ((s.fset (A.CH_STATUS c) F.CH_STATUS.STATE 3).fset (A.CH_STATUS c) F.CH_STATUS.INBAND_START 0).refreshLanes

/-! ### Functions (R77 to R80, R128) -/

/-- A value of this register waits: for the ledger, for a boundary, or for the release of a channel (R325). -/
def State.pendingForce (s : State) (a : Nat) : Bool :=
  let f (e : Eff) : Bool := match e with | .force b _ => b == a | _ => false
  s.led.queue.any (fun r => r.effs.any f) || s.led.lists.any (fun p => p.2.any f) || s.staged.any (fun t => f t.eff)

/-- The level a STATIC channel drives. -/
def staticDrive (lvl : Nat) : Drive := if lvl = 0 then .vil else if lvl = 1 then .vih else if lvl = 2 then .vt else .hiz

/-- Driver and active load as the function in force, DRV_FAULT and the safe pin state set them (R18, R77, R83, R84). -/
def State.setDrive (s : State) (c : Nat) : State :=
  let f := s.funcEff c
  let mode := s.eff (A.CH_MODE c)
  let off := s.fon (A.CH_STATUS c) F.CH_STATUS.DRV_FAULT || (s.bk (bankOf c)).cut
  s.updCh c (fun h =>
    let d := if f = fnStatic then staticDrive (F.CH_MODE.STATIC_LVL.get mode) else if f = fnPattern then h.pat else .hiz
    { h with
      drive := if off then .hiz else d
      load := F.CH_MODE.LOAD_EN.on mode && !off && d == .hiz && (f == fnPattern || f == fnStatic) })

/-- The safe pin state of a bank, in which its die holds it: drivers high-impedance, loads off (R17, R18, R224). -/
def State.pinsSafe (s : State) (b : Nat) : State :=
  (s.each (bankChans b) (fun s c => s.updCh c (fun h => { h with drive := .hiz, load := false, pat := .hiz, wave := [] }))).updBk
    b (fun k => { k with cut := true })

/-- The level of a code of `CH_VIH`, `CH_VIL` or `CH_VT` in units of 2⁻¹⁷ V (R81). -/
def codeLevel (code : Nat) : Int := 15 * (code : Int) - 196608

/-- The level that the driver produces, in the same units; none while it is high-impedance (R81, R82). -/
def State.driven (s : State) (c : Nat) : Option Int :=
  match (s.ch c).drive with
  | .vil => some (codeLevel (s.eget (A.CH_VIL c) F.CH_VIL.CODE))
  | .vih => some (codeLevel (s.eget (A.CH_VIH c) F.CH_VIH.CODE))
  | .vt => some (codeLevel (s.eget (A.CH_VT c) F.CH_VT.CODE))
  | .hiz => none

/-- The current in µA that the active load sources into the pin at a level in µV; negative where it sinks (R84). -/
def State.loadCurrent (s : State) (c : Nat) (pin : Int) : Int :=
  let vt := s.eget (A.CH_VT c) F.CH_VT.CODE
  if !(s.ch c).load then 0
  else if belowCode pin vt 0 then 6 * (s.eget (A.CH_LOAD c) F.CH_LOAD.I_SRC : Int)
  else if aboveCode pin vt 0 then -(6 * (s.eget (A.CH_LOAD c) F.CH_LOAD.I_SINK : Int))
  else 0

/-- A bank fault for the next window to record; the lowest code prevails (R417). -/
def State.bankFault (s : State) (b cause idx : Nat) : State :=
  s.updBk b (fun k => { k with
    fault := match k.fault with
      | some (c, i) => if c ≤ cause then some (c, i) else some (cause, idx)
      | none => some (cause, idx) })

/-- The correlator history is emptied (R112). -/
def State.emptyHistory (s : State) (c : Nat) : State :=
  (s.updCh c (fun h => { h with chips := [] })).fset (A.CH_VIGIL_STAT c) F.CH_VIGIL_STAT.FILL 0

/-- Something is queued for C9 (R26). -/
def State.toC9 (s : State) (x : C9) : State := s.updIsl (fun i => { i with c9 := i.c9 ++ [x] })

/-- The deep-vigil values of a channel cross C9 (R112). -/
def State.sendSampler (s : State) (c : Nat) (on : Bool) : State :=
  (s.toC9 (.sampler c on (s.eff (A.CH_VIGIL_CTL c)) (s.eff (A.CH_VIGIL_CODE c)))).fset
    (A.CH_VIGIL_STAT c) F.CH_VIGIL_STAT.PEND 1

/-- The vigil side of a change of function (R112, R128). -/
def State.vigilSwitch (s : State) (c old f : Nat) : State :=
  let s := s.cond (isVigil f) (fun s => s.emptyHistory c)
  let s := s.cond (f == fnDeep) (fun s => s.sendSampler c true)
  s.cond (old == fnDeep) (fun s => s.sendSampler c false)

/-- The channel's charge follows the function in force (R32, R128). -/
def State.chargeFollows (s : State) (c : Nat) : State :=
  let items := s.funcItems c (F.CH_MODE.FUNC.put (s.eff (A.CH_MODE c)) (s.funcEff c))
  [Item.chan c, Item.vigil c].foldl (fun s i =>
    match items.find? (fun p => p.1 == i) with
    | some p => s.lower i p.2
    | none => s.release [i]) s

/-- The function in force changes (R79): the old connection opens, then the new one closes. -/
def State.setFunc (s : State) (mons : List Monitor) (c f : Nat) : State :=
  let old := s.funcEff c
  let s := s.cond (old == fnPmu && f != fnPmu) (fun s => s.pmuDisconnect c)
  let s := s.fset (A.CH_STATUS c) F.CH_STATUS.FUNC_EFF f
  let s := s.cond (f != old) (fun s => (s.updCh c (fun h => { h with drive := .hiz, pat := .hiz, wave := [] })).vigilSwitch c old f)
  let s := s.setActive c (comparatorActive (F.CH_MODE.FUNC.put (s.eff (A.CH_MODE c)) f))
  let s := s.cond (f == fnPmu && old != fnPmu) (fun s => s.pmuConnect mons c)
  ((s.setDrive c).chargeFollows c).refreshTest c

/-- The CONV PLL of a channel's die reports lock, or stands still in deep vigil, where it holds nothing off (R21). -/
def State.dieReady (s : State) (d : Nat) : Bool :=
  s.fon A.CLK_STATUS (F.CLK_STATUS.CONV_LOCK.bit d) || s.unit.st == .deepReady || s.unit.st == .waking

/-- A condition of R80 holds the function `f` off; a channel that is OFF stays so until its die's PLL reports lock (R21). -/
def State.heldOff (s : State) (c f : Nat) : Bool :=
  s.fon (A.CH_STATUS c) F.CH_STATUS.UNCAL || s.bankState (bankOf c) == bankOff
    || (s.bankState (bankOf c) == bankSafe && !isVigil f)
    || (s.funcEff c == fnOff && !s.dieReady (dieOf c))

/-- The charge of the function that `CH_MODE` = `v` selects is committed (R77). -/
def State.charged (s : State) (c : Nat) (v : Word) : Bool :=
  (s.funcItems c v).all (fun p => decide (p.2 ≤ committedOf s.led.committed p.1))

/-- `CH_MODE` comes into force (R78 to R80, R128): from vigil to an active function, two ticks later. A function whose
charge the ledger has not admitted, since its bank has moved in the meantime, is requested again. -/
def State.applyMode (s : State) (mons : List Monitor) (c : Nat) (v : Word) : State :=
  let s := s.setEff (A.CH_MODE c) v
  let bare := !s.heldOff c (F.CH_MODE.FUNC.get v) && !s.charged c v
  let s := s.cond bare (fun s => s.requestList (bankOf c) [.force (A.CH_MODE c) v])
  let f := if s.heldOff c (F.CH_MODE.FUNC.get v) || bare then fnOff else F.CH_MODE.FUNC.get v
  if isVigil (s.funcEff c) && f != fnOff && !isVigil f then
    s.updCh c (fun h => { h with leaveAt := some (s.now + 2) })
  else
    ((s.updCh c (fun h => { h with leaveAt := none })).setFunc mons c f).fbit (A.CH_STATUS c) F.CH_STATUS.MODE_PEND
      (s.pendingForce (A.CH_MODE c))

/-- A channel that leaves vigil now (R128). -/
def State.leaveVigil (s : State) (mons : List Monitor) (c : Nat) : State :=
  if (s.ch c).leaveAt = some s.now then
    let f := F.CH_MODE.FUNC.get (s.eff (A.CH_MODE c))
    ((s.updCh c (fun h => { h with leaveAt := none })).setFunc mons c (if s.heldOff c f then fnOff else f)).fbit
      (A.CH_STATUS c) F.CH_STATUS.MODE_PEND (s.pendingForce (A.CH_MODE c))
  else s

/-- The channel is held off from now on, its written function kept (R80). -/
def State.holdChan (s : State) (c : Nat) : State :=
  ((s.updCh c (fun h => { h with leaveAt := none })).setFunc [] c fnOff)

/-- A condition of R80 has ended for these channels of one bank: their functions are requested again, as a segment list. -/
def State.reRequest (s : State) (b : Nat) (chans : List Nat) : State :=
  let want := chans.filter (fun c =>
    let f := F.CH_MODE.FUNC.get (s.eff (A.CH_MODE c))
    f != fnOff && !s.heldOff c f && s.funcEff c == fnOff && !(s.ch c).held && !s.pendingForce (A.CH_MODE c))
  let s := s.each want (fun s c => s.fset (A.CH_STATUS c) F.CH_STATUS.MODE_PEND 1)
  s.requestList b (want.map (fun c => .force (A.CH_MODE c) (s.eff (A.CH_MODE c))))

/-- A value of `CH_MODE` that the ledger has admitted is staged for the next boundary: a later write does not replace it (R78). -/
def State.admittedMode (s : State) (c : Nat) : Bool :=
  s.staged.any (fun t => t.adm && t.due == s.now + 1 && t.eff.reg == some (A.CH_MODE c))

/-- A write of `CH_MODE` reaches CORE (R77, R78). -/
def State.writeChMode (s : State) (c : Nat) (w : Wr) : State :=
  let a := A.CH_MODE c
  let v := w.val &&& (regInfo a).rw
  let e : List Eff := [.force a v]
  s.gated a (fun s =>
    if !accepts a w.val then s
    else if (s.ch c).held then
      -- it waits for the release by the calibration engine (R325)
      ((s.wr a v).updCh c (fun h => { h with modeWait := some (v, w.who) })).fset (A.CH_STATUS c) F.CH_STATUS.MODE_PEND 1
    else if s.queueFull (classOf w.who) (.reg a) e then s.inc A.TICK_BUDGET F.TICK_BUDGET.LEDGER_FULL 1
    else
      let cyc := if s.admittedMode c then Config.lastWriteCycle + 1 else w.cyc
      ((s.wr a v).request (.reg a) (classOf w.who) (classIndex w.who) w.who cyc e).fset
        (A.CH_STATUS c) F.CH_STATUS.MODE_PEND 1)

/-! ### Settings in force -/

/-- `CH_STATUS.THR_INVERT` (R85). -/
def State.refreshInvert (s : State) (c : Nat) : State :=
  s.fbit (A.CH_STATUS c) F.CH_STATUS.THR_INVERT (decide ((s.eff (A.CH_CMPH c)).toNat < (s.eff (A.CH_CMPL c)).toNat))

/-- A comparator code comes into force (R82, R91, R112). -/
def State.applyThreshold (s : State) (a c : Nat) (v : Word) : State :=
  let new := s.eff a != v
  let s := (s.setEff a v).refreshInvert c
  if !new then s
  else (s.compRestart c).cond (a == A.CH_CMPH c && s.funcEff c == fnLight) (fun s => s.emptyHistory c)

/-- `CH_FILTER` comes into force: a change of HYST is a start (R91). -/
def State.applyFilter (s : State) (c : Nat) (v : Word) : State :=
  let new := s.eget (A.CH_FILTER c) F.CH_FILTER.HYST != F.CH_FILTER.HYST.get v
  (s.setEff (A.CH_FILTER c) v).cond new (fun s => s.compRestart c)

/-- Ones in the low 32 bits of a word. -/
def popCount32 (v : Nat) : Nat := ((List.range 32).filter (fun i => v.testBit i)).length

/-- `CH_VIGIL_STAT.WEAK` (R113). -/
def State.refreshWeak (s : State) (c : Nat) : State :=
  let n := popCount32 (F.CH_VIGIL_CODE.CODE.get (s.eff (A.CH_VIGIL_CODE c)))
  let e := s.eget (A.CH_VIGIL_CTL c) F.CH_VIGIL_CTL.MAXERR
  s.fbit (A.CH_VIGIL_STAT c) F.CH_VIGIL_STAT.WEAK (decide (n ≤ e) || decide (32 ≤ n + e))

/-- `CH_VIGIL_CTL` or `CH_VIGIL_CODE` comes into force (R112): a change empties the history and, in deep vigil, crosses C9. -/
def State.applyVigil (s : State) (a c : Nat) (v : Word) : State :=
  let new := s.eff a != v
  let s := (s.setEff a v).refreshWeak c
  if !new then s
  else (s.emptyHistory c).cond (s.funcEff c == fnDeep) (fun s => s.sendSampler c true)

/-! ### Events of the comparator (R89, R90, R98 to R101) -/

/-- RAW_CROSSING (R85, R90, R104): the pin reaches a level at an instant of the current tick. What the comparator makes of it is
for R85 and R103 to say: a crossing of H, of L, of both or of none. -/
def State.rawCrossing (s : State) (c : Nat) (level : Int) (fine : Nat) (discarded : Bool) : State :=
  let t := s.instant fine
  if !(s.ch c).active then s.updCh c (fun h => { h with level := level })
  else (s.compInput c t level discarded).lanesAt (t, true) (t, true)

/-- The window event of the state entered, as a router kind (R262). -/
def cmpKind (st : Nat) : Nat := 3 - st

/-- The edges of a filtered transition, in order (R89). -/
def transitionEdges (from_ goal : Nat) : List Nat :=
  if from_ = 0 ∧ goal = 1 then [1]
  else if from_ = 1 ∧ goal = 2 then [2]
  else if from_ = 0 ∧ goal = 2 then [1, 2]
  else if from_ = 2 ∧ goal = 1 then [3]
  else if from_ = 1 ∧ goal = 0 then [0]
  else if from_ = 2 ∧ goal = 0 then [3, 0]
  else []

/-- Fine units of 160 ns, the decisions of which a start discards (R91). -/
def startFine : Nat := 98304

/-- The instants of the last M decisions up to one, newest first, but for those that a start has discarded (R88, R91). -/
def State.windowAt (s : State) (c t : Nat) : List Nat :=
  ((List.range (s.eget (A.CH_FILTER c) F.CH_FILTER.M)).filter (fun i =>
    decide ((s.ch c).started + startFine + decisionFine * i ≤ t))).map (fun i => t - decisionFine * i)

/-- The state that a decision matches (R85); none while INBAND_START holds and the input is in band (R91). -/
def State.decisionAt (s : State) (c t : Nat) : Option Nat :=
  let p := s.pointAt c t
  if s.fon (A.CH_STATUS c) F.CH_STATUS.INBAND_START && s.inBand c p.level then none else some (stateOf p.h p.l)

/-- The state that at least N decisions of the window are, if there is one (R88). -/
def State.accepted (s : State) (c t : Nat) : Option Nat :=
  let ds := (s.windowAt c t).map (s.decisionAt c)
  [0, 1, 2].find? (fun x => decide (s.eget (A.CH_FILTER c) F.CH_FILTER.N ≤ ds.count (some x)))

/-- The instant of an edge that the filter makes, and whether it was measured (R90): the earliest time-stamped crossing of its
kind within the window's decision intervals, else the start of the first of them. -/
def State.edgeInstant (s : State) (c t kind : Nat) : Nat × Bool :=
  let from_ := t - decisionFine * (s.windowAt c t).length
  match ((s.ch c).cross.filter (fun p => p.2 == kind && decide (from_ < p.1) && decide (p.1 ≤ t))).getLast? with
  | some p => (p.1, true)
  | none => (from_, false)

/-- FILTERED_TRANSITION (R88 to R92) at a decision of the current tick: the filter accepts the state that the window gives. The
acceptance that ends INBAND_START makes no events. -/
def State.filtered (s : State) (c decision : Nat) (discarded : Bool) : State :=
  let a := A.CH_STATUS c
  let t := s.instant (decisionFine * decision)
  match s.accepted c t with
  | none => s
  | some goal =>
    if !(s.ch c).active then s
    else if s.fon a F.CH_STATUS.INBAND_START then
      ((s.setCmp c goal).fset a F.CH_STATUS.INBAND_START 0).lanesAt (t, false) (t, false)
    else
      let edges := transitionEdges (s.fget a F.CH_STATUS.STATE) goal
      if edges.isEmpty then s
      else
        let at_ := edges.map (s.edgeInstant c t)
        let last := at_.getLastD (t, false)
        let s := (s.setCmp c goal).lanesAt last (at_.headD (t, false))
        if !s.live c then s
        else
          let s := (edges.zip at_).foldl (fun s p =>
            (s.eventAt evChan c (4 + p.1) p.2.1 p.2.2).cond (s.captures c 0 p.1)
              (fun s => s.edgePush c p.1 (s.stampAt p.2.1 p.2.2) discarded)) s
          s.eventAt evChan c (cmpKind goal) last.1 last.2

/-- An event that belongs to the tick before the current one, at its instant. -/
def State.eventBefore (s : State) (cls idx kind : Nat) : State :=
  s.updRt (fun r => { r with events := r.events ++ [{ cls, idx, kind, tick := s.now - 1, st := s.prevStamp }] })

/-- DRIVER_FAULT (R83): at the boundary after the 16th limiting tick the driver and the load go off. The fault reaches the latch
and the router whatever self-test does: it is no decision of the comparator (assumption 56). -/
def State.driverFault (s : State) (c : Nat) : State :=
  let a := A.CH_STATUS c
  if (s.funcEff c != fnPattern && s.funcEff c != fnStatic) || s.fon a F.CH_STATUS.DRV_FAULT || decide ((s.ch c).limTicks < 16) then s
  else
    (((s.raiseF a F.CH_STATUS.DRV_LIMIT).raiseF a F.CH_STATUS.DRV_FAULT).setDrive c).eventBefore evChan c 8

/-! ### Latches and counts (R93 to R96) -/

/-- A W1C write of `CH_LATCH` (R93, R94); `CH_FAIL_ADDR` clears with FAIL (R96). -/
def State.writeLatch (s : State) (c : Nat) (val : Word) : State :=
  let a := A.CH_LATCH c
  s.gated a (fun s =>
    if s.eon (A.CH_MODE c) F.CH_MODE.LATCH_CLR then s
    else
      let old := s.rd a
      let hit := val &&& old &&& (regInfo a).w1c
      let h := s.ch c
      let again := h.latchWrAt == s.now && h.latchWr != 0
      let s := s.updCh c (fun h => { h with
        latchWrAt := s.now
        latchWr := if again then h.latchWr ||| hit else hit
        failOld := if F.CH_LATCH.FAIL.on hit then s.rd (A.CH_FAIL_ADDR c) else h.failOld })
      let s := s.w1c a val
      s.cond (F.CH_LATCH.FAIL.on old && !s.fon a F.CH_LATCH.FAIL) (fun s => s.wr (A.CH_FAIL_ADDR c) 0))

/-- The `CH_LATCH` bit of an event kind (R93). -/
def latchOfKind : Nat → Option Fld
  | 0 => some F.CH_LATCH.FAIL
  | 1 => some F.CH_LATCH.ABOVE
  | 2 => some F.CH_LATCH.INSIDE
  | 3 => some F.CH_LATCH.BELOW
  | 8 => some F.CH_LATCH.DRV
  | _ => none

/-- The latch, count and first fail of one channel event in phase 5 (R93 to R96). -/
def State.latchEvent (s : State) (e : Ev) : State :=
  let c := e.idx
  let a := A.CH_LATCH c
  match latchOfKind e.kind with
  | none => s
  | some f =>
    let s := s.cond (e.kind == 0) (fun s => s.inc (A.CH_FAILCNT c) F.CH_FAILCNT.COUNT 1)
    let h := s.ch c
    let written := h.latchWrAt == s.now && f.on h.latchWr
    if s.fon a f then s.raiseF a f
    else
      let s := s.raiseF a f
      let s := s.cond (e.kind == 0) (fun s =>
        s.wr (A.CH_FAIL_ADDR c) (if written then h.failOld
          else F.CH_FAIL_ADDR.VALID.put (F.CH_FAIL_ADDR.ADDR.put 0 e.info) 1))
      s.cond (!written) (fun s => s.eventT evChan c (9 + f.lo))

/-- The channel part of phase 5: the events of the tick before, earliest first. -/
def State.latchEvents (s : State) (evs : List Ev) : State :=
  (sortBy (fun a b => !b.st.before a.st) (evs.filter (fun e => e.cls == evChan))).foldl State.latchEvent s

/-- A read of `CH_EDGE_LO` by a host: the oldest entry leaves the FIFO (R102, R430). -/
def State.popEdge (s : State) (c : Nat) (h : Side) : State × Word :=
  match (s.ch c).edges with
  | [] => (s.latch h (A.CH_EDGE_HI c) 0x80000, 0)
  | e :: rest =>
    let s := (s.latch h (A.CH_EDGE_HI c) e.st.word1).updCh c (fun k => { k with edges := rest })
    ((s.fset (A.CH_EDGE_STAT c) F.CH_EDGE_STAT.KIND e.kind).fset (A.CH_EDGE_STAT c) F.CH_EDGE_STAT.LEVEL rest.length,
      e.st.word0)

/-- The bank channels whose latch and `m` of `CH_ROUTE` meet, from the listed registers (R99, R100). -/
def State.latched (s : State) (f : Fld) : List Nat :=
  (s.reg.filter (fun p => decide (0x10000 ≤ p.1) && decide (p.1 < 0x1c000) && decide (p.1 % 0x40 = 8)
    && (p.2.toNat &&& f.get (s.rd (p.1 + 2))) != 0)).map (fun p => (p.1 - 0x10000) / 0x40)

/-- The channel interrupt requests and `INT_STATUS.BANKCH` at a tick boundary (R99). -/
def State.refreshChanInt (s : State) : State :=
  let on := s.latched F.CH_ROUTE.INT_EN
  s.upTo 12 (fun s b =>
    let half (k : Nat) : Nat :=
      (on.filter (fun c => c / 32 == 2 * b + k)).foldl (fun m c => m ||| 2 ^ (c % 32)) 0
    ((s.fset (A.BANK_CH_INT b 0) F.BANK_CH_INT.REQ (half 0)).fset (A.BANK_CH_INT b 1) F.BANK_CH_INT.REQ (half 1)).fbit
      A.INT_STATUS (F.INT_STATUS.BANKCH.bit b) (half 0 != 0 || half 1 != 0))

/-! ### The commands -/

/-- CH_MODE_WRITE (R77, R78, R457). -/
def execChModeWrite (c : Fin 768) (w : Wr) (s : State) : Host.Outcome State Fault Refusal := .next (s.writeChMode c w)

/-- DRIVER_FAULT (R83). -/
def execDriverFault (c : Fin 768) (s : State) : Host.Outcome State Fault Refusal := .next (s.driverFault c)

/-- DRV_FAULT_CLEAR (R83): the clear is handled as an AT write. -/
def execDrvFaultClear (c : Fin 768) (cyc : Nat) (s : State) : Host.Outcome State Fault Refusal :=
  .next (s.gated (A.CH_STATUS c) (fun s =>
    s.stage (s.dueAt cyc) (.host .a) (.clear (A.CH_STATUS c) F.CH_STATUS.DRV_FAULT.mask)))

/-- FILTERED_TRANSITION (R89 to R92, R98). -/
def execFilteredTransition (c : Fin 768) (decision : Nat) (discarded : Bool) (s : State) :
    Host.Outcome State Fault Refusal := .next (s.filtered c decision discarded)

/-- CH_LATCH_WRITE (R93, R94). -/
def execChLatchWrite (c : Fin 768) (val : Word) (s : State) : Host.Outcome State Fault Refusal := .next (s.writeLatch c val)

/-- CH_EDGE_LO_READ (R102, R430). -/
def execChEdgeLoRead (c : Fin 768) (h : Side) (s : State) : Host.Outcome State Fault Refusal := .next (s.popEdge c h).1

/-- CH_EDGE_STAT_READ (R429): MISSED clears. -/
def execChEdgeStatRead (c : Fin 768) (_ : Side) (s : State) : Host.Outcome State Fault Refusal :=
  .next (s.fset (A.CH_EDGE_STAT c) F.CH_EDGE_STAT.MISSED 0)

end Sys2Proof.Machine
end

