-- ==== Sys2Proof/Machine/Source.lean ====
section
/-! DEFINITION. The high-speed sources (R205 to R226): routing, output states, range and load changes, playback, limiting and
fault. -/

namespace Sys2Proof.Machine

/-- `SRC_STATUSj` of source `n`. -/
def srcStat (n : Nat) : Nat := A.SRC_STATUS (n / 2) (n % 2)
/-- `SRC_CTLj` of source `n`. -/
def srcCtl (n : Nat) : Nat := A.SRC_CTL (n / 2) (n % 2)
/-- `SRC_PLAYj` of source `n`. -/
def srcPlay (n : Nat) : Nat := A.SRC_PLAY (n / 2) (n % 2)

/-- Source OFF (R209). -/
def srOff : Nat := 0
/-- Source PARKED. -/
def srParked : Nat := 1
/-- Source DRIVE. -/
def srDrive : Nat := 2
/-- Source FAULT. -/
def srFault : Nat := 3

/-! ### Routing (R207) -/

/-- The unit channel that the route of source `n` names. -/
def State.srcChan (s : State) (n : Nat) : Nat := 64 * (n / 2) + s.eget (srcCtl n) F.SRC_CTL.CH

/-- Source 1 names the channel of source 0, both routed: the route conflicts. -/
def State.srcConflict (s : State) (n : Nat) : Bool :=
  n % 2 == 1 && s.eon (srcCtl n) F.SRC_CTL.ROUTE_EN && s.eon (srcCtl (n - 1)) F.SRC_CTL.ROUTE_EN
    && s.srcChan n == s.srcChan (n - 1)

/-- SLj is connected to its channel (R207, R325). -/
def State.srcRouted (s : State) (n : Nat) : Bool :=
  s.eon (srcCtl n) F.SRC_CTL.ROUTE_EN && s.funcEff (s.srcChan n) == fnAbus && !s.srcConflict n
    && !s.busUsed (n / 2)

/-! ### The output level (R205) -/

/-- The output level for a code in units of 2⁻¹⁷ V: V_OFS in steps of 4.5 V / 65,536, and CODE in steps of FS / 32,768, where FS
is 0.25 V, 0.5 V or 1 V (R205). -/
def srcLevel (ofs range : Nat) (code : Int) : Int := 9 * (ofs : Int) - 196608 + code * 2 ^ range

/-- The pin voltage into a load of `rl` ohms returned to 0 V, in the same units, as a fraction (R205). -/
def srcPinLevel (load : Bool) (v : Int) (rl : Nat) : Int × Nat := (if load then v * rl else v * 2 * rl, rl + 50)

/-! ### Output states (R209 to R212) -/

/-- A condition of R209, EN and admission apart, forces the source OFF. -/
def State.srcBarred (s : State) (n : Nat) : Bool :=
  s.bankState (n / 2) != bankActive || s.fon (srcStat n) F.SRC_STATUS.UNCAL || s.unit.st != .running

/-- The state of a source by the order of R209. -/
def State.srcState (s : State) (n : Nat) : Nat :=
  let k := s.sr n
  if s.fon (srcStat n) F.SRC_STATUS.FAULT then srFault
  else if k.hold then srParked
  else if !k.on || s.srcBarred n then srOff
  else if k.parked + 2 ≤ s.now ∧ s.srcRouted n then srDrive
  else srParked

/-- Playback ends, with a last sample that holds or none: PLAY reads IDLE (R219 to R221). -/
def State.playOver (s : State) (n : Nat) (last : Option Int) : State :=
  (s.fset (srcStat n) F.SRC_STATUS.PLAY 0).updSr n (fun k => { k with lastHeld := last, wave := none })

/-- Playback is ended or cancelled: the output follows `SRC_CODEj` (R220, R221). -/
def State.playStop (s : State) (n : Nat) : State := s.playOver n none

/-! ### The sample stream (R217 to R219, R222) -/

/-- Fine units from one sample to the next: 416.667 ps (R218). -/
def sampleFine : Nat := 256

/-- The instant of sample 0: one tick after S, on the CONV grid, which no leap moves (R61, R218). -/
def Wave.origin (w : Wave) : Nat := w.from_ + Config.tickFine

/-- Samples of the whole playback: the passes of 18 samples a line; none for playback without end (R217, R219). -/
def Wave.total (w : Wave) : Option Nat := if w.reps = 0 then none else some (w.reps * ((w.last + 1 - w.first) * 18))

/-- The vector-memory line that holds line `q` of the stream (R217, R219). -/
def Wave.lineAt (w : Wave) (q : Nat) : Nat := w.first + q % (w.last + 1 - w.first)

/-- Sample `k` of a line: bits [16k+15:16k] of its words under R132 (R217). -/
def lineSample (ws : List Word) (k : Nat) : Int :=
  twos 16 (((List.range 16).foldr (fun j x => bit01 ((ws.getD ((16 * k + j) / 36) 0).getLsbD ((16 * k + j) % 36)) + 2 * x) 0))

/-- Sample `i` of the stream, from the lines read for the tick (R217, R222). -/
def Wave.sample (w : Wave) (i : Nat) : Int :=
  match w.lines.find? (fun p => p.1 == i / 18) with
  | some p => lineSample p.2 (i % 18)
  | none => 0

/-- The lines of the samples of the tick that begins: one whose samples reach into the tick has been read; the others, up to the
longest tick that a leap can make, are read from vector memory as it stands (R222, assumption 67). -/
def State.waveRead (s : State) (n : Nat) (w : Wave) : Wave :=
  let o := w.origin
  let line (t : Nat) : Nat := (t - o) / sampleFine / 18
  let end_ := s.clk.start + Config.tickFine + 5 * Config.stepFine
  if end_ ≤ o then w
  else
    let from_ := line s.clk.start
    let old := w.lines.filter (fun p => p.1 == from_ && decide (o + p.1 * 18 * sampleFine < s.clk.start))
    let new := (((List.range (line (end_ - 1) + 1 - from_)).map (from_ + ·)).filter (fun q => !old.any (fun p => p.1 == q)
      && (match w.total with | some t => decide (q * 18 < t) | none => true))).map (fun q =>
        (q, (List.range 8).map (fun i => s.memRd (A.VMEM (n / 2) (w.lineAt q) i))))
    { w with lines := old ++ new }

/-- The DC code in force (R216). -/
def State.srcDc (s : State) (n : Nat) : Int := twos 16 (s.eget (A.SRC_CODE (n / 2) (n % 2)) F.SRC_CODE.CODE)

/-- The code at the output at an instant of the tick (R216, R218, R219): the waveform that plays, whose first sample follows the
DC code of its start by a tick; the last sample that holds; else the DC code. -/
def State.srcCode (s : State) (n t : Nat) : Int :=
  let k := s.sr n
  match k.wave with
  | none => k.lastHeld.getD (s.srcDc n)
  | some w =>
    if t < w.origin then w.code
    else
      let i := (t - w.origin) / sampleFine
      match w.total with
      | some m =>
        if i < m then w.sample i
        else if s.eon (srcPlay n) F.SRC_PLAY.END then s.srcDc n else w.sample (m - 1)
      | none => w.sample i

/-- The output level at an instant of the tick, in units of 2⁻¹⁷ V, with the range and offset in force (R205, R213). -/
def State.srcVolts (s : State) (n t : Nat) : Int :=
  srcLevel (s.eget (A.SRC_OFS (n / 2) (n % 2)) F.SRC_OFS.OFS) (s.fget (srcStat n) F.SRC_STATUS.RANGE_EFF) (s.srcCode n t)

/-- What the source drives onto its pin at an instant of the tick, into a load of `rl` ohms; nothing but in DRIVE (R205, R209,
R218). -/
def State.srcPin (s : State) (n t rl : Nat) : Option (Int × Nat) :=
  if s.fget (srcStat n) F.SRC_STATUS.STATE = srDrive then
    some (srcPinLevel (s.fon (srcStat n) F.SRC_STATUS.LOAD_EFF) (s.srcVolts n t) rl)
  else none

/-- The last pass has ended before the instant (R219). -/
def Wave.over (w : Wave) (t : Nat) : Bool :=
  match w.total with
  | some m => decide (w.origin + m * sampleFine ≤ t)
  | none => false

/-- The flag of a bank in force (R154). -/
def State.flagOn (s : State) (b f : Nat) : Bool := (s.eget (A.SEQ_FLAGS b) F.SEQ_FLAGS.F).testBit f

/-- Armed playback starts where its start condition holds (R218). -/
def State.playStart (s : State) (n : Nat) : State :=
  let p := s.eff (srcPlay n)
  if s.fget (srcStat n) F.SRC_STATUS.PLAY == 1
      && (F.SRC_PLAY.COND.get p == 0 || s.flagOn (n / 2) (F.SRC_PLAY.FLAG.get p)) then
    let r := s.eff (A.SRC_WAVE (n / 2) (n % 2))
    let w : Wave := { from_ := s.clk.start, code := s.srcDc n, first := F.SRC_WAVE.FIRST.get r, last := F.SRC_WAVE.LAST.get r
                      reps := F.SRC_PLAY.REPS.get p }
    (s.fset (srcStat n) F.SRC_STATUS.PLAY 2).updSr n (fun k => { k with lastHeld := none, wave := some (s.waveRead n w) })
  else s

/-- Playback whose last pass has ended before the instant ends (R219). -/
def State.playEndBy (s : State) (n t : Nat) : State :=
  match (s.sr n).wave with
  | none => s
  | some w =>
    if w.over t then
      s.playOver n (if s.eon (srcPlay n) F.SRC_PLAY.END then none else some (w.sample (w.total.getD 1 - 1)))
    else s

/-- Playback at a tick boundary: the end of a last pass that ended in the tick before, the lines of the samples of the tick, and
the start of what is armed (R218, R219, R222). -/
def State.playTick (s : State) (n : Nat) : State :=
  let s := s.playEndBy n s.clk.start
  let s := match (s.sr n).wave with
    | some w => s.updSr n (fun k => { k with wave := some (s.waveRead n w) })
    | none => s
  s.playStart n

/-- The states and flags of a source at a tick boundary (R207, R209, R210, R221, R223, R224). -/
def State.srcTick (s : State) (n : Nat) : State :=
  let a := srcStat n
  let st := s.srcState n
  let old := s.fget a F.SRC_STATUS.STATE
  let s := s.fset a F.SRC_STATUS.STATE st
  let s := s.cond ((old != st && (st == srOff || st == srFault)) || (s.sr n).hold) (fun s => s.playStop n)
  let s := (s.fbit a F.SRC_STATUS.CONFLICT (s.srcConflict n)).fbit a F.SRC_STATUS.NOROUTE
    (s.eon (srcCtl n) F.SRC_CTL.ROUTE_EN && s.funcEff (s.srcChan n) != fnAbus)
  let s := s.playTick n
  let k := s.sr n
  let s := s.fbit a F.SRC_STATUS.LIMIT k.limNow
  if !k.limNow && k.lim == 0 then s
  else s.updSr n (fun k => { k with
    lim := if k.limNow && old == srDrive then k.lim + 1 else 0
    limNow := false })

/-- The source could ask for admission now: no condition of R209 bars it (R212, R225). -/
def State.srcMayAsk (s : State) (n : Nat) : Bool := !s.srcBarred n && !s.fon (srcStat n) F.SRC_STATUS.FAULT

/-- The enable of a source is requested (R211), in the class of its writer; with it the write that enables, if it is one,
which waits whole (R37). -/
def State.srcRequest (s : State) (n : Nat) (who : Writer) (cyc : Nat) (effs : List Eff) : State :=
  (s.request (.src n) (classOf who) (classIndex who) who cyc (effs ++ [.srcOn n])).fset (srcStat n) F.SRC_STATUS.EN_PEND 1

/-- The admitted source enters PARKED (R211), unless EN has gone. -/
def State.srcAdmitted (s : State) (n : Nat) : State :=
  let s := s.fset (srcStat n) F.SRC_STATUS.EN_PEND 0
  if s.eon (srcCtl n) F.SRC_CTL.EN && !s.srcBarred n then s.updSr n (fun k => { k with on := true, parked := s.now })
  else s.cond (!(s.sr n).hold) (fun s => s.release [.src n])

/-- The source goes to OFF (R211, R212): its charge is released, unless the calibration engine's hold carries it. -/
def State.srcOffNow (s : State) (n : Nat) : State :=
  let adm := s.staged.any (fun t => t.eff == .srcOn n)
  let s := ((s.withdraw (.src n)).unstage (fun e => e == .srcOn n)).fset (srcStat n) F.SRC_STATUS.EN_PEND 0
  let s := s.cond (((s.sr n).on || adm) && !(s.sr n).hold) (fun s => s.release [.src n])
  (s.updSr n (fun k => { k with on := false })).playStop n

/-- The writer for whom an element asks again: what a segment enabled is in the class of its bank (R370). -/
def againAs (who : Writer) (b : Nat) : Writer :=
  match who with
  | .loader _ => .seq b
  | w => w

/-- The condition that held a source off has ended: it requests admission again (R212), in the class of the writer of EN
(R211). -/
def State.srcAgain (s : State) (n : Nat) : State :=
  s.cond (s.eon (srcCtl n) F.SRC_CTL.EN && !(s.sr n).on && s.srcMayAsk n && !s.hasReq (.src n)
    && !s.staged.any (fun t => t.eff == .srcOn n)) (fun s => s.srcRequest n (againAs (s.sr n).who (n / 2)) 0 [])

/-! ### Range and load (R213, R214, R221) -/

/-- RANGE and LOAD take effect: a change parks a powered source and stops a waveform that plays. -/
def State.srcRange (s : State) (n range : Nat) (load : Bool) : State :=
  let a := srcStat n
  if s.fget a F.SRC_STATUS.RANGE_EFF = range ∧ s.fon a F.SRC_STATUS.LOAD_EFF = load then s
  else
    let playing := s.fget a F.SRC_STATUS.PLAY == 2
    let st := s.srcState n
    let s := (s.fset a F.SRC_STATUS.RANGE_EFF range).fbit a F.SRC_STATUS.LOAD_EFF load
    let s := s.updSr n (fun k => { k with lastHeld := none })
    let s := s.cond playing (fun s => (s.playStop n).raiseF a F.SRC_STATUS.RANGE_STOP)
    s.cond (st == srParked || st == srDrive) (fun s =>
      (s.updSr n (fun k => { k with parked := s.now })).fset a F.SRC_STATUS.STATE srParked)

/-- `SRC_CTLj` comes into force (R208, R211, R213); a bank that has become ACTIVE since the write lets the source ask now
(R212). -/
def State.applySrcCtl (s : State) (n : Nat) (v : Word) : State :=
  let s := (s.setEff (srcCtl n) v).srcRange n (F.SRC_CTL.RANGE.get v) (F.SRC_CTL.LOAD.on v)
  if F.SRC_CTL.EN.on v then s.srcAgain n else s.srcOffNow n

/-- `SRC_CODEj` comes into force: a held last sample gives way to it (R216, R219). -/
def State.applySrcCode (s : State) (a n : Nat) (v : Word) : State :=
  (s.setEff a v).updSr n (fun k => { k with lastHeld := none })

/-- A written `SRC_CTLj` enables the source: EN goes from 0 to 1, or a write that waits to do so is replaced (R211, R37). -/
def State.srcRises (s : State) (n : Nat) (v : Word) : Bool :=
  F.SRC_CTL.EN.on v && !s.eon (srcCtl n) F.SRC_CTL.EN && (!s.fon (srcCtl n) F.SRC_CTL.EN || s.hasReq (.src n))

/-- A write of `SRC_CTLj` reaches CORE (R211): one that enables the source is a request and waits whole (R37); any other takes
the place of one that waits. -/
def State.writeSrcCtl (s : State) (n : Nat) (w : Wr) : State :=
  let a := srcCtl n
  let v := w.val &&& (regInfo a).rw
  let rise := s.srcRises n v
  s.gated a (fun s =>
    if !accepts a w.val then s
    else if rise && s.srcMayAsk n then
      if s.queueFull (classOf w.who) (.src n) [.srcOn n] then s.inc A.TICK_BUDGET F.TICK_BUDGET.LEDGER_FULL 1
      else ((s.wr a v).updSr n (fun k => { k with who := w.who })).srcRequest n w.who w.cyc [.force a v]
    else
      let s := s.cond rise (fun s => s.updSr n (fun k => { k with who := w.who }))
      let s := s.cond (!s.eon a F.SRC_CTL.EN && s.hasReq (.src n)) (fun s =>
        (s.withdraw (.src n)).fset (srcStat n) F.SRC_STATUS.EN_PEND 0)
      (s.wr a v).stage (s.dueAt w.cyc) w.who (.force a v))

/-! ### Playback (R217 to R221) -/

/-- GO of playback takes effect (R218, R220). -/
def State.playGo (s : State) (n : Nat) : State :=
  if s.fget (srcStat n) F.SRC_STATUS.PLAY != 0 then s.raiseF (srcStat n) F.SRC_STATUS.GO_IGN
  else s.fset (srcStat n) F.SRC_STATUS.PLAY 1

/-! ### Limiting and fault (R223 to R225) -/

/-- The output of a driving source limits in this tick (R223). -/
def State.srcLimit (s : State) (n : Nat) (i : Instant) : State :=
  let a := srcStat n
  if s.fget a F.SRC_STATUS.STATE != srDrive then s
  else
    let first := !s.fon a F.SRC_STATUS.LIMIT
    let s := ((s.fset a F.SRC_STATUS.LIMIT 1).raiseF a F.SRC_STATUS.LIMITED).updSr n (fun k => { k with limNow := true })
    s.cond first (fun s => s.event evSrc n 0 (s.stamp i.fine false))

/-- Sustained limiting (R224): FAULT at the boundary, the bank's pins safe; the core records the bank in this window. -/
def State.srcFaultNow (s : State) (n : Nat) : State :=
  let a := srcStat n
  if decide ((s.sr n).lim ≤ s.eget (srcCtl n) F.SRC_CTL.LIM) then s
  else
    let s := (s.raiseF a F.SRC_STATUS.FAULT).fset a F.SRC_STATUS.STATE srFault
    let s := ((s.srcOffNow n).updSr n (fun k => { k with lim := 0 })).bankFault (n / 2) 1 (n % 2)
    (s.pinsSafe (n / 2)).eventBefore evSrc n 1

/-- A write of 1 to FAULT (R225). -/
def State.srcFaultClear (s : State) (n : Nat) : State :=
  let s := s.w1c (srcStat n) F.SRC_STATUS.FAULT.mask
  s.cond (!s.fon (srcStat n) F.SRC_STATUS.FAULT) (fun s => s.srcAgain n)

/-! ### The commands -/

/-- SOURCE_ENABLE (R211): the written control with EN = 1. -/
def execSourceEnable (b : Fin 12) (j : Fin 2) (who : Writer) (s : State) : Host.Outcome State Fault Refusal :=
  let n := elemOf b j
  .next (s.writeSrcCtl n ⟨who, F.SRC_CTL.EN.put (s.rd (srcCtl n)) 1, 0⟩)

/-- SOURCE_RANGE_CHANGE (R213, R214, R221): the change takes effect at this boundary. -/
def execSourceRangeChange (b : Fin 12) (j : Fin 2) (range : Fin 3) (load : Bool) (s : State) :
    Host.Outcome State Fault Refusal :=
  let n := elemOf b j
  .next (((s.fsetBoth (srcCtl n) F.SRC_CTL.RANGE range).fsetBoth (srcCtl n) F.SRC_CTL.LOAD (bit01 load)).srcRange n range
    load)

/-- SOURCE_PLAY_GO (R218, R220). -/
def execSourcePlayGo (b : Fin 12) (j : Fin 2) (s : State) : Host.Outcome State Fault Refusal := .next (s.playGo (elemOf b j))

/-- SOURCE_PLAY_STOP (R220). -/
def execSourcePlayStop (b : Fin 12) (j : Fin 2) (s : State) : Host.Outcome State Fault Refusal :=
  .next (s.playStop (elemOf b j))

/-- PLAYBACK_START (R218). -/
def execPlaybackStart (b : Fin 12) (j : Fin 2) (s : State) : Host.Outcome State Fault Refusal :=
  .next (s.playStart (elemOf b j))

/-- PLAYBACK_END (R219): a last pass that ends within the tick has ended. -/
def execPlaybackEnd (b : Fin 12) (j : Fin 2) (s : State) : Host.Outcome State Fault Refusal :=
  .next (s.playEndBy (elemOf b j) s.tickEnd)

/-- SOURCE_LIMIT (R206, R223): one such command in each limiting tick. -/
def execSourceLimit (b : Fin 12) (j : Fin 2) (i : Instant) (s : State) : Host.Outcome State Fault Refusal :=
  .next (s.srcLimit (elemOf b j) i)

/-- SOURCE_FAULT (R224): at the boundary that ends the (LIM + 1)th limiting tick in a row. -/
def execSourceFault (b : Fin 12) (j : Fin 2) (s : State) : Host.Outcome State Fault Refusal :=
  .next (s.srcFaultNow (elemOf b j))

/-- SOURCE_FAULT_CLEAR (R225). -/
def execSourceFaultClear (b : Fin 12) (j : Fin 2) (s : State) : Host.Outcome State Fault Refusal :=
  let n := elemOf b j
  .next (s.gated (srcStat n) (fun s => s.srcFaultClear n))

end Sys2Proof.Machine
end

