-- ==== Sys2Proof/Machine/Acq.lean ====
section
/-! DEFINITION. The acquisition engines (R229 to R258): states, capture memory, triggers, trigger records and their FIFO. -/

namespace Sys2Proof.Machine

/-! ### The digitizer (R229, R231, R237 to R239) -/

/-- Fine units of a sample period (R233, R253). -/
def periodFine : Nat := 512

/-- The first sample instant at or after an instant: samples lie on whole multiples of the period (R248). -/
def sampleFrom (t : Nat) : Nat := (t + (periodFine - 1)) / periodFine * periodFine

/-- DLj of an engine is connected (R231, R325). -/
def State.aeLinked (s : State) (e : Nat) : Bool :=
  let c := s.eff (aeCtl e)
  F.AE_CTL.ROUTE_EN.on c && s.funcEff (64 * (e / 2) + F.AE_CTL.CH.get c) == fnAbus && !s.busUsed (e / 2)

/-- The voltage of an input of `v` µV over V_OFS, in units of 10⁻⁶ · 2⁻¹¹ / 15,625 of FS / 32,768 at RANGE 0: both sides of R229
are whole numbers in it. -/
def aeDiff (ofs : Nat) (v : Int) : Int := 2048 * v - 15625 * (9 * (ofs : Int) - 196608)

/-- One code step in the same units (R229). -/
def aeStep (range : Nat) : Int := 15625 * 2 ^ range

/-- The code of an input of `v` µV, to the nearest step, and whether it is over-range (R229, assumption 69). -/
def aeCode (ofs range : Nat) (v : Int) : Int × Bool :=
  let x := aeDiff ofs v
  if 32768 * (aeStep range).natAbs < x.natAbs then (if 0 < x then 32767 else -32768, true)
  else (clampInt (-32768) 32767 (roundAway x (aeStep range).natAbs), false)

/-- A position that holds no sample (R239). -/
def noSample (ctl : Word) : Word := if F.AE_CTL.FMT.on ctl then 0x800000000 else 0xc00030000

/-- Words of a segment (R240). -/
def aeSegLen (k : Ae) : Nat := F.AE_PRE.PRE.get k.pre + F.AE_POST.POST.get k.post
/-- Segments (R240). -/
def aeNrec (k : Ae) : Nat := F.AE_POST.NREC1.get k.post + 1
/-- Samples in a word (R237, R238). -/
def aeSpw (k : Ae) : Nat := if F.AE_CTL.FMT.on k.ctl then 2 ^ F.AE_CTL.NAVG.get k.ctl else 2
/-- The trigger word (R248). -/
def aeTrigWord (k : Ae) (h : Shot) : Nat := h.sample / aeSpw k
/-- Valid pre-trigger words (R242). -/
def aeVpre (k : Ae) (h : Shot) : Nat := min (F.AE_PRE.PRE.get k.pre) (aeTrigWord k h)
/-- The word offset of stream word `w` (R241). -/
def aeOffset (k : Ae) (h : Shot) (w : Nat) : Nat := h.seg * aeSegLen k + w % aeSegLen k
/-- The place in its segment of a record's first position (R242). -/
def aeFirst (k : Ae) (h : Shot) : Nat := (aeTrigWord k h + aeSegLen k - F.AE_PRE.PRE.get k.pre) % aeSegLen k

/-- The instant of a record's last sample: that of word t + POST − 1 (R241). -/
def aeEndAt (k : Ae) (h : Shot) : Nat :=
  h.armAt + periodFine * ((aeTrigWord k h + F.AE_POST.POST.get k.post) * aeSpw k - 1)

/-- The 18 bits of a raw sample (R237). -/
def rawSample (trig ovr : Bool) (code : Int) : Nat := untwos 16 code + (if trig then 2 else if ovr then 1 else 0) * 2 ^ 16

/-- The word of an averaged interval: −2^35 is written as its neighbour (R238). -/
def avgWord (sum : Int) : Word := if sum = -(2 ^ 35) then 0x800000001 else BitVec.ofInt 36 sum

/-- One sample taken (R237, R238): what the stretch holds after it, and the word that it completes. -/
def Ae.take (k : Ae) (h : Shot) (i : Nat) (x : Int × Bool) (chg : Bool) : Shot × Option (Nat × Word) :=
  let trig := h.mask != 0 && i == h.sample
  let h := { h with
    ovrAt := if x.2 then some i else h.ovrAt, chgAt := if chg then some i else h.chgAt
    ovrTrig := h.ovrTrig || (trig && x.2) }
  let last := (i + 1) % aeSpw k == 0
  if F.AE_CTL.FMT.on k.ctl then
    let sum := h.acc + x.1
    ({ h with acc := if last then 0 else sum }, if last then some (i / aeSpw k, avgWord sum) else none)
  else
    let v := rawSample trig x.2 x.1
    ({ h with acc := if last then 0 else v },
      if last then some (i / 2, BitVec.ofNat 36 (h.acc.toNat + v * 2 ^ 18)) else none)

/-- The samples of the tick before, from the instant `t` on, that belong to a stretch (R241). -/
def State.aeFeed (s : State) (e : Nat) (h : Shot) (last : Nat) : List Int → Nat → State × Shot
  | [], _ => (s, h)
  | v :: rest, t =>
    if t < h.armAt ∨ last < t then s.aeFeed e h last rest (t + periodFine)
    else
      let k := s.en e
      let x := aeCode (s.eget (aeOfs e) F.AE_OFS.OFS) (s.eget (aeCtl e) F.AE_CTL.RANGE) v
      let (h, w) := k.take h ((t - h.armAt) / periodFine) x (k.chg && decide (t < s.clk.start - s.clk.prevLen + 24576))
      let s := match w with | some (i, v) => s.memWr (A.CAPT e (aeOffset k h i)) v | none => s
      s.aeFeed e h last rest (t + periodFine)

/-- The inputs of an engine at the sample instants of the tick before (R229, R231): 0 V where DLj is not connected; a level that
nothing has reported is a free value (assumption 9). -/
def State.aeInputs (s : State) (e : Nat) (inp : List Samples) : State × List Int :=
  let n := (sampleFrom s.clk.start - sampleFrom (s.clk.start - s.clk.prevLen)) / periodFine
  if !s.aeLinked e then (s, List.replicate n 0)
  else
    let v := (((inp.find? (fun c => c.eng.val == e)).map (·.volts)).getD []).take n
    (s.freshN (n - v.length), v ++ (List.range (n - v.length)).map (fun i => Config.freeReading (s.free + i)))

/-! ### The level detector (R246) -/

/-- The input of the level detector in µV. -/
def State.aeLevel (s : State) (e : Nat) : Int := if s.aeLinked e then (s.en e).level else 0

/-- The level detector for its input, from what it was (R246). -/
def State.aeDetector (s : State) (e : Nat) (was : Bool) : Bool :=
  let v := s.eff (aeTrigReg e)
  let x := aeDiff (s.eget (aeOfs e) F.AE_OFS.OFS) (s.aeLevel e)
  let q := aeStep (s.eget (aeCtl e) F.AE_CTL.RANGE)
  let lev := twos 16 (F.AE_TRIG.LEVEL.get v)
  let hyst : Int := 8 * (F.AE_TRIG.HYST.get v : Int)
  if F.AE_TRIG.SLOPE.on v then decide (x ≤ lev * q) || (was && decide (x ≤ (lev + hyst) * q))
  else decide (lev * q ≤ x) || (was && decide ((lev - hyst) * q ≤ x))

/-! ### Records (R242, R243, R249 to R256) -/

/-- A record whose completion holds segment `r` (R255). -/
def segHeld (k : Ae) (r : Nat) : Bool :=
  (k.recs ++ k.done).any (fun x => x.seg == r) || k.ended.any (fun h => h.seg == r && !h.lost)

/-- `AE_RECj0` to `AE_RECj7` and REC_LEVEL follow the FIFO (R255). -/
def State.aeShow (s : State) (e : Nat) : State :=
  let recs := (s.en e).recs
  let ws := match recs with | [] => [] | r :: _ => r.words
  (s.upTo 8 (fun s w => s.wr (A.AE_REC (e / 2) (e % 2) w) (ws.getD w 0))).fset (aeStat e) F.AE_STATUS.REC_LEVEL recs.length

/-- The sample lies in the record: its valid pre-trigger words and what follows (R242). -/
def aeHas (k : Ae) (h : Shot) (i : Option Nat) : Bool :=
  match i with
  | some i => decide ((aeTrigWord k h - aeVpre k h) * aeSpw k ≤ i)
  | none => false

/-- The eight words of a trigger record (R232, R256). -/
def aeRecWords (k : Ae) (h : Shot) (trunc : Bool) : List Word :=
  let b (n v : Nat) : Word := BitVec.ofNat 36 (v * 2 ^ n)
  let raw := !F.AE_CTL.FMT.on k.ctl
  [ h.st.word0
  , h.st.word1
  , b 32 (h.mask % 16) ||| b 30 h.prim ||| b 29 (bit01 (raw && h.sample % 2 == 1)) ||| b 28 (bit01 h.ovrTrig)
      ||| b 27 (bit01 (decide (aeVpre k h < F.AE_PRE.PRE.get k.pre))) ||| b 26 (bit01 trunc)
      ||| b 25 (bit01 (!raw)) ||| b 20 (F.AE_CTL.NAVG.get k.ctl) ||| b 0 (h.seg * aeSegLen k + aeFirst k h)
  , b 20 (k.seq % 65536) ||| b 0 (aeOffset k h (aeTrigWord k h))
  , b 24 (min h.missed 4095) ||| b 0 (aeVpre k h)
  , b 0 (min h.dead (2 ^ 36 - 1))
  , b 27 (h.ofs.getD 0 0 % 512) ||| b 18 (h.ofs.getD 1 0 % 512) ||| b 9 (h.ofs.getD 2 0 % 512) ||| b 0 (h.ofs.getD 3 0 % 512)
  , b 35 (bit01 (decide (2 ^ 36 - 1 < h.dead))) ||| b 34 (bit01 (aeHas k h h.ovrAt)) ||| b 33 (bit01 (aeHas k h h.chgAt))
      ||| b 0 (if raw then 0 else h.sample % aeSpw k) ]

/-- A record whose samples have been written is delivered (R236, R242, R255): it enters the FIFO in phase 5 of the window that
follows the tick before. One that a STOP ends has its last sample at `last`: a raw word of which only sample A was taken is
completed (R239), and the positions without a word read as no sample. -/
def State.aeDeliver (s : State) (e : Nat) (h : Shot) (trunc : Bool) (last : Nat) : State :=
  let k := s.en e
  let n := if h.armAt ≤ last then (last - h.armAt) / periodFine + 1 else 0
  let half := trunc && !F.AE_CTL.FMT.on k.ctl && n % 2 == 1
  let s := s.cond half (fun s => s.memWr (A.CAPT e (aeOffset k h (n / 2))) (BitVec.ofNat 36 (h.acc.toNat + 3 * 2 ^ 34)))
  let pre := F.AE_PRE.PRE.get k.pre
  let hi := if trunc then pre + (n / aeSpw k + bit01 half - aeTrigWord k h) else aeSegLen k
  let s := s.raiseIf (h.ovrTrig || aeHas k h h.ovrAt) (aeStat e) F.AE_STATUS.OVR
  s.updEn e (fun k => { k with
    done := k.done ++ [{ seg := h.seg, words := aeRecWords k h trunc, at_ := s.now - 1, len := aeSegLen k, first := aeFirst k h
                         lo := pre - aeVpre k h, hi := hi, blank := noSample k.ctl }]
    seq := k.seq + 1 })

/-- A word of capture memory as it reads: no sample in the positions of a held record that have none (R236, R242). -/
def State.captRead (s : State) (e ofs : Nat) : Word :=
  let k := s.en e
  let blank (r : Rec) : Bool :=
    let d := (ofs - r.seg * r.len + r.len - r.first) % r.len
    decide (r.seg * r.len ≤ ofs) && decide (ofs < r.seg * r.len + r.len) && (decide (d < r.lo) || decide (r.hi ≤ d))
  match (k.recs ++ k.done).find? blank with
  | some r => r.blank
  | none => s.memRd (A.CAPT e ofs)

/-- The record of segment `r` is discarded for a new one at an instant (R243). -/
def State.aeDiscard (s : State) (e r t : Nat) : State :=
  let s := s.updEn e (fun k => { k with
    recs := k.recs.filter (fun x => x.seg != r), done := k.done.filter (fun x => x.seg != r)
    ended := k.ended.map (fun h => if h.seg = r then { h with lost := true } else h) })
  ((s.inc (aeStat e) F.AE_STATUS.REC_LOST 1).aeShow e).eventAt evAe e 3 t false

/-- The record completes with its last sample (R241 to R243): DONE in single mode; else the next segment, once it is free. Its
words are formed and it is delivered at the end of the tick. -/
def State.aeComplete (s : State) (e : Nat) : State :=
  let k := s.en e
  let t := aeEndAt k k.shot
  let s := (s.updEn e (fun k => { k with
    ended := k.ended ++ [{ k.shot with endAt := t }], shot := {}, deadFrom := t, deadCnt := 0, freeAt := 0 })).eventAt evAe e 2 t
      false
  if !F.AE_CTL.MODE.on k.ctl then s.setAe e aeDone
  else
    let r := (k.shot.seg + 1) % aeNrec k
    let s := s.fset (aeStat e) F.AE_STATUS.SEG r
    let wait := segHeld (s.en e) r
    let s := s.cond (wait && F.AE_CTL.FULL.on k.ctl) (fun s => s.aeDiscard e r t)
    s.setAe e (if wait && !F.AE_CTL.FULL.on k.ctl then aeWaitFree else aeDead)

/-- The instant of the first armed sample of the next segment (R243). -/
def aeArmAt (k : Ae) : Nat :=
  max (k.deadFrom + periodFine * (16 + F.AE_CTL.HOLDOFF.get k.ctl)) (sampleFrom k.freeAt)

/-- The engine is armed: sample 0 of segment `r` lies at `t`, after `dead` fine units (R235, R241, R252). -/
def State.aeArm (s : State) (e r t dead : Nat) : State :=
  (s.updEn e (fun k => { k with shot := { seg := r, armAt := t, dead := dead, missed := k.missed }, missed := 0 })).setAe e aeArmed

/-- The next segment is armed, with the dead time that precedes it (R243, R252, R253). -/
def State.aeRearm (s : State) (e : Nat) : State :=
  let k := s.en e
  let t := aeArmAt k
  let dead := t - k.deadFrom
  (s.updEn e (fun k => { k with deadPend := k.deadPend + (dead / periodFine - k.deadCnt), deadCnt := 0 })).aeArm e
    (s.fget (aeStat e) F.AE_STATUS.SEG) t dead

/-- A record whose last sample lies before the instant completes. -/
def State.aeCompleteBy (s : State) (e t : Nat) : State :=
  s.cond (s.aeState e == aeFilling && decide (aeEndAt (s.en e) (s.en e).shot < t)) (fun s => s.aeComplete e)

/-- A segment whose first armed sample lies before the instant is armed. -/
def State.aeRearmBy (s : State) (e t : Nat) : State :=
  s.cond (s.aeState e == aeDead && decide (aeArmAt (s.en e) < t)) (fun s => s.aeRearm e)

/-- What the engine has come to by an instant: the end of a record, and the arm that follows it (R241, R243). -/
def State.aeBy (s : State) (e t : Nat) : State := (s.aeCompleteBy e t).aeRearmBy e t

/-- Periods of a dead time that begin in the tick before count in its season (R253). -/
def State.aeDeadTick (s : State) (e : Nat) : State :=
  let k := s.en e
  let st := s.aeState e
  let a := A.AE_DEAD (e / 2) (e % 2)
  let running := st == aeDead || st == aeWaitFree
  let due := if running then (s.clk.start - k.deadFrom + (periodFine - 1)) / periodFine - k.deadCnt else 0
  let add := k.deadPend + due
  if add = 0 then s
  else
    (s.wr a (BitVec.ofNat 36 (min ((s.rd a).toNat + add) (2 ^ 36 - 1)))).updEn e (fun k => { k with
      deadPend := 0, deadCnt := k.deadCnt + due })

/-! ### Triggers (R245 to R250) -/

/-- A transition that is not accepted (R250). -/
def State.aeMiss (s : State) (e t : Nat) (interp : Bool) : State :=
  (s.updEn e (fun k => { k with missed := min (k.missed + 1) 4095 })).eventAt evAe e 1 t interp

/-- A trigger accepted (R249): the post-trigger fill begins. -/
def State.aeAccept (s : State) (e cond t : Nat) (interp : Bool) : State :=
  let s := s.updEn e (fun k => { k with shot := { k.shot with
    mask := 2 ^ cond, prim := cond, st := s.stampAt t interp, ofs := [0, 0, 0, 0].set cond (sampleFrom t - t)
    sample := (sampleFrom t - k.shot.armAt) / periodFine } })
  (s.setAe e aeFilling).eventAt evAe e 0 t interp

/-- A further condition with the same trigger sample (R249): the lowest-numbered one is primary, and the event of the trigger
carries its instant. -/
def State.aeJoin (s : State) (e cond t : Nat) (interp : Bool) : State :=
  let h := (s.en e).shot
  let st := s.stampAt t interp
  let s := s.updEn e (fun k => { k with shot := { k.shot with
    mask := k.shot.mask ||| 2 ^ cond, ofs := k.shot.ofs.set cond (sampleFrom t - t) } })
  if cond < h.prim then
    (s.updEn e (fun k => { k with shot := { k.shot with prim := cond, st := st } })).updRt (fun r => { r with
      events := r.events.map (fun x =>
        if x.cls = evAe ∧ x.idx = e ∧ x.kind = 0 ∧ x.st = h.st then
          { x with st := st, tick := if s.clk.start ≤ t then s.now else s.now - 1 }
        else x) })
  else s

/-- A false-to-true transition of an enabled condition is judged by its trigger sample (R248 to R250). -/
def State.aeJudge (s : State) (e : Nat) (p : Nat × Nat × Bool) : State :=
  let t := sampleFrom p.2.1
  let s := s.aeBy e (t + 1)
  let h := (s.en e).shot
  let st := s.aeState e
  if st == aeArmed then
    if h.armAt ≤ t then s.aeAccept e p.1 p.2.1 p.2.2 else s.cond (h.dead != 0) (fun s => s.aeMiss e p.2.1 p.2.2)
  else if st == aeFilling then
    if t == h.armAt + periodFine * h.sample && !h.mask.testBit p.1 then s.aeJoin e p.1 p.2.1 p.2.2
    else s.aeMiss e p.2.1 p.2.2
  else if st == aeDead || st == aeWaitFree then s.aeMiss e p.2.1 p.2.2
  else s

/-- The transitions up to an instant whose trigger sample lies before `before` are judged, in the order of their instants. -/
def State.aeJudgeBy (s : State) (e upto before : Nat) : State :=
  let due (p : Nat × Nat × Bool) : Bool := decide (p.2.1 ≤ upto) && decide (sampleFrom p.2.1 < before)
  let l := (s.en e).trans.filter due
  if l.isEmpty then s
  else
    (sortBy (fun a b => decide (a.2.1 ≤ b.2.1)) l).foldl (fun s p => s.aeJudge e p)
      (s.updEn e (fun k => { k with trans := k.trans.filter (fun p => !due p) }))

/-- Condition 3 is in force for the tick; a tick of it that follows none is a transition at its tick instant (R245, R248). -/
def State.aeTrigger (s : State) (e : Nat) : State :=
  if (s.en e).tickPrev then s.condTo e 3 true else s.condEdge e 3 true s.clk.start false

/-! ### The tick that ends -/

/-- Condition 3 of the ending tick is remembered and ends, unless an action or FORCE renews it (R245, R248). -/
def State.aeTick3 (s : State) (e : Nat) : State :=
  let k := s.en e
  if !k.tickPrev && !k.cond.getD 3 false then s
  else s.updEn e (fun k => { k with tickPrev := k.cond.getD 3 false, cond := k.cond.set 3 false })

/-- The samples of the tick before are written, and the records that completed in it are delivered (R241 to R243). -/
def State.aeWrite (s : State) (e : Nat) (inp : List Samples) : State :=
  let st := s.aeState e
  let live := st == aeArmed || st == aeFilling
  if !live && (s.en e).ended.isEmpty then s
  else
    let (s, vs) := s.aeInputs e inp
    let t0 := sampleFrom (s.clk.start - s.clk.prevLen)
    let l := (s.en e).ended
    let s := l.foldl (fun s h =>
      let (s, h') := s.aeFeed e h h.endAt vs t0
      if h.lost then s.updEn e (fun k => { k with seq := k.seq + 1 }) else s.aeDeliver e h' false h.endAt) s
    let s := s.updEn e (fun k => { k with ended := [] })
    if !live then s
    else
      let (s, h) := s.aeFeed e (s.en e).shot s.clk.start vs t0
      s.updEn e (fun k => { k with shot := h })

/-- The tick that ended, for one engine: transitions still to be judged, the end of a record and the next arm, the samples, the
dead time, and condition 3 (R241, R248, R252, R253). -/
def State.aeEndOne (s : State) (inp : List Samples) (e : Nat) : State :=
  let s := (((s.aeJudgeBy e s.clk.start s.clk.start).aeBy e s.clk.start).aeWrite e inp).aeDeadTick e
  (s.cond (s.en e).chg (fun s => s.updEn e (fun k => { k with chg := false }))).aeTick3 e

/-! ### Go, stop, pop (R234 to R236, R255) -/

/-- A condition of R234, EN and admission apart, holds the engine OFF. -/
def State.aeBarred (s : State) (e : Nat) : Bool :=
  s.bankState (e / 2) != bankActive || s.fon (aeStat e) F.AE_STATUS.UNCAL || s.unit.st != .running

/-- GO takes effect (R235). -/
def State.aeGoNow (s : State) (e : Nat) : State :=
  let st := s.aeState e
  if st != aeIdle && st != aeDone then s.raiseF (aeStat e) F.AE_STATUS.GO_IGN
  else
    let b := e / 2
    let j := e % 2
    let s := s.updEn e (fun k => { k with ctl := s.eff (aeCtl e), pre := s.eff (A.AE_PRE b j), post := s.eff (A.AE_POST b j) })
    let k := s.en e
    if F.AE_POST.POST.get k.post = 0 ∨ 1048576 < aeNrec k * aeSegLen k then s.raiseF (aeStat e) F.AE_STATUS.CFG_ERR
    else
      let s := s.updEn e (fun k => { k with recs := [], done := [], ended := [], seq := 0 })
      ((s.fset (aeStat e) F.AE_STATUS.SEG 0).aeShow e).aeArm e 0 (sampleFrom s.clk.start) 0

/-- The instant of the last sample before the current boundary. -/
def State.lastSample (s : State) : Nat := sampleFrom s.clk.start - periodFine

/-- STOP takes effect (R236): a record under way ends with the last sample before the boundary; missed transitions that an arm
without a record has taken along wait for the next record (R250). -/
def State.aeStopNow (s : State) (e : Nat) : State :=
  let st := s.aeState e
  if st == aeFilling then
    let t := s.lastSample
    (((s.aeDeliver e (s.en e).shot true t).updEn e (fun k => { k with shot := {} })).eventAt evAe e 2 t false).setAe e aeIdle
  else if st == aeArmed then
    (s.updEn e (fun k => { k with missed := min (k.missed + k.shot.missed) 4095, shot := {} })).setAe e aeIdle
  else if st == aeDone then s.setAe e aeIdle
  else if st == aeDead || st == aeWaitFree then (s.updEn e (fun k => { k with deadCnt := 0 })).setAe e aeIdle
  else s

/-- A pop takes effect (R255): the oldest record leaves and its segment is free. -/
def State.aePop (s : State) (e : Nat) : State :=
  match (s.en e).recs with
  | [] => s
  | _ :: rest =>
    let s := (s.updEn e (fun k => { k with recs := rest })).aeShow e
    s.cond (s.aeState e == aeWaitFree && !segHeld (s.en e) (s.fget (aeStat e) F.AE_STATUS.SEG)) (fun s =>
      (s.updEn e (fun k => { k with freeAt := s.clk.start })).setAe e aeDead)

/-- Completed records of earlier ticks enter the FIFO in phase 5 (R255). -/
def State.aeRecords (s : State) (e : Nat) : State :=
  let k := s.en e
  let now_ := k.done.filter (fun r => decide (r.at_ < s.now))
  if now_.isEmpty then s
  else (s.updEn e (fun k => { k with
    recs := (k.recs ++ now_).take Config.recDepth, done := k.done.filter (fun r => !decide (r.at_ < s.now)) })).aeShow e

/-- The enable of an engine is requested (R234), in the class of its writer; with it the write that enables, if it is one, which
waits whole (R37). -/
def State.aeRequest (s : State) (e : Nat) (who : Writer) (cyc : Nat) (effs : List Eff) : State :=
  (s.request (.ae e) (classOf who) (classIndex who) who cyc (effs ++ [.aeOn e])).fset (aeStat e) F.AE_STATUS.EN_PEND 1

/-- The admitted engine enters IDLE (R234), unless EN has gone. -/
def State.aeAdmitted (s : State) (e : Nat) : State :=
  let s := s.fset (aeStat e) F.AE_STATUS.EN_PEND 0
  if s.eon (aeCtl e) F.AE_CTL.EN && !s.aeBarred e then
    (s.updEn e (fun k => { k with on := true })).cond (s.aeState e == aeOff) (fun s => s.setAe e aeIdle)
  else s.cond (!(s.en e).hold) (fun s => s.release [.ae e])

/-- The engine leaves its state as under STOP and is OFF (R234). -/
def State.aeOffNow (s : State) (e : Nat) : State :=
  let adm := s.staged.any (fun t => t.eff == .aeOn e)
  let s := ((s.withdraw (.ae e)).unstage (fun x => x == .aeOn e)).fset (aeStat e) F.AE_STATUS.EN_PEND 0
  let s := (s.aeStopNow e).cond (((s.en e).on || adm) && !(s.en e).hold) (fun s => s.release [.ae e])
  (s.updEn e (fun k => { k with on := false })).cond (!(s.en e).hold) (fun s => s.setAe e aeOff)

/-- The condition that held an engine OFF has ended: it requests admission again (R234), in the class of the writer of EN. -/
def State.aeAgain (s : State) (e : Nat) : State :=
  s.cond (s.eon (aeCtl e) F.AE_CTL.EN && !(s.en e).on && !s.aeBarred e && !s.hasReq (.ae e)
    && !s.staged.any (fun t => t.eff == .aeOn e)) (fun s => s.aeRequest e (againAs (s.en e).who (e / 2)) 0 [])

/-- `AE_CTLj` comes into force (R232, R234); a bank that has become ACTIVE since the write lets the engine ask now. -/
def State.applyAeCtl (s : State) (e : Nat) (v : Word) : State :=
  let old := s.eff (aeCtl e)
  let chg := F.AE_CTL.RANGE.get old != F.AE_CTL.RANGE.get v || F.AE_CTL.TERM.get old != F.AE_CTL.TERM.get v
    || F.AE_CTL.CH.get old != F.AE_CTL.CH.get v || F.AE_CTL.ROUTE_EN.get old != F.AE_CTL.ROUTE_EN.get v
  let s := (s.setEff (aeCtl e) v).cond chg (fun s => s.updEn e (fun k => { k with chg := true }))
  if F.AE_CTL.EN.on v then s.aeAgain e else s.aeOffNow e

/-- `AE_OFSj` comes into force (R232). -/
def State.applyAeOfs (s : State) (a e : Nat) (v : Word) : State :=
  let new := s.eff a != v
  (s.setEff a v).cond new (fun s => s.updEn e (fun k => { k with chg := true }))

/-- A written `AE_CTLj` enables the engine: EN goes from 0 to 1, or a write that waits to do so is replaced (R234, R37). -/
def State.aeRises (s : State) (e : Nat) (v : Word) : Bool :=
  F.AE_CTL.EN.on v && !s.eon (aeCtl e) F.AE_CTL.EN && (!s.fon (aeCtl e) F.AE_CTL.EN || s.hasReq (.ae e))

/-- A write of `AE_CTLj` reaches CORE (R234 to R236): GO and STOP act at the boundary; one that enables the engine is a request
and waits whole (R37); any other takes the place of one that waits. -/
def State.writeAeCtl (s : State) (e : Nat) (w : Wr) : State :=
  let a := aeCtl e
  let v := w.val &&& (regInfo a).rw
  let rise := s.aeRises e v
  let go := F.AE_CTL.GO.on w.val
  let stop := F.AE_CTL.STOP.on w.val
  let cmd : List Eff := if go || stop then [.ae e go stop] else []
  s.gated a (fun s =>
    if !accepts a w.val then s
    else if rise && !s.aeBarred e then
      if s.queueFull (classOf w.who) (.ae e) [.aeOn e] then s.inc A.TICK_BUDGET F.TICK_BUDGET.LEDGER_FULL 1
      else ((s.wr a v).updEn e (fun k => { k with who := w.who })).aeRequest e w.who w.cyc (.force a v :: cmd)
    else
      let s := s.cond rise (fun s => s.updEn e (fun k => { k with who := w.who }))
      let s := s.cond (!s.eon a F.AE_CTL.EN && s.hasReq (.ae e)) (fun s =>
        (s.withdraw (.ae e)).fset (aeStat e) F.AE_STATUS.EN_PEND 0)
      (Eff.force a v :: cmd).foldl (fun s x => s.stage (s.dueAt w.cyc) w.who x) (s.wr a v))

/-- Conditions 0 to 2 at a tick boundary, for the settings now in force: they make no transition (R246, R247, assumption 68). -/
def State.aeReform (s : State) (e : Nat) : State :=
  let k := s.en e
  let st := s.aeState e
  let v := s.eff (aeTrigReg e)
  let lane (f : Fld) : Bool := s.fon (A.LANE_CTL (f.get v)) F.LANE_CTL.LEVEL
  let c := [st != aeOff && st != aeCal && s.aeDetector e (k.cond.getD 0 false), lane F.AE_TRIG.LANE_A, lane F.AE_TRIG.LANE_B,
    k.cond.getD 3 false]
  if c == k.cond then s else s.updEn e (fun k => { k with cond := c })

/-- The flags of an engine at a tick boundary (R231), its conditions, and the transitions of the tick before whose trigger
sample lies in the tick that begins (R248). -/
def State.aeTick (s : State) (e : Nat) : State :=
  let a := aeStat e
  let c := s.eff (aeCtl e)
  let c0 := s.eff (aeCtl (e - 1))
  let conflict := e % 2 == 1 && s.aeLinked e && s.aeLinked (e - 1)
    && F.AE_CTL.CH.get c == F.AE_CTL.CH.get c0 && !F.AE_CTL.TERM.on c && !F.AE_CTL.TERM.on c0
  let s := (s.fbit a F.AE_STATUS.NOROUTE (!s.aeLinked e)).fbit a F.AE_STATUS.TERM_CONFLICT conflict
  (s.aeReform e).aeJudgeBy e s.clk.start s.tickEnd

/-- The input of the level detector reaches a level at an instant (R246): a transition to true may trigger, and lanes that
follow the detector have their edge (R276). -/
def State.aeCross (s : State) (e t : Nat) (level : Int) : State :=
  let s := s.updEn e (fun k => { k with level := level })
  if s.aeState e == aeOff || s.aeState e == aeCal then s
  else
    (s.condEdge e 0 (s.aeDetector e ((s.en e).cond.getD 0 false)) t true).lanesAt (t, true) (t, true)

/-- TRIGGER_TRANSITION (R245 to R250): the transition of a condition at an instant of the tick. That of the level detector comes
of its input; those of lanes and of the tick have come with the lane's edge and with the action. What has come by that instant is
judged, but for what the next tick's samples decide. -/
def State.aeTransition (s : State) (e cond : Nat) (i : Instant) (level : Int) : State :=
  let t := s.instant i.fine
  let s := s.cond (cond == 0) (fun s => s.aeCross e t level)
  s.aeJudgeBy e t s.tickEnd

/-- The counts of the engines in phase 5 (R258). -/
def State.aeEvents (s : State) (evs : List Ev) : State :=
  let s := (evs.filter (fun x => x.cls == evAe)).foldl (fun s x =>
    if x.kind = 0 then s.inc (A.AE_TRIGCNT (x.idx / 2) (x.idx % 2)) F.AE_TRIGCNT.COUNT 1
    else if x.kind = 1 then s.inc (A.AE_MISSED (x.idx / 2) (x.idx % 2)) F.AE_MISSED.COUNT 1
    else s) s
  s.upTo 24 State.aeRecords

/-! ### The commands -/

/-- AE_ENABLE (R234): the written control with EN = 1. -/
def execAeEnable (b : Fin 12) (j : Fin 2) (who : Writer) (s : State) : Host.Outcome State Fault Refusal :=
  let e := elemOf b j
  .next (s.writeAeCtl e ⟨who, F.AE_CTL.EN.put (s.rd (aeCtl e)) 1, 0⟩)

/-- AE_GO (R232, R235, R240). -/
def execAeGo (b : Fin 12) (j : Fin 2) (s : State) : Host.Outcome State Fault Refusal := .next (s.aeGoNow (elemOf b j))

/-- AE_STOP (R236, R252). -/
def execAeStop (b : Fin 12) (j : Fin 2) (s : State) : Host.Outcome State Fault Refusal := .next (s.aeStopNow (elemOf b j))

/-- AE_FORCE (R245): condition 3 for the tick. -/
def execAeForce (b : Fin 12) (j : Fin 2) (s : State) : Host.Outcome State Fault Refusal := .next (s.aeTrigger (elemOf b j))

/-- TRIGGER_TRANSITION (R245 to R251). -/
def execTriggerTransition (b : Fin 12) (j : Fin 2) (cond : Fin 4) (i : Instant) (level : Int) (s : State) :
    Host.Outcome State Fault Refusal := .next (s.aeTransition (elemOf b j) cond i level)

/-- RECORD_COMPLETE (R242, R243): a record whose last sample lies in the tick is complete. -/
def execRecordComplete (b : Fin 12) (j : Fin 2) (s : State) : Host.Outcome State Fault Refusal :=
  .next (s.aeCompleteBy (elemOf b j) s.tickEnd)

/-- SEGMENT_REARM (R243, R252): a segment whose first armed sample lies in the tick is armed. -/
def execSegmentRearm (b : Fin 12) (j : Fin 2) (s : State) : Host.Outcome State Fault Refusal :=
  .next (s.aeRearmBy (elemOf b j) s.tickEnd)

/-- RECORD_POP (R255): the pop takes effect at this boundary. -/
def execRecordPop (b : Fin 12) (j : Fin 2) (s : State) : Host.Outcome State Fault Refusal := .next (s.aePop (elemOf b j))

/-- AE_STATUS_READ (R429): REC_LOST clears. -/
def execAeStatusRead (b : Fin 12) (j : Fin 2) (s : State) : Host.Outcome State Fault Refusal :=
  .next (s.fset (aeStat (elemOf b j)) F.AE_STATUS.REC_LOST 0)

end Sys2Proof.Machine
end

