-- ==== Sys2Proof/Machine/Resp.lean ====
section
/-! DEFINITION. The responder (R161 to R177): pin groups, handover, bus cycles, drives and reports. -/

namespace Sys2Proof.Machine

/-- Bank channel `i` is in the address or the data group, or is the strobe or qualifier pin (R162). -/
def respPin (pins : Word) (i : Nat) : Bool :=
  let within (base w : Nat) : Bool := decide (base ≤ i) && decide (i < base + w)
  within (F.RESP_PINS.ABASE.get pins) (F.RESP_PINS.AW.get pins) || within (F.RESP_PINS.DBASE.get pins) (F.RESP_PINS.DW.get pins)
    || i == F.RESP_PINS.STB.get pins || i == F.RESP_PINS.QUAL.get pins

/-- The unit channels of the data group in PATTERN, with their bit numbers (R163). -/
def State.respData (s : State) (b : Nat) : List (Nat × Nat) :=
  let pins := (s.bk b).respPins
  ((List.range (F.RESP_PINS.DW.get pins)).map (fun j => (j, 64 * b + F.RESP_PINS.DBASE.get pins + j))).filter
    (fun p => s.funcEff p.2 == fnPattern)

/-- What a vector or the responder asks of the driver of a channel, from now on; the active load follows (R84). -/
def State.driveTo (s : State) (c : Nat) (d : Drive) : State := (s.updCh c (fun h => { h with pat := d })).setDrive c

/-- The driver of a channel is released: no edge of a vector is to come (R134, R173). -/
def State.driveOff (s : State) (c : Nat) : State :=
  (s.updCh c (fun h => { h with pat := .hiz, wave := [] })).setDrive c

/-- Every data pin high-impedance. -/
def State.respRelease (s : State) (b : Nat) : State :=
  ((s.respData b).foldl (fun s p => s.driveTo p.2 .hiz) s).updBk b (fun k => { k with respDrive := none })

/-- The data pins driven with an outcome (R168). -/
def State.respDriveTo (s : State) (b data oe : Nat) (keep : Bool) : State :=
  ((s.respData b).foldl (fun s p =>
    s.driveTo p.2 (if oe.testBit p.1 then (if data.testBit p.1 then .vih else .vil) else .hiz)) s).updBk b
      (fun k => { k with respDrive := some (data, oe, keep) })

/-- HANDOVER_START at an instant (R161, R173, R177): the registers in force apply, and the pins go high-impedance. -/
def State.handStart (s : State) (b t : Nat) : State :=
  if (s.bk b).hand || !s.eon (A.RESP_CTL b) F.RESP_CTL.EN then s
  else
    let s := s.updBk b (fun k => { k with
      hand := true, handFrom := t, handEnded := none, handTo := none
      respCtl := s.eff (A.RESP_CTL b), respPins := s.eff (A.RESP_PINS b), respWin := s.eff (A.RESP_WIN b)
      respMiss := s.eff (A.RESP_MISS b), respDrive := none })
    let pins := (s.bk b).respPins
    let s := s.each ((List.range 64).filter (respPin pins)) (fun s i =>
      s.cond (s.funcEff (64 * b + i) == fnPattern) (fun s => s.driveOff (64 * b + i)))
    (s.fset (A.RESP_STAT b) F.RESP_STAT.CFG_PEND 0).fset (A.RESP_STAT b) F.RESP_STAT.ACTIVE 1

/-- The end of a handover at an instant (R174, R175): every drive ends. -/
def State.handEnd (s : State) (b t : Nat) : State :=
  if !(s.bk b).hand then s
  else
    ((s.respRelease b).updBk b (fun k => { k with hand := false, handEnded := some t, handTo := none })).fset
      (A.RESP_STAT b) F.RESP_STAT.ACTIVE 0

/-- A handover whose end is fixed ends once that instant is reached (R175). -/
def State.handDue (s : State) (b t : Nat) : State :=
  match (s.bk b).handTo with
  | some e => s.cond (decide (e ≤ t)) (fun s => s.handEnd b e)
  | none => s

/-- A handover under way ends with the vector in progress (R175). -/
def State.handLast (s : State) (b : Nat) : State :=
  s.updBk b (fun k => { k with handTo := if k.hand then some k.endAt else none })

/-- A responder register comes into force (R177). -/
def State.applyResp (s : State) (a b : Nat) (v : Word) : State :=
  let s := s.setEff a v
  let k := s.bk b
  if !k.hand then s
  else s.fbit (A.RESP_STAT b) F.RESP_STAT.CFG_PEND
    (s.eff (A.RESP_CTL b) != k.respCtl || s.eff (A.RESP_PINS b) != k.respPins || s.eff (A.RESP_WIN b) != k.respWin
      || s.eff (A.RESP_MISS b) != k.respMiss)

/-- A sensed pin at an instant: the raw output H of a channel in PATTERN, 0 of any other (R163, R164). -/
def State.sensed (s : State) (c t : Nat) : Bool := s.funcEff c == fnPattern && (s.pointAt c t).h

/-- The address formed from the address pins at an instant (R163, R166); the 16 bits of A hold no more of them
(assumption 62). -/
def State.respAddr (s : State) (b t : Nat) : Nat :=
  let pins := (s.bk b).respPins
  ((List.range (F.RESP_PINS.AW.get pins)).filter (fun i =>
    s.sensed (64 * b + F.RESP_PINS.ABASE.get pins + i) t)).foldl (fun m i => m + 2 ^ i) 0 % 2 ^ 16

/-- H changes to `up` at an instant, in a list of outputs that is newest first. -/
def edgeAt (t : Nat) (up : Bool) : List CmpPt → Bool
  | [] => false
  | p :: rest => (p.at_ == t && p.h == up && (rest.head?.map (·.h)) == some (!up)) || edgeAt t up rest

/-- Fine units of 10 ns, the least spacing of cycles (R165). -/
def cycleGap : Nat := 6144

/-- Fine units from which a handover accepts strobe edges: 2.0 ns (R173). -/
def handGap : Nat := 1229

/-- The responder accepts a strobe edge of this instant: in a handover that has run for 2.0 ns, and before its end
(R161, R173, R174). -/
def State.respAccepts (s : State) (b t : Nat) : Bool :=
  let k := s.bk b
  !k.cut && decide (k.handFrom + handGap ≤ t)
    && (k.hand || (match k.handEnded with | some e => decide (t < e) | none => false))

/-- The fields of a responder RAM entry (R167). -/
def entValid : Fld := ⟨35, 1⟩
@[inherit_doc entValid] def entTerm : Fld := ⟨34, 1⟩
@[inherit_doc entValid] def entKeep : Fld := ⟨33, 1⟩
@[inherit_doc entValid] def entMark : Fld := ⟨32, 1⟩
@[inherit_doc entValid] def entOe : Fld := ⟨16, 16⟩
@[inherit_doc entValid] def entData : Fld := ⟨0, 16⟩

/-- The reports of a hit (R171, R176). -/
def State.respHit (s : State) (b addr : Nat) (e : Word) (st : Stamp) : State :=
  let k := s.bk b
  let s := (s.inc (A.RESP_HITS b) F.RESP_HITS.HITS 1).wr (A.RESP_LAST b)
    (F.RESP_LAST.VALID.put (F.RESP_LAST.ADDR.put 0 addr) 1)
  let s := (s.event evResp b 0 st).cond (entMark.on e) (fun s => s.event evResp b 1 st)
  s.cond (entTerm.on e) (fun s =>
    let m := 2 ^ F.RESP_CTL.FLAG.get k.respCtl
    let set := F.RESP_CTL.TVAL.on k.respCtl
    ((s.raiseF (A.RESP_STAT b) F.RESP_STAT.TERM).stage (s.now + 2) .responder
      (.flags b (if set then m else 0) (if set then 0 else m))).event evResp b 2 st)

/-- The reports of a miss (R170, R171). -/
def State.respMissed (s : State) (b addr : Nat) (st : Stamp) : State :=
  let k := s.bk b
  let s := (s.inc (A.RESP_ERRS b) F.RESP_ERRS.MISSES 1).wr (A.RESP_LAST b)
    (F.RESP_LAST.VALID.put (F.RESP_LAST.MISS.put (F.RESP_LAST.ADDR.put 0 addr) 1) 1)
  let s := s.cond (!s.fon (A.RESP_FIRSTMISS b) F.RESP_FIRSTMISS.VALID) (fun s =>
    s.wr (A.RESP_FIRSTMISS b) (F.RESP_FIRSTMISS.VALID.put (F.RESP_FIRSTMISS.ADDR.put 0 addr) 1))
  (s.event evResp b 3 st).cond (F.RESP_CTL.MISS_FAULT.on k.respCtl) (fun s => s.updBk b (fun k => { k with missNow := true }))

/-- A cycle at an instant (R166 to R171, R174). `cut` says that its output instant falls after the end of the handover. -/
def State.respCycle (s : State) (b t : Nat) (cut : Bool) : State :=
  let k := s.bk b
  let addr := s.respAddr b t
  let e := s.memRd (A.RESP_RAM b (addr % 4096))
  let inWin := ((addr / 4096) ^^^ F.RESP_WIN.MATCH.get k.respWin) &&& F.RESP_WIN.MASK.get k.respWin == 0
  let hit := inWin && entValid.on e
  let st := s.stampAt t true
  let s := if hit then s.respHit b addr e st else s.respMissed b addr st
  if cut || !k.hand then s.inc (A.RESP_ERRS b) F.RESP_ERRS.CUT 1
  else if hit then s.respDriveTo b (entData.get e) (entOe.get e) (entKeep.on e)
  else if F.RESP_CTL.MISS_DRV.on k.respCtl then
    s.respDriveTo b (F.RESP_MISS.DATA.get k.respMiss) (F.RESP_MISS.OE.get k.respMiss) false
  else s.respDriveTo b 0 0 false

/-- BUS_CYCLE (R164, R165): the active edge of the strobe pin at an instant of the current tick begins a cycle, or is too close
to the one before; an edge whose qualifier is inactive is none. -/
def State.busCycle (s : State) (b fine : Nat) (cut : Bool) : State :=
  let t := s.instant fine
  let s := s.handDue b t
  let k := s.bk b
  let stb := 64 * b + F.RESP_PINS.STB.get k.respPins
  let edge := s.funcEff stb == fnPattern && edgeAt t (!F.RESP_CTL.STB_EDGE.on k.respCtl) (s.ch stb).pts
    && (match k.lastEdge with | some e => decide (e < t) | none => true)
  if !F.RESP_CTL.EN.on k.respCtl || !s.respAccepts b t || !edge then s
  else
    let s := s.updBk b (fun k => { k with lastEdge := some t })
    if F.RESP_CTL.QUAL_EN.on k.respCtl
        && s.sensed (64 * b + F.RESP_PINS.QUAL.get k.respPins) t != F.RESP_CTL.QUAL_POL.on k.respCtl then s
    else if (match k.lastCycle with | some e => decide (t < e + cycleGap) | none => false) then
      s.inc (A.RESP_ERRS b) F.RESP_ERRS.OVR 1
    else (s.updBk b (fun k => { k with lastCycle := some t })).respCycle b t cut

/-- DATA_HOLD_END (R169): HOLD CONV periods after the strobe's inactive edge the drive of an outcome without KEEP ends. -/
def State.holdEnd (s : State) (b fine : Nat) : State :=
  let t := s.instant fine
  let s := s.handDue b t
  let k := s.bk b
  let stb := 64 * b + F.RESP_PINS.STB.get k.respPins
  match k.respDrive with
  | some (_, _, false) =>
    s.cond ((s.pointAt stb t).h == F.RESP_CTL.STB_EDGE.on k.respCtl
        && decide ((s.ch stb).hAt + 128 * F.RESP_CTL.HOLD.get k.respCtl ≤ t)) (fun s => s.respRelease b)
  | _ => s

/-! ### The commands -/

/-- BUS_CYCLE (R163 to R171, R176). -/
def execBusCycle (b : Fin 12) (fine : Nat) (cut : Bool) (s : State) : Host.Outcome State Fault Refusal :=
  .next (s.busCycle b fine cut)

/-- DATA_HOLD_END (R169). -/
def execDataHoldEnd (b : Fin 12) (fine : Nat) (s : State) : Host.Outcome State Fault Refusal := .next (s.holdEnd b fine)

/-- RESPONDER_RAM_WRITE (R172): the entry is replaced whole. -/
def execResponderRamWrite (b : Fin 12) (entry : Fin 4096) (val : Word) (s : State) : Host.Outcome State Fault Refusal :=
  let a := A.RESP_RAM b entry
  .next (s.gated a (fun s => s.memWr a val))

/-- RESP_HITS_READ (R429). -/
def execRespHitsRead (b : Fin 12) (s : State) : Host.Outcome State Fault Refusal := .next (s.wr (A.RESP_HITS b) 0)

/-- RESP_ERRS_READ (R429): the three fields clear on one read. -/
def execRespErrsRead (b : Fin 12) (s : State) : Host.Outcome State Fault Refusal := .next (s.wr (A.RESP_ERRS b) 0)

/-- RESP_FIRSTMISS_READ (R429): VALID and ADDR clear. -/
def execRespFirstmissRead (b : Fin 12) (s : State) : Host.Outcome State Fault Refusal := .next (s.wr (A.RESP_FIRSTMISS b) 0)

end Sys2Proof.Machine
end

