-- ==== Sys2Proof/Machine/Vigil.lean ====
section
/-! DEFINITION. Vigil (R107 to R124, R415, R463): the correlators, the always-on island with its wake flags and WAKE_N, the
Enelle receiver, and what crosses C8 and C9. -/

namespace Sys2Proof.Machine

/-- CORE runs the tick: RUNNING or DEEP_PENDING (R115, R120). -/
def State.coreRuns (s : State) : Bool := s.unit.st == .running || s.unit.st == .deepPending

/-! ### Wake flags and WAKE_N (R119, R120) -/

/-- The device pulls WAKE_N (R120); flags that were set at the entry to RUNNING do not pull while AUTO_REL is 1 in the island
(assumption 65). -/
def State.wakePull (s : State) : Bool :=
  let st := if F.WAKE_CTL.AUTO_REL.on s.isl.ctl then s.rd A.WAKE_STATUS &&& ~~~s.isl.autoRel else s.rd A.WAKE_STATUS
  let banks := F.WAKE_STATUS.BANK.get st &&& F.WAKE_CTL.BANK_PULL.get s.isl.ctl
  banks != 0
    || ((F.WAKE_STATUS.EUNIT.on st || F.WAKE_STATUS.EBCAST.on st) && F.WAKE_CTL.ENELLE_PULL.on s.isl.ctl)
    || s.isl.rtWake

/-- WAKE_N and its reports follow the flags; each pull is a wake event of the service counter (R120, R270). -/
def State.refreshWake (s : State) : State :=
  let p := s.wakePull
  let start := p && !s.isl.wakeN
  let s := ((s.fbit A.WAKE_STATUS F.WAKE_STATUS.WAKEN_LOW p).fbit A.WAKE_STATUS F.WAKE_STATUS.ROUTER s.isl.rtWake).fbit
    A.RT_STATUS F.RT_STATUS.WAKE s.isl.rtWake
  let s := s.updIsl (fun i => { i with wakeN := p })
  if !start then s
  else if s.coreRuns then s.bsCount bsWakes 1
  else s.updIsl (fun i => { i with wakeEvents := i.wakeEvents + 1 })

/-- A wake flag's setting cause (R119): 0 a deep-vigil match, 1 a latch (R100). -/
def State.setWakeFlag (s : State) (b ch cause : Nat) : State :=
  let a := A.WAKE_BANK b
  let s := s.updIsl (fun i => { i with causes := i.causes ||| 2 ^ b })
  let s := if s.fon A.WAKE_STATUS (F.WAKE_STATUS.BANK.bit b) then s
    else ((s.fset A.WAKE_STATUS (F.WAKE_STATUS.BANK.bit b) 1).wr a
        (F.WAKE_BANK.CAUSE.put (F.WAKE_BANK.FIRST_CH.put 0 ch) cause)).wr (A.WAKE_TIME b) (BitVec.ofNat 36 s.isl.time)
  (s.cond (cause == 0) (fun s => s.inc a F.WAKE_BANK.COUNT 1)).refreshWake

/-- Wake flags cleared in the island, but for those with a setting cause present (R119). -/
def State.clearWakeFlags (s : State) (v : Word) : State :=
  let level := (s.latched F.CH_ROUTE.WAKE_EN).map bankOf
  let keep (i : Nat) : Bool := s.isl.causes.testBit i || (decide (i < 12) && level.contains i)
  (s.each ((maskList 14 v.toNat).filter (fun i => !keep i)) (fun s i =>
    let s := (s.fset A.WAKE_STATUS ⟨i, 1⟩ 0).updIsl (fun k => { k with autoRel := k.autoRel &&& ~~~((1 : Word) <<< i) })
    s.cond (decide (i < 12)) (fun s => (s.wr (A.WAKE_BANK i) 0).wr (A.WAKE_TIME i) 0))).refreshWake

/-- Entry to RUNNING notes the flags that are set, which AUTO_REL releases (R120); the wake events counted while CORE did not run are counted. -/
def State.autoRelease (s : State) : State :=
  let s := s.updIsl (fun i => { i with autoRel := s.rd A.WAKE_STATUS &&& 0x3fff })
  let n := s.isl.wakeEvents
  ((s.cond (decide (0 < n)) (fun s => s.bsCount bsWakes n)).updIsl (fun i => { i with wakeEvents := 0 })).refreshWake

/-- Channels whose latch asks for the wake flag (R100): what is not yet set or on its way crosses C9. -/
def State.wakeLevel (s : State) : State :=
  s.each (s.latched F.CH_ROUTE.WAKE_EN) (fun s c =>
    let b := bankOf c
    if s.fon A.WAKE_STATUS (F.WAKE_STATUS.BANK.bit b)
        || s.isl.c9.any (fun x => match x with | .latch b' _ => b' == b | _ => false) then s
    else s.toC9 (.latch b (c % 64)))

/-! ### The correlator (R108, R111) -/

/-- Chips that differ from the code; the newest chip is compared with bit 0. -/
def chipErrors (chips : List Bool) (code : Nat) : Nat :=
  ((List.range 32).filter (fun i => chips.getD i false != code.testBit i)).length

/-- A chip enters the history; the answer says whether the history now matches, in which case it is emptied (R111). -/
def State.takeChip (s : State) (c : Nat) (above : Bool) (ctl code : Word) : State × Bool :=
  let chip := above != F.CH_VIGIL_CTL.INV.on ctl
  let chips := (chip :: (s.ch c).chips).take 32
  let hit := chips.length == 32
    && decide (chipErrors chips (F.CH_VIGIL_CODE.CODE.get code) ≤ F.CH_VIGIL_CTL.MAXERR.get ctl)
  let left := if hit then [] else chips
  let s := (s.updCh c (fun h => { h with chips := left })).fset (A.CH_VIGIL_STAT c) F.CH_VIGIL_STAT.FILL left.length
  (s.cond s.coreRuns (fun s => s.fbit (A.CH_VIGIL_STAT c) F.CH_VIGIL_STAT.CHIP chip), hit)

/-- A light-vigil sample at the current tick instant (R107, R114 to R116). -/
def State.lightSample (s : State) (c : Nat) (above : Bool) : State :=
  let (s, hit) := s.takeChip c above (s.eff (A.CH_VIGIL_CTL c)) (s.eff (A.CH_VIGIL_CODE c))
  s.cond hit (fun s => s.eventT evChan c 14)

/-- A deep-vigil sample (R107, R114 to R116): a match sets the wake flag and crosses C8 while CORE runs, with the start of the
CORE cycle of the edge as its timestamp. -/
def State.deepSample (s : State) (c : Nat) (above : Bool) (cyc : Nat) : State :=
  let (s, hit) := s.takeChip c above (s.ch c).sCtl (s.ch c).sCode
  if !hit then s
  else (s.cond s.coreRuns (fun s => s.updCh c (fun h => { h with deepMatch := h.deepMatch ++ [s.stamp (cycleFine cyc) false] }))).setWakeFlag
    (bankOf c) (c % 64) 0

/-- A level in µV is above the threshold of light vigil, that of `CH_CMPH` in force (R107, R108). -/
def State.aboveLight (s : State) (c : Nat) (level : Int) : Bool := aboveCode level (s.eget (A.CH_CMPH c) F.CH_CMPH.CODE) 0

/-- A level in µV is above the threshold of deep vigil, VTH × 1.5625 mV as the sampler holds it (R107, R108). -/
def State.aboveDeep (s : State) (c : Nat) (level : Int) : Bool :=
  decide ((F.CH_VIGIL_CTL.VTH.get (s.ch c).sCtl : Int) * 3125 < 2 * level)

/-- One vigil sample of a channel with a level in µV at its pin, by the kind of vigil in force; `cyc` is the CORE cycle of a
deep-vigil sample. -/
def State.vigilSample (s : State) (c : Nat) (level : Int) (cyc : Nat) : State :=
  let f := s.funcEff c
  if f = fnLight then s.cond s.coreRuns (fun s => s.lightSample c (s.aboveLight c level))
  else if f = fnDeep then
    s.cond ((s.ch c).sampler && s.unit.vaon && s.unit.vdda) (fun s => s.deepSample c (s.aboveDeep c level) cyc)
  else s

/-- A vigil match in phase 5 (R114). -/
def State.vigilEvent (s : State) (e : Ev) : State :=
  let c := e.idx
  let s := ((s.raiseF (A.CH_VIGIL_STAT c) F.CH_VIGIL_STAT.MATCH).inc (A.CH_VIGIL_CNT c) F.CH_VIGIL_CNT.COUNT 1).wr
    (A.CH_VIGIL_TS_LO c) e.st.word0
  s.updCh c (fun h => { h with vTs1 := e.st.word1 })

/-- The matches of the tick before, in phase 5. -/
def State.vigilEvents (s : State) (evs : List Ev) : State :=
  (evs.filter (fun e => e.cls == evChan && e.kind == 14)).foldl State.vigilEvent s

/-! ### The Enelle receiver (R122 to R124) -/

/-- The level of a half-chip: held by at least 3 of its 4 samples. -/
def halfLevel (l : List Bool) : Option Bool :=
  let n := (l.filter id).length
  if 3 ≤ n then some true else if n ≤ 1 then some false else none

/-- The value of a chip of 8 samples, newest first. -/
def enelleChip (l : List Bool) : Option Bool :=
  match halfLevel (l.drop 4), halfLevel (l.take 4) with
  | some x, some y => if x == y then none else some y
  | _, _ => none

/-- Mismatches of the last 256 samples against a word; an invalid chip counts as one. -/
def enelleErrors (samples : List Bool) (word : Nat) : Nat :=
  ((List.range 32).filter (fun i => enelleChip ((samples.drop (8 * i)).take 8) != some (word.testBit i))).length

/-- The receiver is powered (R124). -/
def State.enelleOn (s : State) : Bool := F.WAKE_CTL.UNIT_EN.on s.isl.ctl || F.WAKE_CTL.BCAST_EN.on s.isl.ctl

/-- A match of the unit word, the broadcast word or both (R123, R124). -/
def State.enelleHit (s : State) (unit bcast : Bool) : State :=
  let first := !s.fon A.WAKE_STATUS F.WAKE_STATUS.EUNIT && !s.fon A.WAKE_STATUS F.WAKE_STATUS.EBCAST
  let s := s.cond first (fun s => s.wr A.WAKE_ETIME (BitVec.ofNat 36 s.isl.time))
  let s := (s.cond unit (fun s => s.fset A.WAKE_STATUS F.WAKE_STATUS.EUNIT 1)).cond bcast
    (fun s => s.fset A.WAKE_STATUS F.WAKE_STATUS.EBCAST 1)
  let s := s.updIsl (fun i => { i with
    samples := []
    causes := i.causes ||| (bit01 unit * 2 ^ 12) ||| (bit01 bcast * 2 ^ 13)
    enelle := if s.coreRuns then i.enelle ++ [(unit, bcast)] else i.enelle })
  s.refreshWake

/-- A WAKEIN sample, decoded with the 255 before it (R123). -/
def State.enelleSample (s : State) (wakein : Bool) : State :=
  if !s.enelleOn then s.updIsl (fun i => { i with samples := [] })
  else
    let samples := (wakein :: s.isl.samples).take 256
    let s := s.updIsl (fun i => { i with samples := samples })
    if samples.length < 256 then s
    else
      let m := F.WAKE_CTL.MAXERR.get s.isl.ctl
      let unit := F.WAKE_CTL.UNIT_EN.on s.isl.ctl && decide (enelleErrors samples s.isl.code.toNat ≤ m)
      let bcast := F.WAKE_CTL.BCAST_EN.on s.isl.ctl && decide (enelleErrors samples s.isl.bcode.toNat ≤ m)
      s.cond (unit || bcast) (fun s => s.enelleHit unit bcast)

/-! ### C9 (R26) -/

/-- A value that has crossed C9 takes effect in the VIGIL domain, whole. -/
def State.applyC9 (s : State) : C9 → State
  | .ctl v => (s.updIsl (fun i => { i with ctl := v })).refreshWake
  | .code bcast v => s.updIsl (fun i => if bcast then { i with bcode := v } else { i with code := v })
  | .clear v => s.clearWakeFlags v
  | .latch b ch => s.setWakeFlag b ch 1
  | .wake on => (s.updIsl (fun i => { i with rtWake := on })).refreshWake
  | .sampler c on ctl code =>
    let s := (s.updCh c (fun h => { h with sampler := on, sCtl := ctl, sCode := code })).cond
      (s.funcEff c == fnDeep) (fun s => s.emptyHistory c)
    s.fbit (A.CH_VIGIL_STAT c) F.CH_VIGIL_STAT.PEND
      (s.isl.c9.any (fun x => match x with | .sampler c' _ _ _ => c' == c | _ => false))

/-- Two values that cross C9 go to the same place: the later is held until the earlier is acknowledged (R26). Transfers for
different channels proceed in parallel (R126). -/
def C9.same : C9 → C9 → Bool
  | .ctl _, .ctl _ => true
  | .code b _, .code c _ => b == c
  | .clear _, .clear _ => true
  | .latch b _, .latch c _ => b == c
  | .wake _, .wake _ => true
  | .sampler c _ _ _, .sampler d _ _ _ => c == d
  | _, _ => false

/-- A transfer is acknowledged, and the value held behind it follows (R26): of the values that go where the `n`-th goes, the
oldest takes effect. -/
def State.c9Done (s : State) (n : Nat) : State :=
  match s.isl.c9[n]? with
  | none => s
  | some x =>
    match s.isl.c9.find? x.same with
    | none => s
    | some y => (s.updIsl (fun i => { i with c9 := i.c9.eraseP x.same })).applyC9 y

/-! ### The commands -/

/-- VIGIL_MATCH (R111, R114): the sample that completes a match. -/
def execVigilMatch (c : Fin 768) (level : Int) (cyc : Nat) (s : State) : Host.Outcome State Fault Refusal :=
  .next (s.vigilSample c level cyc)

/-- DEEP_MATCH_TO_CORE (R116): the oldest match that crosses C8 occurs in the current tick, with its own timestamp. -/
def execDeepMatchToCore (c : Fin 768) (s : State) : Host.Outcome State Fault Refusal :=
  match (s.ch c).deepMatch with
  | [] => ok s
  | st :: rest =>
    let s := s.updCh c (fun h => { h with deepMatch := rest })
    .next (s.cond s.coreRuns (fun s => s.event evChan c 14 st))

/-- C9_TRANSFER_DONE (R26). -/
def execC9TransferDone (n : Nat) (s : State) : Host.Outcome State Fault Refusal := .next (s.c9Done n)

/-- WAKE_STATUS_CLEAR (R119): the clear crosses C9. -/
def execWakeStatusClear (val : Word) (s : State) : Host.Outcome State Fault Refusal :=
  .next (s.toC9 (.clear (val &&& 0x3fff)))

/-- ENELLE_MATCH (R123, R124): a match of an enabled word. -/
def execEnelleMatch (unit bcast : Bool) (s : State) : Host.Outcome State Fault Refusal :=
  let u := unit && F.WAKE_CTL.UNIT_EN.on s.isl.ctl
  let b := bcast && F.WAKE_CTL.BCAST_EN.on s.isl.ctl
  .next (s.cond (u || b) (fun s => s.enelleHit u b))

/-- ENELLE_WAKE_EVENT (R124): the oldest result that crosses C8 becomes the Enelle wake events of the current tick; a result
is held in the island while CORE does not run, and then makes none. -/
def execEnelleWakeEvent (_ _ : Bool) (s : State) : Host.Outcome State Fault Refusal :=
  match s.isl.enelle with
  | [] => ok s
  | (u, b) :: rest =>
    let s := s.updIsl (fun i => { i with enelle := rest })
    .next ((s.cond (s.coreRuns && u) (fun s => s.eventT evUnit 0 0)).cond (s.coreRuns && b)
      (fun s => s.eventT evUnit 0 1))

/-- DEEP_VIGIL_REQUEST (R126): a write of DEEP_REQ in RUNNING; in any other state it is ignored. -/
def execDeepVigilRequest (cyc : Nat) (s : State) : Host.Outcome State Fault Refusal :=
  .next (s.cond (s.unit.st == .running) (fun s => s.stage (s.dueAt cyc) (.host .a) .deep))

/-- XT32_FAILURE (R415): the oscillator stops. -/
def execXt32Failure (s : State) : Host.Outcome State Fault Refusal :=
  .next (((s.fset A.CLK_STATUS F.CLK_STATUS.XT32_OK 0).updIsl (fun i => { i with running := false })).raiseIf
    (s.unit.st == .running && s.fon A.CLK_STATUS F.CLK_STATUS.XT32_OK) A.FAULT_STATUS F.FAULT_STATUS.XT32)

/-- OSCILLATOR_RESTART (R409, R415): XT32_OK rises and sampling resumes. -/
def execOscillatorRestart (s : State) : Host.Outcome State Fault Refusal :=
  .next ((s.fset A.CLK_STATUS F.CLK_STATUS.XT32_OK 1).updIsl (fun i => { i with running := true }))

/-- VIGIL_CLOCK_EDGE (R107, R123, R463): VIGIL_TIME increments; the deep-vigil channels whose divider is due take a chip, in
ascending order of the command's list; the Enelle receiver samples WAKEIN. -/
def execVigilClockEdge (wakein : Bool) (cyc : Nat) (pins : List (Fin 768 × Int)) (s : State) : Host.Outcome State Fault Refusal :=
  let t := (s.isl.time + 1) % 2 ^ 36
  let s := s.updIsl (fun i => { i with time := t, running := true, causes := 0 })
  let s := s.wr A.VIGIL_TIME (BitVec.ofNat 36 t)
  let s := pins.foldl (fun s p =>
    let c := p.1.val
    s.cond (s.funcEff c == fnDeep && t % 2 ^ F.CH_VIGIL_CTL.K.get (s.ch c).sCtl == 0) (fun s => s.vigilSample c p.2 cyc)) s
  .next (s.enelleSample wakein)

/-- CH_VIGIL_TS_LO_READ (R114, R430). -/
def execChVigilTsLoRead (c : Fin 768) (h : Side) (s : State) : Host.Outcome State Fault Refusal :=
  .next (s.latch h (A.CH_VIGIL_TS_HI c) (s.ch c).vTs1)

end Sys2Proof.Machine
end

