-- ==== Sys2Proof/Machine/Banks.lean ====
section
/-! DEFINITION. Bank power states (R17, R18, R21, R155), the die fault conditions (R412), and what takes a bank to SAFE: error
halts, aborts and bank faults (R156, R158, R409, R417). -/

namespace Sys2Proof.Machine

/-! ### PLLs and die fault conditions -/

/-- A CONV PLL is started (R21). -/
def State.pllStart (s : State) (d : Nat) : State := s.updUnit (fun u => { u with pllOn := u.pllOn ||| 2 ^ d })

/-- A CONV PLL stops (R21). -/
def State.pllStop (s : State) (d : Nat) : State :=
  (s.updUnit (fun u => { u with pllOn := u.pllOn &&& (127 - 2 ^ d), pllLost := u.pllLost &&& (127 - 2 ^ d) })).fset
    A.CLK_STATUS (F.CLK_STATUS.CONV_LOCK.bit d) 0

/-- The PLL reports lock. -/
def State.pllLocked (s : State) (d : Nat) : Bool := s.fon A.CLK_STATUS (F.CLK_STATUS.CONV_LOCK.bit d)

/-- The temperature register of die `d`: 0 to 5 pin dies, 6 the RF die, 7 the core die. -/
def tempReg (d : Nat) : Nat := if d < 6 then A.TEMP_PIN d else if d = 6 then A.TEMP_RF else A.TEMP_CORE

/-- The die has reached 125.0 °C and no sample at or below 115.0 °C has followed (R412). -/
def State.hot (s : State) (d : Nat) : Bool := s.fon (tempReg d) F.TEMP_CORE.HOT

/-- A die fault condition of a pin die or, with 6, of the RF die (R412). -/
def State.dieCond (s : State) (d : Nat) : Bool :=
  !s.fon A.DIE_LINK_STATUS (F.DIE_LINK_STATUS.LINK_UP.bit d) || s.unit.pllLost.testBit d || s.hot d
    || (if d < 6 then !s.unit.vpos.testBit d || !s.unit.vneg.testBit d else !s.unit.vrf)

/-- A request for ACTIVE of this bank waits (R412): its die's or the core die's fault condition holds. -/
def State.activeBarred (s : State) (b : Nat) : Bool := s.dieCond (dieOfBank b) || s.hot 7

/-! ### Moves between the power states (R18, R155) -/

/-- `BANK_STATUS.MODE_PEND` follows what is still outstanding. -/
def State.bankPend (s : State) (b : Nat) : State :=
  let k := s.bk b
  s.fbit (A.BANK_STATUS b) F.BANK_STATUS.MODE_PEND
    (s.hasReq (.bank b) || k.dieWait.isSome || k.pllWait
      || s.staged.any (fun t => match t.eff with | .bank c _ => c == b | _ => false))

/-- The sequencer stops: its state, its wait and what it had pending (R155, R156). The vector in progress goes on. -/
def State.seqHalt (s : State) (b st : Nat) : State :=
  let s := s.withdrawWreg b
  ((s.updBk b (fun k => { k with
      wait := .none, firstAt := none, err := none, matched := none, rep := 0, reps := [], wregAsked := false, wregReady := false
      wregAdm := [] })).fset (A.BANK_STATUS b) F.BANK_STATUS.SEQ st).fset (A.BANK_STATUS b) F.BANK_STATUS.LEDGER_WAIT 0

/-- The sequencer stops now and the vector in progress is cut off, with its strobes, its edges and a handover (R156, R175). -/
def State.seqCut (s : State) (b st : Nat) : State :=
  let s := (s.handEnd b s.clk.start).updBk b (fun k => { k with strobes := [] })
  let s := s.each ((bankChans b).filter (fun c => !(s.ch c).wave.isEmpty)) (fun s c => s.updCh c (fun h => { h with wave := [] }))
  s.seqHalt b st

/-- What stops as a bank leaves ACTIVE (R18, R80, R155, R175, R196, R212, R234). -/
def State.leaveActive (s : State) (b : Nat) : State :=
  let s := s.each (bankChans b) (fun s c =>
    s.cond (s.funcEff c != fnOff && !isVigil (s.funcEff c)) (fun s => s.holdChan c))
  let s := (s.pmcBankStop b).upTo 2 (fun s j => (s.srcOffNow (elemOf b j)).aeOffNow (elemOf b j))
  let q := s.seqState b
  if q == sqRunning || q == sqWaiting || q == sqHalted then s.seqCut b sqIdle else s

/-- A bank moves to a power state (R18, R155). -/
def State.moveBank (s : State) (b st : Nat) : State :=
  let old := s.bankState b
  if old = st then s
  else
    let s := (s.fset (A.BANK_STATUS b) F.BANK_STATUS.STATE st).updBk b (fun k => { k with cut := false })
    let s := s.cond (old == bankActive) (fun s => s.leaveActive b)
    if st = bankOff then
      let s := s.each (bankChans b) (fun s c => s.cond (s.funcEff c != fnOff) (fun s => s.holdChan c))
      let s := s.cond (s.seqState b == sqArmed) (fun s => s.seqHalt b sqIdle)
      s.release [.bankBase b]
    else
      let s := s.cond (old == bankOff) (fun s => s.pllStart (dieOfBank b))
      let s := s.reRequest b (bankChans b)
      s.cond (st == bankActive) (fun s => s.upTo 2 (fun s j => (s.srcAgain (elemOf b j)).aeAgain (elemOf b j)))

/-- The CONV PLL of a die stops once both its banks are OFF (R21): after every move of a boundary. -/
def State.pllIdle (s : State) (d : Nat) : State :=
  s.cond (s.unit.pllOn.testBit d && (dieBanks d).all (fun x => s.bankState x == bankOff))
    (fun s => (s.release [.pll d]).pllStop d)

/-- A bank request takes effect (R155): ACTIVE is reached through SAFE until the PLL reports lock. -/
def State.applyBank (s : State) (b req : Nat) : State :=
  let s := (s.updBk b (fun k => { k with pllWait := false })).setEff (A.BANK_MODE b) (BitVec.ofNat 36 req)
  (if req = bankActive then
    if s.pllLocked (dieOfBank b) then s.moveBank b bankActive
    else (s.cond (s.bankState b == bankOff) (fun s => s.moveBank b bankSafe)).updBk b (fun k => { k with pllWait := true })
  else s.moveBank b req).bankPend b

/-- BANK_ACTIVE_ENTRY (R155): a bank that waited for lock enters ACTIVE. -/
def State.pllEntry (s : State) (b : Nat) : State :=
  if (s.bk b).pllWait && s.pllLocked (dieOfBank b) then
    ((s.updBk b (fun k => { k with pllWait := false })).moveBank b bankActive).bankPend b
  else s

/-- At the first boundary after the CONV PLL of a die reports lock, the channels that it held off ask again (R21, R80). -/
def State.lockEntry (s : State) (d : Nat) : State :=
  let now := s.pllLocked d
  let s := s.cond (now && !s.unit.lockPrev.testBit d) (fun s => s.each (dieBanks d) (fun s b =>
    s.cond (s.bankState b != bankOff) (fun s => s.reRequest b (bankChans b))))
  s.updUnit (fun u => { u with lockPrev := if now then u.lockPrev ||| 2 ^ d else u.lockPrev &&& (127 - 2 ^ d) })

/-- The request written stands as handled: `BANK_MODE` still reads it (R7, R155). -/
def State.settleReq (s : State) (b : Nat) : State := s.setEff (A.BANK_MODE b) (s.rd (A.BANK_MODE b))

/-- Every request of a power state of the bank ends. -/
def State.dropBankRequests (s : State) (b : Nat) : State :=
  ((((s.settleReq b).withdraw (.bank b)).unstage (fun e => match e with | .bank c _ => c == b | _ => false)).updBk b
    (fun k => { k with pllWait := false, dieWait := none })).bankPend b

/-- The effect asks for ACTIVE of the bank. -/
def asksActive (b : Nat) : Eff → Bool
  | .bank c req => c == b && req == bankActive
  | _ => false

/-- The charges of a bank that is OFF and has nothing under way are withdrawn (R155). -/
def State.uncharge (s : State) (b : Nat) : State :=
  let d := dieOfBank b
  let idle (x : Nat) : Bool := s.bankState x == bankOff && s.bankNext x == bankOff
  s.cond (idle b) (fun s => (s.release [.bankBase b]).cond ((dieBanks d).all idle && !s.unit.pllOn.testBit d)
    (fun s => s.release [.pll d]))

/-- A request of the bank for ACTIVE that does not prevail is consumed (R155): one that waits, and one that would take
effect at this boundary, with what has been charged for it. -/
def State.consumeRequest (s : State) (b : Nat) : State :=
  let lost (t : Staged) : Bool := asksActive b t.eff && decide (t.due ≤ s.now)
  let k := s.bk b
  if !(s.staged.any lost || s.led.queue.any (fun r => r.effs.any (asksActive b)) || k.pllWait || k.dieWait.isSome) then s
  else
    let s := (s.updStaged (fun l => l.filter (fun t => !lost t))).updLed (fun l => { l with
      queue := l.queue.filterMap (fun r =>
        if r.effs.any (asksActive b) then
          (let e := r.effs.filter (fun x => !asksActive b x)
           if e.isEmpty then none else some { r with effs := e })
        else some r) })
    (((s.settleReq b).updBk b (fun k => { k with pllWait := false, dieWait := none })).uncharge b).bankPend b

/-- A request of a power state in the class of its writer (R155, R412). -/
def State.requestBank (s : State) (b req : Nat) (who : Writer) (cyc : Nat) : State :=
  let s := s.updBk b (fun k => { k with dieWait := none })
  let s := if req = bankActive ∧ s.activeBarred b then (s.withdraw (.bank b)).updBk b (fun k => { k with dieWait := some who })
    else s.request (.bank b) (classOf who) (classIndex who) who cyc [.bank b req]
  s.fset (A.BANK_STATUS b) F.BANK_STATUS.MODE_PEND 1

/-- A request that waited for a die fault condition is submitted once that ends (R412). -/
def State.submitWaiting (s : State) (b : Nat) : State :=
  match (s.bk b).dieWait with
  | some who => if s.activeBarred b then s else s.requestBank b bankActive who 0
  | none => s

/-- A write of `BANK_MODE` reaches CORE (R155); one that the router's request of the same boundary outranks leaves no trace
(R272). -/
def State.writeBankMode (s : State) (b : Nat) (w : Wr) : State :=
  let a := A.BANK_MODE b
  let req := F.BANK_MODE.REQ.get w.val
  s.gated a (fun s =>
    if !accepts a w.val || s.outranked a (s.dueAt w.cyc) w.who then s
    else if !(req = bankActive && s.activeBarred b) && s.queueFull (classOf w.who) (.bank b) [.bank b req] then
      s.inc A.TICK_BUDGET F.TICK_BUDGET.LEDGER_FULL 1
    else (s.wr a (w.val &&& (regInfo a).rw)).requestBank b req w.who w.cyc)

/-! ### Error halts, aborts and faults (R156, R158, R409, R417) -/

/-- An error halt completes (R158): the bank is SAFE and the sequencer ERROR; code FAULT is a bank fault of R17. -/
def State.errHaltNow (s : State) (b code : Nat) : State :=
  let a := A.BANK_STATUS b
  let fault := (s.bk b).fault.getD (0, 0)
  let s := (s.consumeRequest b).updBk b (fun k => { k with fault := none })
  if code = 10 ∧ s.bankState b ≠ bankActive then s
  else
    let s := (s.moveBank b bankSafe).seqCut b sqError
    let s := (s.fset a F.BANK_STATUS.ERR code).eventT evBank b 2
    if code = 10 then
      (s.raiseF A.FAULT_STATUS (F.FAULT_STATUS.BANK.bit b)).wr (A.FAULT_BANK b)
        (F.FAULT_BANK.CAUSE.put (F.FAULT_BANK.INDEX.put (F.FAULT_BANK.TICK.put 0 (s.clk.count % 2 ^ 24)) fault.2) fault.1)
    else (s.fset (A.SEQ_PC b) F.SEQ_PC.PC (s.bk b).line).raiseF A.FAULT_STATUS F.FAULT_STATUS.PROG

/-- ABORT takes effect (R156): the vector is cut off, the bank moves to SAFE. -/
def State.abortNow (s : State) (b : Nat) : State :=
  (((s.consumeRequest b).seqCut b sqAborted).cond (s.bankState b == bankActive) (fun s => s.moveBank b bankSafe)).fset
    (A.BANK_STATUS b) F.BANK_STATUS.SEQ sqAborted

/-- A die fault is recorded (R17, R417): the first cause of the die, the lowest code of those that reach it together. -/
def State.dieFaultNow (s : State) (d cause : Nat) : State :=
  let f : Fld := ⟨4 * d, 4⟩
  let old := s.fget A.FAULT_DIE f
  let here := s.setBits.any (fun p => p.1 == A.FAULT_STATUS && p.2.getLsbD (16 + d))
  (s.cond (old == 0 || (here && decide (cause < old))) (fun s => s.fset A.FAULT_DIE f cause)).raiseF A.FAULT_STATUS
    (F.FAULT_STATUS.DIE.bit d)

/-- A fault of a die reaches CORE (R17): every bank of a pin die that is ACTIVE in force faults with it; a fault of the core
die reaches every bank (R409). -/
def State.dieFault (s : State) (d cause : Nat) : State :=
  let banks := if d < 6 then dieBanks d else if d = 7 then List.range 12 else []
  let s := s.updUnit (fun u => { u with dieFaults := u.dieFaults ++ [(d, cause)] })
  s.each banks (fun s b => s.cond (s.bankState b == bankActive) (fun s => s.bankFault b 3 d))

/-- The faults of the window are recorded (R417): they take effect at the boundary that ends it, with the reload requests of
`ALMANAC_CTL.AUTO_BANK` (R372). -/
def State.recordFaults (s : State) : State :=
  let s := s.unit.dieFaults.foldl (fun s p => s.stageNext (.dieFault p.1 p.2)) s
  let s := s.updUnit (fun u => { u with dieFaults := [] })
  s.upTo 12 (fun s b =>
    if (s.bk b).fault.isSome && s.bankState b == bankActive then
      (s.stageNext (.errHalt b 10)).cond ((s.eget A.ALMANAC_CTL F.ALMANAC_CTL.AUTO_BANK).testBit b)
        (fun s => s.stageNext (.reload b))
    else s)

/-- The writes of 1 to `FAULT_STATUS` take effect (R416): cause records clear with their bits. -/
def State.clearFaults (s : State) (m : Word) : State :=
  let s := s.w1c A.FAULT_STATUS (m &&& (regInfo A.FAULT_STATUS).w1c)
  let s := s.each ((List.range 8).filter (fun d => m.getLsbD (16 + d) && !s.fon A.FAULT_STATUS (F.FAULT_STATUS.DIE.bit d)))
    (fun s d => s.fset A.FAULT_DIE ⟨4 * d, 4⟩ 0)
  s.each ((List.range 12).filter (fun b => m.getLsbD (24 + b) && !s.fon A.FAULT_STATUS (F.FAULT_STATUS.BANK.bit b)))
    (fun s b => s.wr (A.FAULT_BANK b) 0)

/-! ### The commands -/

/-- BANK_MODE_REQUEST (R155, R412). -/
def execBankModeRequest (b : Fin 12) (w : Wr) (s : State) : Host.Outcome State Fault Refusal := .next (s.writeBankMode b w)

/-- FAULT_STATUS_CLEAR (R416): the clear takes effect at the next tick boundary. -/
def execFaultStatusClear (val : Word) (s : State) : Host.Outcome State Fault Refusal :=
  .next (s.stageNext (.clear A.FAULT_STATUS (val &&& (regInfo A.FAULT_STATUS).w1c)))

end Sys2Proof.Machine
end

