-- ==== Sys2Proof/Machine/Rf.lean ====
section
/-! DEFINITION. RF ports, synthesisers and coexistence (R286 to R312). -/

namespace Sys2Proof.Machine

/-- Transmit side IDLE (`RF_STATUS.TX`). -/
def txIdle : Nat := 0
/-- Transmit side WAIT. -/
def txWait : Nat := 1
/-- Transmit side COEX. -/
def txCoex : Nat := 2
/-- Transmit side ACTIVE. -/
def txActive : Nat := 3
/-- Port DISABLED. -/
def txDisabled : Nat := 4

/-- `RF_STATUS.TX` of a port. -/
def State.txState (s : State) (p : Nat) : Nat := s.fget (A.RF_STATUS p) F.RF_STATUS.TX

/-- The transmit side moves to a state. -/
def State.setTx (s : State) (p st : Nat) : State := s.fset (A.RF_STATUS p) F.RF_STATUS.TX st

/-- A condition of R286, R28 or R412 makes the port DISABLED. -/
def State.portOff (s : State) (p : Nat) : Bool :=
  s.unit.st != .running || s.dieCond 6 || s.hot 7 || s.fon (A.RF_STATUS p) F.RF_STATUS.UNCAL || s.rfReload

/-- Receive is in force (R310). -/
def State.rxEff (s : State) (p : Nat) : Bool := s.fon (A.RF_STATUS p) F.RF_STATUS.RX_EFF

/-- The port holds a transmit command: WAIT, COEX or ACTIVE. -/
def State.txHeld (s : State) (p : Nat) : Bool :=
  let t := s.txState p
  t == txWait || t == txCoex || t == txActive

/-! ### The output of a transmit (R286, R298, R299) -/

/-- The fine units of a CONV period. -/
def convFine : Nat := 128

/-- The chip period of the command in fine units (R298). -/
def Port.chipFine (k : Port) : Nat := F.RF_OOK.CHIP.get k.ook * convFine

/-- The chips of a pass (R298). -/
def Port.passLen (k : Port) : Nat := F.RF_OOK.LEN1.get k.ook + 1

/-- The value of chip `i` of the transmit, counted from its first one: bit 31 of `RF_PAT0` comes first in each pass (R298). -/
def Port.chip (k : Port) (i : Nat) : Bool :=
  let j := i % k.passLen
  (k.pat.getD (j / 32) 0).getLsbD (31 - j % 32)

/-- The part of chip `i` in which the carrier is on, from and to, in fine units since S (R298): the whole chip or nothing, or a
half of a Manchester chip. -/
def Port.onSpan (k : Port) (i : Nat) : Nat × Nat :=
  let c := k.chipFine
  let half := F.RF_OOK.CHIP.get k.ook / 2 * convFine
  if F.RF_TXCMD.MODE.get k.cmd = 2 then
    (if k.chip i then (i * c + half, (i + 1) * c) else (i * c, i * c + half))
  else if k.chip i then (i * c, (i + 1) * c) else (i * c, i * c)

/-- The carrier is on at some instant from `t0` to before `t1` of a transmit that runs all that time (R298). -/
def Port.onIn (k : Port) (t0 t1 : Nat) : Bool :=
  if t1 ≤ t0 then false
  else if F.RF_TXCMD.MODE.get k.cmd = 0 then true
  else
    let a := t0 - k.startFine
    let b := t1 - k.startFine
    let i := a / k.chipFine
    (List.range ((b - 1) / k.chipFine + 1 - i)).any (fun j =>
      let p := k.onSpan (i + j)
      decide (max p.1 a < min p.2 b))

/-- The instant at which the last chip ends (R299), in fine units since reset; none without an end of its own. -/
def Port.lastChip (k : Port) : Option Nat :=
  if F.RF_TXCMD.MODE.get k.cmd = 0 ∨ F.RF_TXCMD.REPS.get k.cmd = 0 then none
  else some (k.startFine + F.RF_TXCMD.REPS.get k.cmd * k.passLen * k.chipFine)

/-- The boundary at which the DUR ticks of a continuous carrier end (R298, R299). -/
def Port.lastTick (k : Port) : Option Nat :=
  if F.RF_TXCMD.MODE.get k.cmd = 0 ∧ F.RF_TXCMD.DUR.get k.cmd ≠ 0 then some (k.started + F.RF_TXCMD.DUR.get k.cmd) else none

/-- The power amplifier of a port (R286). -/
inductive Pa where
  | off | muted | on
  deriving DecidableEq, Repr

/-- The power amplifier of a port at an instant of the tick, in fine units since reset (R286, R298, R299). -/
def State.pa (s : State) (p t : Nat) : Pa :=
  let k := s.pt p
  if s.portOff p || !s.txHeld p then .off
  else if s.txState p == txActive && k.onIn t (t + 1) && decide (k.startFine ≤ t)
      && (match k.endFine with | some e => decide (t < e) | none => true)
      && (match k.lastChip with | some e => decide (t < e) | none => true) then .on
  else .muted

/-- The frequency in hertz at which a port transmits, and about which it receives (R289). -/
def State.rfFreq (s : State) (p : Nat) : Nat := s.eget (A.SYN_FREQ (s.synOf p)) F.SYN_FREQ.FREQ

/-- The centre of the receive channel in hertz (R310). -/
def State.rxCentre (s : State) (p : Nat) : Int := s.rfFreq p + twos 16 (s.eget (A.RF_RXCTL p) F.RF_RXCTL.OFS) * 1000

/-- The level of the carrier, in 0.25 dBm (R298, R302). -/
def State.rfLevel (s : State) (p : Nat) : Int := 40 - (s.eget (A.RF_LEVEL p) F.RF_LEVEL.LEVEL : Int)

/-- The most that a port emits at an instant, in 0.25 dBm: the carrier's level while it is on, and else what a muted port
leaves, the greater of that level less 70 dB and −145 dBm (R286, R298, R302). -/
def State.rfOutput (s : State) (p t : Nat) : Int := if s.pa p t = .on then s.rfLevel p else max (s.rfLevel p - 280) (-580)

/-- The tuner of a port (R306): its shunts on the device side and on the ball side in 0.01 pF, and its series inductance in 0.1 nH. -/
def State.tuner (s : State) (p : Nat) : Nat × Nat × Nat :=
  (8 * s.eget (A.RF_TUNE p) F.RF_TUNE.SHUNT_IN, 8 * s.eget (A.RF_TUNE p) F.RF_TUNE.SHUNT_OUT, 2 * s.eget (A.RF_TUNE p) F.RF_TUNE.SERIES)

/-- The output switch of a port joins its ball to the tuner (R286); it is open while the port is calibrated (R325). -/
def State.switchClosed (s : State) (p : Nat) : Bool :=
  !s.portOff p && !s.fon (A.RF_STATUS p) F.RF_STATUS.CAL && (s.txHeld p || s.rxEff p)

/-! ### Receive (R310 to R312) -/

/-- Receive is in force or has been admitted. -/
def State.rxHeld (s : State) (p : Nat) : Bool := s.rxEff p || (s.pt p).rxWait

/-- Receive is blanked (R311). -/
def State.rxBlanked (s : State) (p : Nat) : Bool :=
  !s.fon (A.SYN_STATUS (s.synOf p)) F.SYN_STATUS.LOCK || s.txState p == txActive || s.portOff p

/-- Blanking begins (R311, R312). -/
def State.rxBlank (s : State) (p : Nat) : State :=
  (s.fset (A.RF_RXPWR p) F.RF_RXPWR.VALID 0).updPt p (fun k => { k with rxArmed := false, rxSince := none })

/-- Blanking ends at an instant if nothing blanks receive any longer (R311). -/
def State.rxUnblank (s : State) (p t : Nat) : State :=
  s.cond (s.rxEff p && !s.rxBlanked p && (s.pt p).rxSince.isNone) (fun s => s.updPt p (fun k => { k with rxSince := some t }))

/-- Blanking of every port that a synthesiser feeds. -/
def State.rxBlankSyn (s : State) (y : Nat) : State := s.upTo 8 (fun s p => s.cond (s.synOf p == y) (fun s => s.rxBlank p))

/-- Receive ends (R310). -/
def State.rxEnd (s : State) (p : Nat) : State :=
  if !s.rxHeld p then s
  else
    let s := s.cond (decide (0 < committedOf s.led.committed (.rx p))) (fun s => s.release [.rx p])
    ((s.fset (A.RF_STATUS p) F.RF_STATUS.RX_EFF 0).rxBlank p).updPt p (fun k => { k with rxWait := false })

/-- Receive comes into force at the current boundary (R310). -/
def State.rxInForce (s : State) (p : Nat) : State :=
  ((s.fset (A.RF_STATUS p) F.RF_STATUS.RX_EFF 1).rxBlank p).updPt p (fun k => { k with
    rxWait := false, rxFrom := s.clk.start, rxIdx := 0 })

/-- Receive has been admitted (R310): it comes into force unless EN has gone, but not before the RF die's PLL is locked
(R21). -/
def State.rxStart (s : State) (p : Nat) : State :=
  if !s.eon (A.RF_RXCTL p) F.RF_RXCTL.EN then s.release [.rx p]
  else if s.pllLocked 6 then s.rxInForce p
  else s.updPt p (fun k => { k with rxWait := true })

/-- `RF_RXCTL` comes into force (R310, R311). The intervals of a new RBW run from this boundary (assumption 70). -/
def State.applyRxCtl (s : State) (p : Nat) (v : Word) : State :=
  let old := s.eff (A.RF_RXCTL p)
  let s := s.setEff (A.RF_RXCTL p) v
  let s := s.cond (F.RF_RXCTL.EN.put old 0 != F.RF_RXCTL.EN.put v 0) (fun s => s.rxBlank p)
  let s := s.cond (F.RF_RXCTL.RBW.get old != F.RF_RXCTL.RBW.get v) (fun s => s.updPt p (fun k => { k with
    rxFrom := s.clk.start, rxIdx := 0 }))
  s.cond (!F.RF_RXCTL.EN.on v) (fun s => s.rxEnd p)

/-- A write of `RF_RXCTL` reaches CORE (R310): one that enables receive is a request and waits whole (R37); any other takes the
place of one that waits. -/
def State.writeRxCtl (s : State) (p : Nat) (w : Wr) : State :=
  let a := A.RF_RXCTL p
  let v := w.val &&& (regInfo a).rw
  let was := F.RF_RXCTL.EN.on (s.effBefore a (s.dueAt w.cyc))
  let rise := F.RF_RXCTL.EN.on v && !was && (!s.fon a F.RF_RXCTL.EN || s.hasReq (.rx p))
  s.gated a (fun s =>
    if !accepts a w.val then s
    else if rise then
      if s.queueFull (classOf w.who) (.rx p) [.rxOn p] then s.inc A.TICK_BUDGET F.TICK_BUDGET.LEDGER_FULL 1
      else if s.rxHeld p then
        -- receive that is in force until a boundary before this write's ends and is requested anew
        (s.wr a v).enqueue (.rx p) (classOf w.who) (classIndex w.who) w.who w.cyc [.force a v, .rxOn p]
      else (s.wr a v).request (.rx p) (classOf w.who) (classIndex w.who) w.who w.cyc [.force a v, .rxOn p]
    else
      let s := s.cond (!was) (fun s => s.withdraw (.rx p))
      (s.wr a v).stage (s.dueAt w.cyc) w.who (.force a v))

/-- The detection threshold in 1/16 dBm. -/
def State.rxThresh (s : State) (p : Nat) : Int := 160 - 4 * (s.eget (A.RF_RXCTL p) F.RF_RXCTL.THRESH : Int)

/-- The length of a measurement interval, 1/RBW, in fine units (R310). -/
def State.rxLen (s : State) (p : Nat) : Nat := 61440000 / 10 ^ s.eget (A.RF_RXCTL p) F.RF_RXCTL.RBW

/-- The next measurement interval that ends in the current tick: its number and the instant of its end (R310). -/
def State.rxNext (s : State) (p : Nat) : Option (Nat × Nat) :=
  let k := s.pt p
  let n := max k.rxIdx ((s.clk.start - k.rxFrom + s.rxLen p - 1) / s.rxLen p - 1)
  let e := k.rxFrom + (n + 1) * s.rxLen p
  if e < s.tickEnd then some (n, e) else none

/-- The detector after an interval of power `pwr` that ended at the instant `e` (R312). -/
def State.rxDetect (s : State) (p : Nat) (pwr : Int) (e : Nat) : State :=
  let thr := s.rxThresh p
  if (s.pt p).rxArmed then
    if thr ≤ pwr then
      ((s.updPt p (fun k => { k with rxArmed := false })).raiseF (A.RF_STATUS p) F.RF_STATUS.RX_DET).eventAt evRf p 4 e false
    else s
  else s.cond (decide (pwr < thr - 16)) (fun s => s.updPt p (fun k => { k with rxArmed := true }))

/-- The end of a measurement interval with the channel power measured over it (R310 to R312); one that overlaps blanking is
discarded. -/
def State.rxInterval (s : State) (p : Nat) (pwr : Int) : State :=
  match (if s.rxEff p then s.rxNext p else none) with
  | none => s
  | some (n, e) =>
    let s := s.updPt p (fun k => { k with rxIdx := n + 1 })
    let whole := match (s.pt p).rxSince with
      | some t => decide (t + s.rxLen p ≤ e)
      | none => false
    if s.rxBlanked p || !whole then s
    else (s.wr (A.RF_RXPWR p) (F.RF_RXPWR.VALID.put (F.RF_RXPWR.PWR.put 0 (untwos 12 (clampInt (-1920) 160 pwr)))
      1)).rxDetect p pwr e

/-! ### Synthesisers (R288 to R293) -/

/-- A reason of R288 that keeps synthesiser `y` charged. -/
def State.synReason (s : State) (y : Nat) : Bool :=
  s.eon (A.SYN_CTL y) F.SYN_CTL.EN || s.fon (A.SYN_STATUS y) F.SYN_STATUS.CAL
    || s.rt.grants.any (fun g => g.1 == .syn y && g.2 == .cal)
    || (List.range 8).any (fun p =>
      (s.synOf p == y && (s.rxHeld p || (s.pt p).admitted)) || (s.rxHeld p && (s.pt p).synTo == some y))

/-- A synthesiser runs (R288): a reason holds, and the RF die's PLL is locked. -/
def State.synRuns (s : State) (y : Nat) : Bool :=
  s.pllLocked 6 && !s.rfReload && s.unit.vrf
    && (s.eon (A.SYN_CTL y) F.SYN_CTL.EN || s.fon (A.SYN_STATUS y) F.SYN_STATUS.CAL
      || (List.range 8).any (fun p => s.synOf p == y && (s.rxEff p || ((s.pt p).admitted && (s.pt p).grant))))

/-- SETTLING after a start or a change (R289, R290). -/
def State.synSettle (s : State) (y : Nat) : State :=
  (((s.fset (A.SYN_STATUS y) F.SYN_STATUS.SETTLING 1).fset (A.SYN_STATUS y) F.SYN_STATUS.LOCK 0).updSy y (fun k =>
    { k with lockAt := false })).rxBlankSyn y

/-- RUN follows R288; a synthesiser that stops clears LOCK without an event, one that starts is SETTLING (R290). -/
def State.refreshSyn (s : State) (y : Nat) : State :=
  let a := A.SYN_STATUS y
  let on := s.synRuns y
  if on == s.fon a F.SYN_STATUS.RUN then s
  else
    let s := s.fbit a F.SYN_STATUS.RUN on
    if on then s.synSettle y
    else (((s.fset a F.SYN_STATUS.SETTLING 0).fset a F.SYN_STATUS.LOCK 0).updSy y (fun k => { k with lockAt := false
      })).rxBlankSyn y

/-- A new frequency takes effect, or waits for the grant or the calibration to end (R289). -/
def State.synFreq (s : State) (y hz : Nat) : State :=
  let a := A.SYN_STATUS y
  if s.fget a F.SYN_STATUS.HOLDER != 0 || s.fon a F.SYN_STATUS.CAL then
    (s.updSy y (fun k => { k with freqTo := some hz })).fset a F.SYN_STATUS.FREQ_PEND 1
  else
    let new := s.eget (A.SYN_FREQ y) F.SYN_FREQ.FREQ != hz
    let s := (s.updSy y (fun k => { k with freqTo := none })).fset a F.SYN_STATUS.FREQ_PEND 0
    let s := s.setEff (A.SYN_FREQ y) (F.SYN_FREQ.FREQ.put (s.eff (A.SYN_FREQ y)) hz)
    s.cond (new && s.fon a F.SYN_STATUS.RUN) (fun s => s.synSettle y)

/-- The grant of a synthesiser ends, and a frequency that waited takes effect (R289, R299). -/
def State.synFree (s : State) (y : Nat) : State :=
  let a := A.SYN_STATUS y
  let s := s.updRt (fun r => { r with grants := r.grants.filter (fun g => g.1 != .syn y) })
  let s := (s.fset a F.SYN_STATUS.HOLDER 0).fset a F.SYN_STATUS.HPORT 0
  match (s.sy y).freqTo with
  | some hz => s.synFreq y hz
  | none => s

/-- A granted calibration begins (R291). -/
def State.synCalBegin (s : State) (y : Nat) : State :=
  let a := A.SYN_STATUS y
  ((((s.fset a F.SYN_STATUS.CAL 1).fset a F.SYN_STATUS.LOCK 0).fset a F.SYN_STATUS.SETTLING 0).updSy y (fun k =>
    { k with lockAt := false })).rxBlankSyn y

/-- `SYN_CAL.DUE` from a temperature sample of the RF die in 1/16 °C (R292). -/
def State.synDue (s : State) (y : Nat) (t : Int) : State :=
  let a := A.SYN_CAL y
  let step := s.fget (A.SYN_TEMP_STEP y) F.SYN_TEMP_STEP.STEP
  let d := (t - twos 12 (s.fget a F.SYN_CAL.TEMP)).natAbs
  s.cond (!s.fon a F.SYN_CAL.VALID || (step != 0 && decide (8 * step < d))) (fun s => s.fset a F.SYN_CAL.DUE 1)

/-- LOCK rises (R290, R293): a synthesiser with VALID = 0 never locks. -/
def State.synLock (s : State) (y : Nat) (i : Instant) : State :=
  let a := A.SYN_STATUS y
  if !s.fon a F.SYN_STATUS.RUN || s.fon a F.SYN_STATUS.CAL || s.fon a F.SYN_STATUS.LOCK
      || !s.fon (A.SYN_CAL y) F.SYN_CAL.VALID then s
  else
    let s := (s.fset a F.SYN_STATUS.LOCK 1).fset a F.SYN_STATUS.SETTLING 0
    let s := s.upTo 8 (fun s p => s.cond (s.synOf p == y) (fun s => s.rxUnblank p (s.instant i.fine)))
    (s.cond (i.fine == 0) (fun s => s.updSy y (fun k => { k with lockAt := true }))).event evRf (8 + y) 0
      (s.stamp i.fine false)

/-- The charges of R288 follow their reasons, and the RF die's PLL the base (R21). -/
def State.rfCharges (s : State) : State :=
  let has (i : Item) : Bool := decide (0 < committedOf s.led.committed i)
  let gone := [0, 1].filter (fun y => has (.syn y) && !s.synReason y)
  let s := s.cond (!gone.isEmpty) (fun s => s.release (gone.map Item.syn))
  let base := s.synReason 0 || s.synReason 1 || (List.range 8).any (fun p => s.rxHeld p || (s.pt p).admitted)
  let s := s.cond (has .rfBase && !base) (fun s => s.release [.rfBase])
  let on := (has .rfBase && base) || (List.range 8).any (fun p => has (.calEl (912 + p)))
  if on == s.unit.pllOn.testBit 6 then s else if on then s.pllStart 6 else s.pllStop 6

/-- Charges, PLL and synthesisers at a boundary, once their reasons have changed (R288, R299). -/
def State.rfSettle (s : State) : State := (s.rfCharges).upTo 2 State.refreshSyn

/-! ### The transmit command (R294 to R301) -/

/-- The port's synthesiser changes (R287), unless its port holds a transmit command. -/
def State.synSelect (s : State) (p y : Nat) : State :=
  if s.txHeld p then
    (s.updPt p (fun k => { k with synTo := if s.synOf p = y then none else some y })).fbit (A.RF_STATUS p)
      F.RF_STATUS.SYN_PEND (s.synOf p != y)
  else
    let new := s.synOf p != y
    let s := (s.setEff (A.RF_CTL p) (F.RF_CTL.SYN.put (s.eff (A.RF_CTL p)) y)).updPt p (fun k => { k with synTo := none })
    (s.fset (A.RF_STATUS p) F.RF_STATUS.SYN_PEND 0).cond new (fun s => s.rxBlank p)

/-- RFREQ and its report (R303). -/
def State.setRfreq (s : State) (on : Bool) : State :=
  (s.updUnit (fun u => { u with rfreq := on, tail := none })).fbit A.COEX_STATUS F.COEX_STATUS.RFREQ on

/-- A command or a transmit needs RFREQ (R303). -/
def State.rfreqNeed (s : State) : Bool :=
  (List.range 8).any (fun p =>
    let t := s.txState p
    ((t == txWait || t == txCoex) && (s.pt p).ready) || t == txCoex || (t == txActive && !(s.pt p).ended))

/-- RFREQ at a tick boundary (R303): it falls TAIL ticks after the last need. -/
def State.refreshRfreq (s : State) : State :=
  let c := s.eff A.COEX_CTL
  if !F.COEX_CTL.EN.on c || s.rfReload then s.setRfreq false
  else if s.rfreqNeed then s.setRfreq true
  else if !s.unit.rfreq || s.unit.tail.isSome then s
  else if F.COEX_CTL.TAIL.get c = 0 then s.setRfreq false
  else s.updUnit (fun u => { u with tail := some (s.now + F.COEX_CTL.TAIL.get c) })

/-- The port holds no command any longer: requests, grant and charge go, and a SYN change that waited takes effect
(R287, R297, R299, R301). -/
def State.txFree (s : State) (p : Nat) : State :=
  let y := s.synOf p
  let s := (s.withdraw (.tx p)).unstage (fun e => e == .txAdm p || e == .txCut p)
  let s := s.updRt (fun r => { r with arbs := r.arbs.filter (fun a => !(a.res == .syn y && a.tag == p && a.cls != .cal)) })
  let s := s.cond (decide (0 < committedOf s.led.committed (.tx p))) (fun s => s.release [.tx p])
  let had := (s.pt p).grant
  let s := s.updPt p (fun k => { k with
    admitted := false, grant := false, ready := false, startAt := none, ended := false, who := .host .a })
  let s := s.setTx p (if s.portOff p then txDisabled else txIdle)
  let s := s.cond had (fun s => s.synFree y)
  let s := match (s.pt p).synTo with
    | some y' => s.synSelect p y'
    | none => s
  (s.rfSettle).refreshRfreq

/-- A command is dropped (R297): at a boundary. -/
def State.txDrop (s : State) (p cause : Nat) : State :=
  (((s.txFree p).raiseF (A.RF_STATUS p) F.RF_STATUS.TX_DROPPED).fset (A.RF_STATUS p) F.RF_STATUS.DROP_CAUSE cause).eventT
    evRf p 2

/-- A transmit ends at instant E, in fine units since reset (R299); what it holds is released at the first boundary at or after
E. -/
def State.txEnd (s : State) (p e : Nat) : State :=
  if s.txState p != txActive || (s.pt p).ended then s
  else
    let s := (s.eventAt evRf p 1 e false).updPt p (fun k => { k with ended := true, endFine := some e })
    s.cond (decide (e ≤ s.clk.start)) (fun s => s.txFree p)

/-- A running transmit is cut (R300). -/
def State.txCut (s : State) (p e : Nat) : State :=
  if s.txState p != txActive || (s.pt p).ended then s
  else (s.raiseF (A.RF_STATUS p) F.RF_STATUS.TX_CUT).txEnd p e

/-- A transmit that ends by itself before the instant `t` ends (R298, R299). -/
def State.txEndBy (s : State) (p t : Nat) : State :=
  let k := s.pt p
  match k.lastChip, k.lastTick with
  | some e, _ => s.cond (decide (e < t)) (fun s => s.txEnd p e)
  | none, some n => s.cond (decide (n ≤ s.now)) (fun s => s.txEnd p s.clk.start)
  | none, none => s

/-- A command is issued (R294, R301): it asks the arbiter for the synthesiser and the ledger for its charges, from the window
`frm` on. -/
def State.txIssue (s : State) (p : Nat) (who : Writer) (frm : Nat) : State :=
  if s.txHeld p || s.staged.any (fun t => t.eff == .txDrop p 4) then s.raiseF (A.RF_STATUS p) F.RF_STATUS.TX_IGN
  else if s.portOff p then s.stage (frm + 1) who (.txDrop p 4)
  else
    let s := (s.updPt p (fun k => { k with
      issue := frm + 1, who, grant := false, admitted := false, ready := false, startAt := none, ended := false, endFine := none })).setTx p txWait
    let s := s.arbRequest (.syn (s.synOf p)) (classOf who) (classIndex who) who frm p
    s.request (.tx p) (classOf who) (classIndex who) who (if frm ≤ s.now then 0 else Config.lastWriteCycle) [.txAdm p]

/-- STOP takes effect (R301). -/
def State.txStop (s : State) (p : Nat) : State :=
  if s.txState p == txActive then s.txEnd p s.clk.start
  else s.cond (s.txHeld p) (fun s => s.txFree p)

/-- A write of `RF_TXCMD` reaches CORE (R294, R301): GO is handled by phase 3, whose first cycle is 122 (R44, R46); of GO and
STOP together, STOP acts. -/
def State.writeTxCmd (s : State) (p : Nat) (w : Wr) : State :=
  let a := A.RF_TXCMD p
  let stop := F.RF_TXCMD.STOP.on w.val
  let go := F.RF_TXCMD.GO.on w.val && !stop
  s.gated a (fun s =>
    if !accepts a w.val then s
    else if go && !s.txHeld p && s.queueFull (classOf w.who) (.tx p) [.txAdm p] then
      s.inc A.TICK_BUDGET F.TICK_BUDGET.LEDGER_FULL 1
    else
      let s := s.writeAt a w
      let s := s.cond go (fun s => s.txIssue p w.who (if w.cyc ≤ 122 then s.now else s.now + 1))
      s.cond stop (fun s => s.stage (s.dueAt w.cyc) w.who (.txStop p)))

/-- The command is ready in this window (R294). -/
def State.txReady (s : State) (p : Nat) : Bool :=
  let k := s.pt p
  (s.txState p == txWait || s.txState p == txCoex) && decide (k.issue ≤ s.now + 1)
    && !s.portOff p && !s.fon (A.RF_STATUS p) F.RF_STATUS.CAL
    && (k.admitted || s.staged.any (fun t => t.eff == .txAdm p)) && k.grant && (s.sy (s.synOf p)).lockAt

/-- A port's command in a window (R295, R303 to R305): when it is ready it starts at the next boundary, or passes through
COEX. -/
def State.txWindow (s : State) (p : Nat) : State :=
  if s.txState p != txWait && s.txState p != txCoex then s
  else
    let ok := s.txReady p
    let s := s.updPt p (fun k => { k with ready := ok, startAt := none })
    if !ok then s.setTx p txWait
    else if !s.eon A.COEX_CTL F.COEX_CTL.EN || (s.unit.rfreq && s.unit.rfgnt) then
      s.updPt p (fun k => { k with startAt := some (s.now + 1) })
    else if s.txState p == txCoex then s
    else (s.setTx p txCoex).updPt p (fun k => { k with coexAt := s.now + 1 })

/-- RFGNT low during a transmit (R304). -/
def State.gntWindow (s : State) : State :=
  let on := (List.range 8).filter (fun p => s.txState p == txActive && !(s.pt p).ended)
  if !s.eon A.COEX_CTL F.COEX_CTL.EN || s.unit.rfgnt || on.isEmpty then s
  else
    (s.raiseF A.COEX_STATUS F.COEX_STATUS.GNT_LOST).cond (s.eon A.COEX_CTL F.COEX_CTL.REVOKE) (fun s =>
      s.each on (fun s p => s.stageNext (.txCut p)))

/-- The port's carrier was on at some instant of the tick before (R307). -/
def State.wasOn (s : State) (p : Nat) : Bool :=
  let k := s.pt p
  k.was && k.onIn (max k.startFine (s.clk.start - s.clk.prevLen)) (min s.clk.start (k.endFine.getD s.clk.start))

/-- The detector reading of the tick before (R307, R308). -/
def State.rfReading (s : State) (p : Nat) (rs : List RfReading) : State :=
  let a := A.RF_MISMATCH p
  match (if s.wasOn p then rs.find? (fun r => r.port.val == p && decide (r.fwd ≤ 160)) else none) with
  | none => s.fset a F.RF_MISMATCH.VALID 0
  | some r =>
    let rev := min r.rev 255
    let rl := min (rev - r.fwd) 255
    let s := s.wr a (F.RF_MISMATCH.VALID.put (F.RF_MISMATCH.RL.put (F.RF_MISMATCH.FWD.put (F.RF_MISMATCH.REV.put 0 rev)
      r.fwd) rl) 1)
    let bad := decide (rl < 2 * s.eget (A.RF_CTL p) F.RF_CTL.RL_MIN)
    let was := (s.pt p).alarm
    let s := (s.updPt p (fun k => { k with alarm := bad })).raiseIf bad (A.RF_STATUS p) F.RF_STATUS.MISMATCH
    s.cond (bad && !was) (fun s => s.eventT evRf p 3)

/-- The RF part of a window: readings, the grant line, commands in WAIT and COEX. -/
def State.rfWindow (s : State) (rs : List RfReading) : State :=
  (((s.upTo 8 (fun s p => s.rfReading p rs)).gntWindow).upTo 8 State.txWindow)

/-- A port at a tick boundary: DISABLED comes and goes, a transmit that ended is released, and the values in force are read
at the issue boundary (R286, R294, R297, R299, R300). -/
def State.portTick (s : State) (p : Nat) : State :=
  let t := s.txState p
  let k := s.pt p
  let s := s.cond (k.was != (t == txActive)) (fun s => s.updPt p (fun k => { k with was := t == txActive }))
  let s := if t == txActive && k.ended then s.txFree p else s.txEndBy p (s.clk.start + 1)
  let s := if s.portOff p then
      (if s.txState p == txActive then s.txCut p s.clk.start
      else if s.txHeld p then s.txDrop p 4
      else s.cond (s.txState p != txDisabled) (fun s => s.setTx p txDisabled)).rxBlank p
    else s.cond (s.txState p == txDisabled) (fun s => s.setTx p txIdle)
  if s.txHeld p && k.issue == s.now then
    s.updPt p (fun k => { k with
      cmd := s.eff (A.RF_TXCMD p), ook := s.rd (A.RF_OOK p), pat := (List.range 4).map (fun i => s.rd (A.RF_PAT p i)) })
  else s

/-- The RF die at a tick boundary. -/
def State.rfTick (s : State) (rfgnt : Bool) : State :=
  let s := (s.updUnit (fun u => { u with rfgnt := rfgnt })).fbit A.COEX_STATUS F.COEX_STATUS.RFGNT rfgnt
  let s := s.upTo 8 (fun s p => s.cond ((s.pt p).rxWait && s.pllLocked 6) (fun s => s.rxInForce p))
  let s := ((s.upTo 8 State.portTick).rfSettle).upTo 8 (fun s p => s.rxUnblank p s.clk.start)
  let s := s.upTo 2 (fun s y => s.updSy y (fun k => { k with lockAt := s.fon (A.SYN_STATUS y) F.SYN_STATUS.LOCK }))
  s.refreshRfreq

/-- A request of the ledger for a change of `RF_CTL` or `SYN_CTL` (R287, R288): it may start a synthesiser. -/
def State.writeRfReq (s : State) (a : Nat) (w : Wr) : State :=
  let e : List Eff := [.force a (s.overlay a w.val)]
  s.gated a (fun s =>
    if !accepts a w.val then s
    else if s.queueFull (classOf w.who) (.reg a) e then s.inc A.TICK_BUDGET F.TICK_BUDGET.LEDGER_FULL 1
    else (s.wr a (s.overlay a w.val)).request (.reg a) (classOf w.who) (classIndex w.who) w.who w.cyc e)

/-- GO of a synthesiser calibration (R291): a request in the host class. -/
def State.synCalGo (s : State) (y : Nat) (h : Side) : State :=
  s.arbRequest (.syn y) .host (classIndex (.host h)) (.host h) s.now 8

/-! ### The commands -/

/-- RF_TX_GO (R294, R301): the command is issued in the current window. -/
def execRfTxGo (p : Fin 8) (who : Writer) (s : State) : Host.Outcome State Fault Refusal := .next (s.txIssue p who s.now)

/-- RF_TX_STOP (R301). -/
def execRfTxStop (p : Fin 8) (s : State) : Host.Outcome State Fault Refusal := .next (s.txStop p)

/-- TRANSMIT_START (R295, R298, R299, R304): at the boundary S that ends a window in which the command was ready. -/
def execTransmitStart (p : Fin 8) (s : State) : Host.Outcome State Fault Refusal :=
  if (s.pt p).startAt == some s.now && (s.txState p == txWait || s.txState p == txCoex) then
    .next ((((s.setTx p txActive).updPt p (fun k => { k with
      started := s.now, startFine := s.clk.start, endFine := none, startAt := none, ready := false })).rxBlank
      p).eventT evRf p 0)
  else ok s

/-- TRANSMIT_END (R298, R299): the last chip or the DUR ticks end in the current tick; with REPS or DUR 0 there is no such
end. -/
def execTransmitEnd (p : Fin 8) (s : State) : Host.Outcome State Fault Refusal := .next (s.txEndBy p s.tickEnd)

/-- TRANSMIT_TIMEOUT (R297): at boundary I + `RF_TX_TIMEOUT`, not while in COEX (R305). -/
def execTransmitTimeout (p : Fin 8) (s : State) : Host.Outcome State Fault Refusal :=
  let k := s.pt p
  if s.txState p == txWait && !k.ready && decide (k.issue + s.fget (A.RF_TX_TIMEOUT p) F.RF_TX_TIMEOUT.TICKS ≤ s.now) then
    .next (s.txDrop p 1)
  else ok s

/-- COEX_WAIT_EXPIRY (R305). -/
def execCoexWaitExpiry (p : Fin 8) (s : State) : Host.Outcome State Fault Refusal :=
  let k := s.pt p
  if s.txState p == txCoex && s.eon A.COEX_CTL F.COEX_CTL.MODE && k.startAt != some s.now
      && decide (k.coexAt + s.eget A.COEX_CTL F.COEX_CTL.WAIT ≤ s.now) then .next (s.txDrop p 2)
  else ok s

/-- RFREQ_TAIL_END (R303). -/
def execRfreqTailEnd (s : State) : Host.Outcome State Fault Refusal :=
  match s.unit.tail with
  | some t => if t ≤ s.now ∧ s.rfreqNeed = false then .next (s.setRfreq false) else ok s
  | none => ok s

/-- RF_SYN_SELECT (R287, R288): the change takes effect, or waits for the port's command; a synthesiser that it would start
asks the ledger. -/
def execRfSynSelect (p : Fin 8) (y : Fin 2) (s : State) : Host.Outcome State Fault Refusal :=
  let a := A.RF_CTL p
  .next (s.gated a (fun s =>
    let v := F.RF_CTL.SYN.put (s.rd a) y
    if s.chargeOf [.force a v] = 0 then (s.wr a v).synSelect p y
    else s.writeRfReq a ⟨.host .a, v, 0⟩))

/-- SYN_FREQ_CHANGE (R289). -/
def execSynFreqChange (y : Fin 2) (hz : Nat) (s : State) : Host.Outcome State Fault Refusal :=
  let a := A.SYN_FREQ y
  let v := F.SYN_FREQ.FREQ.put 0 hz
  .next (s.gated a (fun s => if accepts a v then (s.wr a v).synFreq y (F.SYN_FREQ.FREQ.get v) else s))

/-- SYN_LOCK_GAINED (R290, R293). -/
def execSynLockGained (y : Fin 2) (i : Instant) (s : State) : Host.Outcome State Fault Refusal := .next (s.synLock y i)

/-- SYN_LOCK_LOST (R290, R300): a transmit on the synthesiser is cut. -/
def execSynLockLost (y : Fin 2) (i : Instant) (s : State) : Host.Outcome State Fault Refusal :=
  let a := A.SYN_STATUS y
  if !s.fon a F.SYN_STATUS.LOCK then ok s
  else
    let s := (((s.fset a F.SYN_STATUS.LOCK 0).raiseF a F.SYN_STATUS.LOCK_LOST).event evRf (8 + y) 1
      (s.stamp i.fine false)).rxBlankSyn y
    let s := s.cond (i.fine == 0) (fun s => s.updSy y (fun k => { k with lockAt := false }))
    .next (s.upTo 8 (fun s p => s.cond (s.synOf p == y.val) (fun s => s.txCut p (s.instant i.fine))))

/-- SYN_CAL_GO (R291). -/
def execSynCalGo (y : Fin 2) (h : Side) (s : State) : Host.Outcome State Fault Refusal := .next (s.synCalGo y h)

/-- SYN_AUTO_CAL (R291): at an idle moment the calibration is granted, and begins at the boundary of its grant. -/
def execSynAutoCal (y : Fin 2) (s : State) : Host.Outcome State Fault Refusal :=
  let a := A.SYN_STATUS y
  if s.fon (A.SYN_CAL y) F.SYN_CAL.DUE && s.fon a F.SYN_STATUS.RUN && !s.fon a F.SYN_STATUS.CAL
      && !s.rt.grants.any (fun g => g.1 == .syn y) && !s.rt.arbs.any (fun r => r.res == .syn y) then
    .next (((s.updRt (fun r => { r with grants := r.grants ++ [(.syn y, .cal)] })).fset a F.SYN_STATUS.HOLDER 2).stageNext
      (.synBegin y))
  else ok s

/-- SYN_CAL_COMPLETE (R293): locked at `SYN_FREQ`, the bands and the temperature stored. -/
def execSynCalComplete (y : Fin 2) (i : Instant) (s : State) : Host.Outcome State Fault Refusal :=
  let a := A.SYN_STATUS y
  let c := A.SYN_CAL y
  if !s.fon a F.SYN_STATUS.CAL then ok s
  else
    let s := (s.updSy y (fun k => { k with band := Config.freeBand s.free })).fresh
    let s := ((s.fset c F.SYN_CAL.TEMP (s.fget A.TEMP_RF F.TEMP_RF.TEMP)).fset c F.SYN_CAL.VALID 1).fset c F.SYN_CAL.DUE 0
    let s := (((s.fset a F.SYN_STATUS.CAL 0).synLock y i).event evRf (8 + y) 2 (s.stamp i.fine false))
    .next (s.synFree y)

/-- SYN_CAL_FAIL (R293). -/
def execSynCalFail (y : Fin 2) (s : State) : Host.Outcome State Fault Refusal :=
  let a := A.SYN_STATUS y
  if !s.fon a F.SYN_STATUS.CAL then ok s
  else
    let s := (s.fset a F.SYN_STATUS.CAL 0).raiseF a F.SYN_STATUS.CAL_FAIL
    .next ((s.cond (s.fon a F.SYN_STATUS.RUN) (fun s => s.synSettle y)).synFree y)

/-- RX_ENABLE (R310): the written control with EN = 1. -/
def execRxEnable (p : Fin 8) (who : Writer) (s : State) : Host.Outcome State Fault Refusal :=
  .next (s.writeRxCtl p ⟨who, F.RF_RXCTL.EN.put (s.rd (A.RF_RXCTL p)) 1, 0⟩)

/-- RX_INTERVAL_END (R310 to R312). -/
def execRxIntervalEnd (p : Fin 8) (pwr : Int) (s : State) : Host.Outcome State Fault Refusal := .next (s.rxInterval p pwr)

end Sys2Proof.Machine
end

