-- ==== Sys2Proof/Machine/Router.lean ====
section
/-! DEFINITION. The event router (R261 to R284): occurrences, the rules and their counters, actions and their conflicts,
arbitration, timers, temperature steps, ring commands, interrupts and notices. -/

namespace Sys2Proof.Machine

/-! ### Occurrences (R262, R263) -/

/-- The earliest of two timestamps, either of which may be missing. -/
def earlier (a b : Option Stamp) : Option Stamp :=
  match a, b with
  | some x, some y => some (if y.before x then y else x)
  | some x, none => some x
  | none, y => y

/-- The later of two timestamps. -/
def later (a b : Stamp) : Stamp := if a.before b then b else a

/-- The index of a selector takes in the index of an event of the same class (R262). -/
def indexMatches (cls sel idx : Nat) : Bool :=
  if (cls = evChan ∨ cls = evPmu) ∧ 768 ≤ sel then sel == 780 || idx / 64 == sel - 768
  else sel == idx

/-- The occurrence of a selector in the tick that the window evaluates, with the timestamp of its first event (R263). A flag
occurs while it was 1 in that tick. -/
def State.occurs (s : State) (evs : List Ev) (sel : Nat) : Option Stamp :=
  let cls := sel / 2 ^ 14 % 16
  let idx := sel / 2 ^ 4 % 2 ^ 10
  let kind := sel % 16
  if cls = evFlag then
    if (Tab.get (fun _ => 0) s.rt.flagsPrev idx).testBit kind then some s.prevStamp else none
  else (evs.filter (fun e => e.cls == cls && e.kind == kind && indexMatches cls idx e.idx)).foldl
    (fun o e => earlier o (some e.st)) none

/-! ### Rules (R264 to R268) -/

/-- The bit of rule `n` in a pair of registers. -/
def ruleBit (n : Nat) : Word := BitVec.ofNat 36 (2 ^ (n % 32))

/-- Rule `n` is spent (R267). -/
def State.spent (s : State) (n : Nat) : Bool := (s.rd (A.RT_SPENT (n / 32))).getLsbD (n % 32)

/-- The counter, the arm and SPENT of a rule restart (R261, R267). -/
def State.ruleRestart (s : State) (n : Nat) : State :=
  (s.wr (A.RT_RCNT n) 0).wr (A.RT_SPENT (n / 32)) (s.rd (A.RT_SPENT (n / 32)) &&& ~~~ruleBit n)

/-- The counter or the window of a rule written, and ARMED. -/
def State.ruleCount (s : State) (n v : Nat) (armed : Bool) : State :=
  s.wr (A.RT_RCNT n) (F.RT_RCNT.ARMED.put (F.RT_RCNT.VALUE.put 0 v) (bit01 armed))

/-- One rule evaluated (R265, R266): its counter or arm afterwards, and the timestamp of a firing. -/
def State.evalRule (s : State) (evs : List Ev) (n : Nat) : State × Option Stamp :=
  let cond := s.eff (A.RULE_COND n)
  let src := (s.eff (A.RULE_SRC n)).toNat
  let a := s.occurs evs (src % 2 ^ 18)
  let b := s.occurs evs (src / 2 ^ 18)
  let lim := max 1 (F.RULE_COND.N.get cond)
  let cnt := s.fget (A.RT_RCNT n) F.RT_RCNT.VALUE
  let logic := F.RULE_COND.LOGIC.get cond
  if logic ≤ 3 then
    let q : Option Stamp :=
      if logic = 0 then a
      else if logic = 1 then earlier a b
      else if logic = 2 then match a, b with | some x, some y => some (later x y) | _, _ => none
      else if b.isNone then a else none
    match q with
    | none => (s, none)
    | some t => if lim ≤ cnt + 1 then (s.ruleCount n 0 false, some t) else (s.ruleCount n (cnt + 1) false, none)
  else
    let armed := s.fon (A.RT_RCNT n) F.RT_RCNT.ARMED
    let hit := armed && b.isSome
    let last := armed && cnt == 1
    let fire : Option Stamp :=
      if logic = 4 then (if hit then b else none) else if last && !hit then some s.prevStamp else none
    let s := if a.isSome then s.ruleCount n lim true
      else if !armed then s
      else if hit || last then s.ruleCount n 0 false
      else s.ruleCount n (cnt - 1) true
    (s, fire)

/-- A rule that is evaluated, and fires unless it is spent (R267, R268): the firings so far, lowest rule first. -/
def State.runRule (evs : List Ev) (p : State × List (Nat × Stamp)) (n : Nat) : State × List (Nat × Stamp) :=
  if !p.1.eon (A.RULE_COND n) F.RULE_COND.EN then p
  else
    let (s, fire) := p.1.evalRule evs n
    match fire with
    | none => (s, p.2)
    | some t =>
      if s.spent n then (s, p.2)
      else
        let s := (s.raise (A.RT_FIRED (n / 32)) (ruleBit n)).event evRule n 0 t
        (s.cond (s.eon (A.RULE_COND n) F.RULE_COND.ONCE) (fun s => s.raise (A.RT_SPENT (n / 32)) (ruleBit n)),
          p.2 ++ [(n, t)])

/-! ### Actions (R269 to R272) -/

/-- `RULE_ARGn` keeps to the fields of its OP (R270). -/
def actArgOk (op arg : Nat) : Bool :=
  if op = 1 then decide (arg < 2 ^ 24)
  else if op = 2 ∨ op = 3 then decide (arg < 2 ^ 28)
  else if op = 4 then decide (arg < 2 ^ 14) && decide (arg / 2 ^ 12 ≠ 3)
  else if op = 5 then decide (arg < 2 ^ 12)
  else if op = 6 then decide (arg < 2 ^ 8)
  else if op = 8 then decide (arg < 2 ^ 16) && arg / 16 % 16 == 0 && decide (arg % 16 < 12)
  else if op = 9 then decide (arg < 2 ^ 16)
  else arg == 0

/-- What the actions of one window have decided so far (R271): flags, bank power states (3 an abort), the wake latch. -/
structure Decided where
  flags : List (Nat × Nat × Bool) := []
  banks : List (Nat × Nat) := []
  wake : Option Bool := none
  deriving DecidableEq, Repr

/-- A suppressed target (R271). -/
def State.suppress (s : State) : State := s.inc A.RT_STATUS F.RT_STATUS.SUPPR 1

/-- FLAG_SET or FLAG_CLR on one bank: the flags that no lower rule has decided otherwise. -/
def State.actFlag (set : Bool) (mask : Nat) (p : State × Decided) (b : Nat) : State × Decided :=
    if p.1.reloading (A.SEQ_FLAGS b) then (p.1.raiseF A.ALMANAC_STATUS F.ALMANAC_STATUS.WR_IGN, p.2)
    else
      let lost := (maskList 16 mask).filter (fun f => p.2.flags.any (fun q => q == (b, f, !set)))
      let won := (maskList 16 mask).filter (fun f => !lost.contains f)
      let m := won.foldl (fun m f => m + 2 ^ f) 0
      let s := (lost.foldl (fun s _ => s.suppress) p.1).stageNext (.flags b (if set then m else 0) (if set then 0 else m))
      (s, { p.2 with flags := p.2.flags ++ won.map (fun f => (b, f, set)) })

/-- BANK_MODE or ABORT (3) on one bank. -/
def State.actBank (n req : Nat) (p : State × Decided) (b : Nat) : State × Decided :=
  if p.1.reloading (A.BANK_MODE b) then (p.1.raiseF A.ALMANAC_STATUS F.ALMANAC_STATUS.WR_IGN, p.2)
  else if p.2.banks.any (fun q => q.1 == b && q.2 != req) then (p.1.suppress, p.2)
  else
    let d := { p.2 with banks := p.2.banks ++ [(b, req)] }
    if p.2.banks.any (fun q => q.1 == b) then (p.1, d)
    else if req = 3 then (p.1.stageNext (.abort b), d)
    else ((p.1.wr (A.BANK_MODE b) (BitVec.ofNat 36 req)).requestBank b req (.router n) 0, d)

/-- The router wake latch set or cleared. -/
def State.actWake (on : Bool) (p : State × Decided) : State × Decided :=
  match p.2.wake with
  | some w => if w == on then p else (p.1.suppress, p.2)
  | none => (p.1.stageNext (.wake on), { p.2 with wake := some on })

/-- A LANE action on one lane (R278). -/
def State.actLane (n : Nat) (s : State) (k : Nat) : State :=
  if s.reloading (A.LANE_CTL k) then s.raiseF A.ALMANAC_STATUS F.ALMANAC_STATUS.WR_IGN
  else if s.eget (A.LANE_CTL k) F.LANE_CTL.SRC = 7 then s.arbRequest (.lane k) .router n (.router n) s.now
  else s.raiseF A.RT_STATUS F.RT_STATUS.LANE_IGN

/-- The primary action of a firing rule (R269). -/
def State.actPrimary (n op arg : Nat) (p : State × Decided) : State × Decided :=
  if op = 1 then (p.1.each (maskList 24 arg) (fun s e =>
    if s.reloading (A.AE_TRIG (e / 2) (e % 2)) then s.raiseF A.ALMANAC_STATUS F.ALMANAC_STATUS.WR_IGN
    else s.stageNext (.aeTrig e)), p.2)
  else if op = 2 ∨ op = 3 then (maskList 12 arg).foldl (State.actFlag (op == 2) (arg / 2 ^ 12)) p
  else if op = 4 then (maskList 12 arg).foldl (State.actBank n (arg / 2 ^ 12)) p
  else if op = 5 then (maskList 12 arg).foldl (State.actBank n 3) p
  else if op = 6 then (p.1.each (maskList 8 arg) (fun s q =>
    if s.rfReload then s.raiseF A.ALMANAC_STATUS F.ALMANAC_STATUS.WR_IGN
    else if (s.pt q).issue == s.now + 1 && s.txHeld q && (match (s.pt q).who with | .router _ => true | _ => false) then s
    else s.txIssue q (.router n) s.now), p.2)
  else if op = 7 then (p.1.stageNext (.cal true false), p.2)
  else if op = 8 then
    let b := arg % 16
    (p.1.each (maskList 8 (arg / 2 ^ 8)) (fun s k =>
      if s.reloading (A.PMC_CMD b k) then s.raiseF A.ALMANAC_STATUS F.ALMANAC_STATUS.WR_IGN
      else if s.staged.any (fun t => match t.eff with
        | .pmc b' k' true _ (.router _) => b' == b && k' == k && t.due == s.now + 1
        | _ => false) then s
      else s.stageNext (.pmc b k true false (.router n))), p.2)
  else if op = 9 then (p.1.each (maskList 16 arg) (State.actLane n), p.2)
  else if op = 0xa then State.actWake false p
  else p

/-- A firing rule's actions (R269 to R271): the primary action unless its argument is wrong, then the side actions. -/
def State.actRule (p : State × Decided) (f : Nat × Stamp) : State × Decided :=
  let n := f.1
  let act := p.1.eff (A.RULE_ACT n)
  let arg := (p.1.eff (A.RULE_ARG n)).toNat
  let op := F.RULE_ACT.OP.get act
  let good := actArgOk op arg
  let p := if good then State.actPrimary n op arg p else (p.1.raiseF A.RT_STATUS F.RT_STATUS.ARG_ERR, p.2)
  let p := if !F.RULE_ACT.WAKE.on act then p
    else if good && op == 0xa then (p.1.suppress, p.2) else State.actWake true p
  let s := p.1.cond (F.RULE_ACT.NOTICE.on act) (fun s => s.stageNext (.notice n f.2 (s.eff (A.RULE_SRC n))))
  let s := s.cond (F.RULE_ACT.SEASON.on act) (fun s => s.stageNext (.season 2))
  let s := s.cond (F.RULE_ACT.COUNT.on act) (fun s => s.stageNext (.count (F.RULE_ACT.CNTSEL.get act)))
  (s.cond (F.RULE_ACT.INT.on act) (fun s => s.stageNext (.rirq (2 ^ F.RULE_ACT.IRQ.get act))), p.2)

/-- Phase 2 of a window (R264): the rules are evaluated on the occurrences of the tick before, and the actions of those that
fire are decided, the lowest rule first. At a season boundary the rules with SRST restart after that (R267). -/
def State.routerPhase (s : State) (evs : List Ev) : State :=
  let (s, fired) := if s.rt.reload then (s, []) else (List.range 64).foldl (State.runRule evs) (s, [])
  let s := (fired.foldl State.actRule (s, {})).1
  s.cond (s.sea.due != 0) (fun s =>
    s.each ((List.range 64).filter (fun n => s.eon (A.RULE_COND n) F.RULE_COND.SRST)) State.ruleRestart)

/-! ### Arbitration (R282 to R284, R193) -/

/-- The instance is held. -/
def State.held (s : State) (r : Res) : Bool :=
  s.rt.grants.any (fun g => g.1 == r) || (match r with | .pmc n => (s.pm n).holder.isSome | _ => false)

/-- The order among the requests for one instance: aged ones first, the longest-waiting first; then by class and index. -/
def arbLe (a b : Arb) : Bool :=
  let k (x : Arb) : Nat := clsCode x.cls
  if a.aged != b.aged then a.aged
  else if a.aged then decide (a.id ≤ b.id)
  else if k a ≠ k b then decide (k a < k b)
  else if a.idx ≠ b.idx then decide (a.idx < b.idx)
  else decide (a.id ≤ b.id)

/-- A grant (R193, R294): a converter asks the ledger for its charge in the same window, a synthesiser passes to a transmit or
to a calibration, a lane is asserted for the next tick. -/
def State.grant (s : State) (a : Arb) : State :=
  let s := s.updRt (fun r => { r with
    arbs := r.arbs.filter (fun x => x.id != a.id)
    grants := r.grants ++ (match a.res with | .pmc _ => [] | _ => [(a.res, a.cls)]) })
  match a.res with
  | .pmc n =>
    let s := s.updPm n (fun p => { p with holder := some a.cls, who := a.who })
    let s := s.wr (pmcStat n) (F.PMC_STAT.HOLDER.put (F.PMC_STAT.BUSY.put (s.rd (pmcStat n)) 1) (clsCode a.cls))
    let s := s.pmcWaiting n
    if a.cls = .cal then s else s.request (.pmc n) a.cls a.idx a.who 0 [.pmcBegin n]
  | .syn y =>
    let st := A.SYN_STATUS y
    if a.tag < 8 then
      ((s.fset st F.SYN_STATUS.HOLDER 1).fset st F.SYN_STATUS.HPORT a.tag).updPt a.tag (fun k => { k with grant := true })
    else
      (s.fset st F.SYN_STATUS.HOLDER 2).request (.synCal y) a.cls a.idx a.who 0 [.synBegin y]
  | .lane k => s.stageNext (.lanes (2 ^ k))
  | .store => s.cond (a.cls == .host) (fun s => s.updRing (fun r => { r with port := some (if a.idx = 0 then .a else .b) }))
  | _ => s

/-- A request loses in this window (R284): its first loss is counted after the season latch. -/
def State.lose (s : State) (a : Arb) : State :=
  s.updRt (fun r => { r with
    arbs := r.arbs.map (fun x => if x.id = a.id then { x with age := x.age + 1, counted := true } else x)
    winLoss := if a.counted then r.winLoss
      else r.winLoss.mapIdx (fun i v => if i = clsCode a.cls then v + 1 else v) })

/-- Phase 3 of a window (R283): each request in order is granted if its instance is free, and loses otherwise. Lanes granted
for one tick and the store port are free again (R282). -/
def State.arbitrate (s : State) : State :=
  let s := (s.updRt (fun r => { r with
    grants := r.grants.filter (fun g => match g with | (.lane _, .router) => false | (.store, _) => false | _ => true)
    })).updRing (fun r => { r with port := none })
  let order := sortBy arbLe (s.rt.arbs.filter (fun a => decide (a.frm ≤ s.now)))
  order.foldl (fun s a => if s.held a.res then s.lose a else s.grant a) s

/-- The losses of the window, after the season latch (R284). -/
def State.countLosses (s : State) : State :=
  let l := s.rt.winLoss
  let s := s.updRt (fun r => { r with winLoss := [0, 0, 0, 0] })
  [(0, F.ARB_LOSS.SEQ), (1, F.ARB_LOSS.ROUTER), (2, F.ARB_LOSS.CAL), (3, F.ARB_LOSS.HOST)].foldl
    (fun s p => s.cond (l.getD p.1 0 != 0) (fun s => s.inc A.ARB_LOSS p.2 (l.getD p.1 0))) s

/-! ### Interrupts and notices (R279 to R281) -/

/-- One fine unit later, in a tick of length `len` (R281). -/
def Stamp.next (t : Stamp) (len : Nat) : Stamp :=
  let t := { t with interp := false, estim := true }
  if t.fine + 1 < len then { t with fine := t.fine + 1 } else { t with tick := (t.tick + 1) % 2 ^ 48, fine := 0 }

/-- The timestamp of a packet of a source index: later than the last one of that index (R281). -/
def State.noteStamp (s : State) (idx : Nat) (st : Stamp) : Stamp :=
  match s.ring.lastSt.find? (fun p => p.1 == idx) with
  | some (_, l, len) => if l.before st then st else l.next len
  | none => st

/-- The length of the tick of a timestamp made in the current tick or the one before it (R57, R60). -/
def State.lenOf (s : State) (st : Stamp) : Nat :=
  if st.tick = s.clk.count then s.clk.tickLen else if st.tick = s.clk.prevCount then s.clk.prevLen else Config.tickFine

/-- A packet is queued for the hosts that `INT_CTL` selects, or NOTE_LOST counts it (R280). -/
def State.note (s : State) (intr : Bool) (idx : Nat) (st : Stamp) (info : Word) : State :=
  if Config.noteDepth ≤ s.rt.notes.length then s.inc A.RT_STATUS F.RT_STATUS.NOTE_LOST 1
  else
    let toA := s.fon A.INT_CTL (if intr then F.INT_CTL.INT_A else F.INT_CTL.NOTE_A)
    let toB := s.fon A.INT_CTL (if intr then F.INT_CTL.INT_B else F.INT_CTL.NOTE_B)
    if !toA && !toB then s
    else
      let st := s.noteStamp idx st
      (s.updRt (fun r => { r with notes := r.notes ++ [{ intr, idx, st, info, toA, toB }] })).updRing (fun r => { r with
        lastSt := r.lastSt.filter (fun p => p.1 != idx) ++ [(idx, st, s.lenOf st)] })

/-- An event notice of a rule. -/
def State.notice (s : State) (n : Nat) (st : Stamp) (sel : Word) : State := s.note false n st sel

/-- The enabled interrupt bits. -/
def State.intBits (s : State) : Word := s.rd A.INT_STATUS &&& s.eff A.INT_ENABLE &&& 0xfffffff

/-- The source index of an interrupt bit (R280). -/
def intSource (i : Nat) : Nat := if 12 ≤ i then 64 + (i - 12) else 80 + i

/-- INT_N and the packets of the bits that rise at a tick boundary (R279, R280). -/
def State.refreshInt (s : State) : State :=
  let now := s.intBits
  let rise := now &&& ~~~s.rt.intPrev
  let s := s.each ((maskList 28 rise.toNat)) (fun s i =>
    s.note true (intSource i) s.tickStamp now)
  let low := s.coreRuns && now != 0
  ((s.updRt (fun r => { r with intPrev := now })).updUnit (fun u => { u with intN := low })).fbit A.UNIT_STATUS
    F.UNIT_STATUS.INT_LOW low

/-! ### Timers, temperature steps, ring commands (R273 to R275) -/

/-- A TEMP event of die `d` with a sample `t` in 1/16 °C (R274). -/
def State.tempStep (s : State) (d : Nat) (t : Int) : State :=
  let a := A.TEMP d
  if s.rt.tref.testBit d then
    (s.fset a F.TEMP_CORE.TREF (untwos 12 t)).updRt (fun r => { r with tref := r.tref &&& (255 - 2 ^ d) })
  else
    let ref := twos 12 (s.fget a F.TEMP_CORE.TREF)
    let step : Int := 8 * (s.fget A.RT_CTL F.RT_CTL.TSTEP : Int)
    if step = 0 then s
    else if ref + step ≤ t then (s.fset a F.TEMP_CORE.TREF (untwos 12 t)).eventT evTemp d 0
    else if t ≤ ref - step then (s.fset a F.TEMP_CORE.TREF (untwos 12 t)).eventT evTemp d 1
    else s

/-- A ring command reaches CORE (R275). -/
def State.ringCommand (s : State) (code : Nat) (at_ : Option Nat) (cyc : Nat) : State :=
  let now (s : State) : State := s.event evRing 0 code (s.stamp (cycleFine cyc) false)
  match at_ with
  | none => now s
  | some t =>
    let d := (t + 2 ^ 36 - s.clk.count % 2 ^ 36) % 2 ^ 36
    if d = 0 ∨ 2 ^ 35 ≤ d then now (s.raiseF A.RT_STATUS F.RT_STATUS.CMD_LATE)
    else if Config.timedDepth ≤ s.rt.cmds.length then s.raiseF A.RT_STATUS F.RT_STATUS.CMD_OVF
    else s.updRt (fun r => { r with cmds := r.cmds ++ [(code, t)] })

/-- A held command whose tick has come occurs at its instant (R275). -/
def State.commandDue (s : State) (code at_ : Nat) : State :=
  if at_ = s.clk.count % 2 ^ 36 ∧ s.rt.cmds.contains (code, at_) then
    (s.updRt (fun r => { r with cmds := r.cmds.erase (code, at_) })).eventT evRing 0 code
  else s

/-- The start of a timer (R273). -/
def State.timerStart (s : State) (k : Nat) : State :=
  s.updRt (fun r => { r with tmr := Tab.set (fun _ => 0) r.tmr k s.now })

/-- The timer occurs in the current tick (R273). -/
def State.timerDue (s : State) (k : Nat) : Bool :=
  let v := s.eff (A.RT_TMR k)
  let p := F.RT_TMR.PERIOD.get v
  let t := Tab.get (fun _ => 0) s.rt.tmr k
  F.RT_TMR.EN.on v && p != 0 && !s.rt.reload
    && (if F.RT_TMR.ABS.on v then s.clk.count % p == 0 else decide (t < s.now) && (s.now - t) % p == 0)

/-! ### Values in force -/

/-- A router register comes into force (R261, R273, R277). -/
def State.applyRouter (s : State) (a : Nat) (v : Word) : State :=
  let o := a - 0x20000
  let s1 := s.setEff a v
  if o < 0x100 then s1.ruleRestart (o / 4)
  else if 0x108 ≤ o ∧ o < 0x10c then s1.timerStart (o - 0x108)
  else if 0x120 ≤ o ∧ o < 0x130 then
    s1.cond (s.eff a &&& (regInfo a).rw != v &&& (regInfo a).rw) (fun s => s.updRt (fun r => { r with laneHold := r.laneHold ||| 2 ^ (o - 0x120) }))
  else s1

/-! ### The commands -/

/-- RULE_WRITE (R261, R262, R265, R269). -/
def execRuleWrite (n : Fin 64) (word : Fin 4) (w : Wr) (s : State) : Host.Outcome State Fault Refusal :=
  .next (s.writeAt (A.RULE_SRC n + word.val) w)

/-- ROUTER_TIMER (R273). -/
def execRouterTimer (k : Fin 4) (s : State) : Host.Outcome State Fault Refusal :=
  .next (s.cond (s.timerDue k) (fun s => s.eventT evTimer k 0))

/-- TIMED_COMMAND_DUE (R275). -/
def execTimedCommandDue (code : Fin 16) (at_ : Nat) (s : State) : Host.Outcome State Fault Refusal :=
  .next (s.commandDue code at_)

/-- INT_STATUS_CLEAR (R279): the clear takes effect at a boundary under R46. -/
def execIntStatusClear (val : Word) (cyc : Nat) (s : State) : Host.Outcome State Fault Refusal :=
  .next (s.stage (s.dueAt cyc) (.host .a) (.clear A.INT_STATUS (val &&& F.INT_STATUS.RIRQ.mask)))

/-- RT_STATUS_WAKE_CLEAR (R270): the clear crosses C9. -/
def execRtStatusWakeClear (s : State) : Host.Outcome State Fault Refusal := .next (s.toC9 (.wake false))

/-- RT_STATUS_READ (R429): SUPPR and NOTE_LOST clear. -/
def execRtStatusRead (s : State) : Host.Outcome State Fault Refusal :=
  .next ((s.fset A.RT_STATUS F.RT_STATUS.SUPPR 0).fset A.RT_STATUS F.RT_STATUS.NOTE_LOST 0)

/-- ARBITRATION_REQUEST_AGED (R284). -/
def execArbitrationRequestAged (id : Nat) (s : State) : Host.Outcome State Fault Refusal :=
  .next (s.updRt (fun r => { r with arbs := r.arbs.map (fun a =>
    if a.id = id ∧ Config.agedTicks ≤ a.age then { a with aged := true } else a) }))

end Sys2Proof.Machine
end

