-- ==== Sys2Proof/Machine/Cal.lean ====
section
/-! DEFINITION. The calibration engine (R315 to R339) with its commits into the battery store (R344 to R350, R353, R354): elements
and entries, interpolation and slewing, runs, groups, holds, acceptance and commit. -/

namespace Sys2Proof.Machine

/-! ### Elements and their words (R315, R316, R345, R346) -/

/-- The die whose temperature applies to element E. -/
def elemDie (e : Nat) : Nat :=
  if e < 768 then e / 128 else if e < 792 then (e - 768) / 4 else if e < 816 then (e - 792) / 4
  else if e < 912 then (e - 816) / 16 else 6

/-- Slot entries per slot. -/
def elemSlots (e : Nat) : Nat := if e < 768 then 18 else if 816 ≤ e ∧ e < 912 then 2 else 8

/-- Common entries. -/
def elemCommons (e : Nat) : Nat :=
  if e < 768 then 3 else if e < 792 then 2 else if e < 816 then 32 else if e < 912 then 1 else 0

/-- The store word at which the block of element E begins. -/
def elemBase (e : Nat) : Nat :=
  if e < 768 then 0x1170 + 75 * e else if e < 792 then 0xf270 + 34 * (e - 768)
  else if e < 816 then 0xf5a0 + 64 * (e - 792) else if e < 912 then 0xfba0 + 9 * (e - 816) else 0xff00 + 32 * (e - 912)

/-- The store word of slot entry `i` of Ts. -/
def slotWord (e slot i : Nat) : Nat := elemBase e + slot * elemSlots e + i
/-- The store word of common entry `j`. -/
def commonWord (e j : Nat) : Nat := elemBase e + 4 * elemSlots e + j

/-- The value of an entry word. -/
def entryValue (w : Word) : Int := twos 24 (fldEntry.get w)

/-- Elements of a die. -/
def dieElems (d : Nat) : List Nat := (List.range 920).filter (fun e => elemDie e == d)

/-- The bank of an element, 12 for an RF port. -/
def elemBank (e : Nat) : Nat :=
  if e < 768 then bankOf e else if e < 792 then (e - 768) / 2 else if e < 816 then (e - 792) / 2
  else if e < 912 then (e - 816) / 8 else 12

/-- An element is torn (R348). -/
def State.isTorn (s : State) (e : Nat) : Bool := s.cal.torn.contains e

/-- Slot Ts of element E is valid (R330, R333, R346). -/
def State.slotValid (s : State) (e slot : Nat) : Bool :=
  !s.isTorn e && (fldValid.get (s.bsRd (bsEpoch e))).testBit slot && !s.cal.tslotDue.testBit slot

/-- The temperature of a slot in force, in 1/16 °C. -/
def slotTemp (tslot : Word) (slot : Nat) : Int := 8 * twos 9 ((Fld.mk (9 * slot) 9).get tslot)

/-! ### Interpolation (R334, R335) -/

/-- The neighbours of a temperature among valid slots in ascending order: the slots between which it lies, or the one whose
value it takes. -/
def neighbours (tslot : Word) (t : Int) : List Nat → Option (Nat × Nat)
  | [] => none
  | [a] => some (a, a)
  | a :: b :: rest =>
    if t ≤ slotTemp tslot a then some (a, a)
    else if t < slotTemp tslot b then some (a, b)
    else neighbours tslot t (b :: rest)

/-- The value between two slots, rounded to the nearest LSB. -/
def interpolate (tslot : Word) (t : Int) (a b : Nat) (va vb : Int) : Int :=
  if a = b then va
  else
    let d := slotTemp tslot b - slotTemp tslot a
    roundAway (va * d + (vb - va) * (t - slotTemp tslot a)) d.toNat

/-- The target of slot entry `i` of an element at a die temperature, with the slots that contribute. -/
def State.entryTarget (s : State) (e i : Nat) (t : Int) : Option (Int × Nat × Nat) :=
  let ts := s.eff A.CAL_TSLOT
  match neighbours ts t ((List.range 4).filter (s.slotValid e)) with
  | none => none
  | some (a, b) =>
    some (interpolate ts t a b (entryValue (s.bsRd (slotWord e a i))) (entryValue (s.bsRd (slotWord e b i))), a, b)

/-- The target of a coefficient of the active buffer while a switch is pending (R337): the interpolation goes on with what the
slots held before the commit. -/
def State.oldTarget (s : State) (e i : Nat) (t : Int) : Option Int :=
  let ts := s.eff A.CAL_TSLOT
  let old (slot : Nat) : Option (Nat × Nat × Option Int) := s.cal.olds.find? (fun o => o.1 == 64 * e + i && o.2.1 == slot)
  let valid (slot : Nat) : Bool := match old slot with | some o => o.2.2.isSome | none => s.slotValid e slot
  let val (slot : Nat) : Int := ((old slot).bind (fun o => o.2.2)).getD (entryValue (s.bsRd (slotWord e slot i)))
  (neighbours ts t ((List.range 4).filter valid)).map (fun p => interpolate ts t p.1 p.2 (val p.1) (val p.2))

/-- A new target of a coefficient (R334, R337): with a switch pending it is that of the inactive buffer. -/
def State.aim (s : State) (e i : Nat) (t v : Int) : State :=
  let key := 64 * e + i
  if s.cal.buffer.any (fun p => p.1 == key) then
    let old := s.oldTarget e i t
    s.updCal (fun k => { k with
      buffer := k.buffer.map (fun p => if p.1 = key then (p.1, v) else p)
      target := match old with | some x => Tab.set (fun _ => 0) k.target key x | none => k.target })
  else s.updCal (fun k => { k with target := Tab.set (fun _ => 0) k.target key v })

/-- The targets of one element at its die's latest sample. -/
def State.retarget (s : State) (e : Nat) : State :=
  match s.cal.temps.getD (elemDie e) none with
  | none => s
  | some t =>
    if fldPend.on (s.bsRd (bsEpoch e)) then s
    else
      (List.range (elemSlots e)).foldl (fun s i =>
        match s.entryTarget e i t with
        | none => s
        | some (v, a, b) =>
          (s.updSea (fun k => { k with used := k.used ||| 2 ^ (4 * elemDie e + a) ||| 2 ^ (4 * elemDie e + b) })).aim e i t v) s

/-- A coefficient in force. -/
def State.coef (s : State) (key : Nat) : Int := Tab.get (fun _ => 0) s.cal.coef key

/-- A coefficient set with its target. -/
def State.setCoef (s : State) (key : Nat) (v : Int) : State :=
  s.updCal (fun k => { k with coef := Tab.set (fun _ => 0) k.coef key v, target := Tab.set (fun _ => 0) k.target key v })

/-- Every slot entry of an element goes to its target, and every common entry to its stored value, in one step (R338, R367
step 6). -/
def State.applyElem (s : State) (e : Nat) : State :=
  let s := (List.range (elemSlots e)).foldl (fun s i => s.setCoef (64 * e + i) (Tab.get (fun _ => 0) s.cal.target (64 * e + i)))
    s
  (List.range (elemCommons e)).foldl (fun s j => s.setCoef (64 * e + 18 + j) (entryValue (s.bsRd (commonWord e j)))) s

/-- Keys whose coefficient differs from its target, in order (R50). -/
def State.moving (s : State) : List Nat :=
  let keys := s.cal.target.map (·.1) ++ (s.cal.coef.map (·.1)).filter (fun k => !s.cal.target.any (fun p => p.1 == k))
  sortBy (fun a b => decide (a ≤ b)) (keys.filter (fun k => s.coef k != Tab.get (fun _ => 0) s.cal.target k))

/-- `CAL_EPOCH.SETTLED` (R337, R339). -/
def State.refreshSettled (s : State) : State :=
  s.fbit A.CAL_EPOCH F.CAL_EPOCH.SETTLED (s.moving.isEmpty && s.cal.buffer.isEmpty)

/-- Phase 6 (R50, R336, R337): at most 2,048 steps, in round-robin order; the new buffer is loaded with what is left. -/
def State.calPhase (s : State) : State :=
  let all := s.moving
  let order := all.filter (fun k => decide (s.cal.rr < k)) ++ all.filter (fun k => decide (k ≤ s.cal.rr))
  let now := order.take Config.calSteps
  let step := s.fget A.CAL_SLEW F.CAL_SLEW.STEP
  let s := now.foldl (fun s k =>
    let v := s.coef k
    let t := Tab.get (fun _ => 0) s.cal.target k
    let s := s.updCal (fun c => { c with coef := Tab.set (fun _ => 0) c.coef k (stepToward v t step), rr := k })
    s.cond (s.cal.moves.contains (k / 64)) (fun s => s.updSea (fun q => { q with moving := true }))) s
  let left := Config.calSteps - now.length
  let s := s.cond (decide (Config.calSteps < all.length) || decide (left < s.cal.bufLeft)) (fun s =>
    s.inc A.TICK_BUDGET F.TICK_BUDGET.CAL_DEFER 1)
  if all.isEmpty && s.cal.buffer.isEmpty then s
  else
    let s := s.updCal (fun c => { c with bufLeft := c.bufLeft - left })
    let still := s.moving
    (s.updCal (fun c => { c with moves := c.moves.filter (fun e => still.any (fun k => k / 64 == e)) })).refreshSettled

/-- Phase 7 before a season boundary (R337): a loaded buffer is switched. -/
def State.calSwitch (s : State) : State :=
  if s.cal.buffer.isEmpty || s.cal.bufLeft != 0 then s
  else
    let b := s.cal.buffer
    (b.foldl (fun s p => s.setCoef p.1 p.2) (s.updCal (fun c => { c with buffer := [], olds := [] }))).refreshSettled

/-! ### Torn elements (R348, R349) -/

/-- The registers that report torn elements (R349). -/
def State.showTorn (s : State) : State :=
  let t := s.cal.torn
  let any (p : Nat → Bool) : Bool := t.any p
  let mask (n base : Nat) : Nat := (List.range n).foldl (fun m i => if t.contains (base + i) then m + 2 ^ i else m) 0
  let s := (s.fset A.BS_STATUS F.BS_STATUS.TORN_CNT t.length).fbit A.FAULT_STATUS F.FAULT_STATUS.TORN (!t.isEmpty)
  let s := s.upTo 12 (fun s b =>
    let s := s.fbit A.CAL_TORN_MAP (F.CAL_TORN_MAP.BANK_CH.bit b) (any (fun e => decide (e < 768) && bankOf e == b))
    let s := s.fbit A.CAL_TORN_MAP (F.CAL_TORN_MAP.BANK_AN.bit b) (any (fun e =>
      decide (768 ≤ e) && decide (e < 912) && elemBank e == b))
    ((s.fset (A.CAL_TORN_AN b) F.CAL_TORN_AN.SRC (mask 2 (768 + 2 * b))).fset (A.CAL_TORN_AN b) F.CAL_TORN_AN.AE
      (mask 2 (792 + 2 * b))).fset (A.CAL_TORN_AN b) F.CAL_TORN_AN.PMC (mask 8 (816 + 8 * b)))
  let s := s.fset (A.CAL_TORN_AN 0) F.CAL_TORN_AN.RF (mask 8 912)
  s.cond (!t.isEmpty) (fun s => s.updSea (fun k => { k with torn := true }))

/-- The UNCAL flag of an element that has one. -/
def State.setUncal (s : State) (e : Nat) (on : Bool) : State :=
  if e < 768 then s.fbit (A.CH_STATUS e) F.CH_STATUS.UNCAL on
  else if e < 792 then s.fbit (srcStat (e - 768)) F.SRC_STATUS.UNCAL on
  else if e < 816 then s.fbit (aeStat (e - 792)) F.AE_STATUS.UNCAL on
  else if e < 912 then s
  else s.fbit (A.RF_STATUS (e - 912)) F.RF_STATUS.UNCAL on

/-- An element is no longer torn: its held-off state ends (R80, R209, R234, R286, R330). -/
def State.untear (s : State) (e : Nat) : State :=
  if !s.isTorn e then s
  else
    let s := (s.updCal (fun c => { c with torn := c.torn.filter (fun x => x != e) })).setUncal e false
    if e < 768 then s.reRequest (bankOf e) [e]
    else if e < 792 then s.srcAgain (e - 768)
    else if e < 816 then s.aeAgain (e - 792)
    else s

/-- `CAL_INFO` follows the element it names (R330, R346). -/
def State.refreshInfo (s : State) : State :=
  let a := A.CAL_INFO
  let e := s.fget a F.CAL_INFO.ELEM
  let w := s.bsRd (bsEpoch e)
  let valid := ((List.range 4).filter (s.slotValid e)).foldl (fun m i => m + 2 ^ i) 0
  ((s.fset a F.CAL_INFO.SLOTS valid).fbit a F.CAL_INFO.TORN (s.isTorn e)).fset a F.CAL_INFO.EPOCH (fldEpoch.get w)

/-! ### Runs (R322 to R326, R331, R332) -/

/-- A run is in progress. -/
def State.calBusy (s : State) : Bool := s.fon A.CAL_STATUS F.CAL_STATUS.BUSY

/-- Channels in ascending order, cut into groups of up to 8 in which no two use one converter (R323). -/
def chanGroups : List Nat → List (List Nat) → List (List Nat)
  | [], acc => acc.reverse
  | c :: rest, acc =>
    match acc with
    | [] => chanGroups rest [[c]]
    | g :: gs =>
      if g.length < 8 ∧ !g.any (fun x => x % 8 == c % 8) then chanGroups rest ((g ++ [c]) :: gs)
      else chanGroups rest ([c] :: g :: gs)

/-- The groups of a scope (R323). -/
def scopeGroups (v : Word) : List (List Nat) :=
  let kind := F.CAL_SCOPE.KIND.get v
  let b := F.CAL_SCOPE.BANK.get v
  let sel := F.CAL_SCOPE.SEL.get v
  if kind = 0 then
    chanGroups ((List.range (F.CAL_SCOPE.COUNT.get v)).map (fun i => 64 * b + sel + i * F.CAL_SCOPE.STRIDE.get v)) []
  else if kind = 1 then
    [(List.range 8).map (fun k => 816 + 8 * b + k), [792 + 2 * b, 793 + 2 * b], [768 + 2 * b], [769 + 2 * b]]
      ++ chanGroups (bankChans b) []
  else if kind = 2 then [[768 + sel]]
  else if kind = 3 then [[792 + sel]]
  else if kind = 4 then [(maskList 8 sel).map (fun k => 816 + 8 * b + k)]
  else [[912 + sel]]

/-- What R331 watches: the scope's bank is ACTIVE, or the RF die is available. -/
def State.calUp (s : State) : Bool :=
  if s.cal.bank < 12 then s.bankState s.cal.bank == bankActive && !(s.bk s.cal.bank).reload
  else !s.dieCond 6 && !s.hot 7 && !s.rfReload

/-- A run starts (R322). -/
def State.calGoNow (s : State) : State :=
  if s.calBusy then s.raiseF A.CAL_STATUS F.CAL_STATUS.GO_IGN
  else
    let cmd := s.eff A.CAL_CMD
    let scope := s.eff A.CAL_SCOPE
    let kind := F.CAL_SCOPE.KIND.get scope
    let s := s.updCal (fun c => { c with
      slot := F.CAL_CMD.SLOT.get cmd, parts := F.CAL_CMD.PARTS.get cmd, tol := s.rd A.CAL_TOL, tslot := s.eff A.CAL_TSLOT
      groups := scopeGroups scope, asking := [], stage := 0, held := [], kept := [], accepted := [], allOk := true, commit := 0
      words := [], left := 0
      bank := if kind = 2 ∨ kind = 3 then F.CAL_SCOPE.SEL.get scope / 2 else if kind = 5 then 12
        else F.CAL_SCOPE.BANK.get scope })
    let s := s.updCal (fun c => { c with up := s.calUp })
    let a := A.CAL_STATUS
    ((((s.fset a F.CAL_STATUS.BUSY 1).fset a F.CAL_STATUS.DONE 0).fset a F.CAL_STATUS.ACCEPTED 0).fset a
      F.CAL_STATUS.REJECTED 0).wr A.CAL_REJ 0

/-- The run ends (R332). -/
def State.calEnd (s : State) (early : Bool) : State :=
  let ok := s.cal.allOk && !early
  let s := s.updCal (fun c => { c with
    groups := [], asking := [], stage := 0, held := [], kept := [], accepted := [], commit := 0, words := [] })
  let a := A.CAL_STATUS
  (((s.fset a F.CAL_STATUS.BUSY 0).fset a F.CAL_STATUS.COMMIT 0).fset a F.CAL_STATUS.DONE 1).eventT evUnit 0
    (if ok then 6 else 7)

/-- A rejection (R328): causes 1 DISAGREE, 2 STAT, 3 TEMP, 4 UNAVAILABLE, 5 INCOMPLETE. -/
def State.calReject (s : State) (e cause : Nat) : State :=
  let a := A.CAL_STATUS
  let s := (s.inc a F.CAL_STATUS.REJECTED 1).updCal (fun c => { c with allOk := false })
  let s := ((s.raiseIf (cause == 1) a F.CAL_STATUS.DISAGREE).raiseIf (cause == 2) a F.CAL_STATUS.STAT_FAIL).raiseIf
    (cause == 3) a F.CAL_STATUS.TEMP_OUT
  if s.fon A.CAL_REJ F.CAL_REJ.VALID then s
  else s.wr A.CAL_REJ (F.CAL_REJ.VALID.put (F.CAL_REJ.CAUSE.put (F.CAL_REJ.ELEM.put 0 e) cause) 1)

/-- The element is available (R324). -/
def State.calAvailable (s : State) (e : Nat) : Bool :=
  let act := s.bankState (elemBank e) == bankActive
  if e < 768 then
    act && s.funcEff e == fnOff
      && (F.CH_MODE.FUNC.get (s.rd (A.CH_MODE e)) == fnOff || s.fon (A.CH_STATUS e) F.CH_STATUS.UNCAL)
      && s.pmcUsable (bankOf e) (e % 8)
  else if e < 792 then act && !s.fon (srcStat (e - 768)) F.SRC_STATUS.FAULT
  else if e < 816 then act
  else if e < 912 then act && (s.eget (A.PMC_CTL (elemBank e)) F.PMC_CTL.EN).testBit ((e - 816) % 8)
  else
    let p := e - 912
    s.unit.vrf && (s.txState p == txIdle
      || (s.fon (A.RF_STATUS p) F.RF_STATUS.UNCAL && s.unit.st == .running && !s.dieCond 6 && !s.hot 7 && !s.rfReload))

/-- A partial run cannot create a slot (R324). -/
def State.calIncomplete (s : State) (e : Nat) : Bool :=
  decide (e < 768) && s.cal.parts != 0x1f && !s.slotValid e s.cal.slot

/-- The shared resources that a group asks for (R282, R324, R325). -/
def groupNeeds (g : List Nat) : List Res :=
  (g.map (fun e =>
    if e < 768 then [Res.pmc (8 * bankOf e + e % 8)]
    else if 816 ≤ e ∧ e < 912 then [Res.pmc (e - 816)]
    else if e < 816 then [Res.bus (elemBank e)]
    else [])).flatten.eraseDups

/-- The engine has been granted a resource. -/
def State.calHas (s : State) (r : Res) : Bool :=
  match r with
  | .pmc n => (s.pm n).holder == some .cal
  | r => s.rt.grants.any (fun g => g.1 == r && g.2 == .cal)

/-- All groups have been decided (R329, R332, R350): a commit is due, or the run ends. -/
def State.calDecided (s : State) : State :=
  if s.cal.accepted.isEmpty then s.calEnd false
  else s.updCal (fun c => { c with commit := 1 })

/-- A group whose turn it is (R324): its unavailable elements are rejected, the others ask the arbiter. A group without any is
passed over. -/
def State.calAskGroups (s : State) : List (List Nat) → State
  | [] => s.calDecided
  | g :: gs =>
    let s := g.foldl (fun s e =>
      if !s.calAvailable e then s.calReject e 4 else if s.calIncomplete e then s.calReject e 5 else s)
      (s.updCal (fun c => { c with groups := gs }))
    let live := g.filter (fun e => s.calAvailable e && !s.calIncomplete e)
    if live.isEmpty then (s.updCal (fun c => { c with decided := s.tickStamp })).calAskGroups gs
    else
      (groupNeeds live).foldl (fun s r => s.arbRequest r .cal 0 (.host .a) s.now)
        (s.updCal (fun c => { c with asking := live, stage := 1 }))

/-- Before phase 3: the next group asks (R323, R324). -/
def State.calAsk (s : State) : State :=
  let s := s.arbWithdraw .store (· == .cal)
  let s := s.cond (s.cal.commit != 0) (fun s => s.arbRequest .store .cal 0 (.host .a) s.now)
  if s.calBusy && s.cal.stage == 0 && s.cal.held.isEmpty && s.cal.commit == 0 then s.calAskGroups s.cal.groups else s

/-- After phase 3: a group with every grant asks the ledger (R325). -/
def State.calRequest (s : State) : State :=
  if s.cal.stage == 1 && (groupNeeds s.cal.asking).all s.calHas then
    (s.updCal (fun c => { c with stage := 2 })).request .cal .cal 0 (.host .a) 0 [.calHold s.cal.asking]
  else s

/-- The ledger's admission has taken effect: the group can be held. -/
def State.calAdmitted (s : State) : State := s.cond (s.cal.stage == 2) (fun s => s.updCal (fun c => { c with stage := 3 }))

/-- The highest lane in requested mode (R325). -/
def State.calLane (s : State) : Option Nat :=
  (List.range 16).reverse.find? (fun k => s.eget (A.LANE_CTL k) F.LANE_CTL.SRC == 7)

/-- One element is held (R226, R234, R325). -/
def State.calHoldElem (s : State) (e : Nat) : State :=
  if e < 768 then s.updCh e (fun h => { h with held := true })
  else if e < 792 then
    let n := e - 768
    let s := (((s.playStop n).fset (srcStat n) F.SRC_STATUS.CAL 1).fset (srcStat n) F.SRC_STATUS.STATE srParked).updSr n
      (fun k => { k with hold := true })
    ((s.aeStopNow n).updEn n (fun k => { k with hold := true })).setAe n aeCal
  else if e < 816 then ((s.aeStopNow (e - 792)).updEn (e - 792) (fun k => { k with hold := true })).setAe (e - 792) aeCal
  else if e < 912 then s
  else s.fset (A.RF_STATUS (e - 912)) F.RF_STATUS.CAL 1

/-- The group is held from this boundary on (R325). -/
def State.calHold (s : State) : State :=
  if s.cal.stage != 3 then s
  else
    let g := s.cal.asking
    let s := g.foldl State.calHoldElem (s.updCal (fun c => { c with asking := [], stage := 0, held := g, left := 0 }))
    match s.calLane with
    | some k => s.cond (g.any (fun e => decide (792 ≤ e) && decide (e < 816))) (fun s =>
        s.arbRequest (.lane k) .cal 0 (.host .a) s.now)
    | none => s

/-- The engine at a release: OFF under a condition of R234, else IDLE; its charge goes unless its own state carries it
(R326). -/
def State.aeRelease (s : State) (e : Nat) : State :=
  let s := s.updEn e (fun k => { k with hold := false })
  if (s.en e).on && !s.aeBarred e then s.setAe e aeIdle
  else (s.setAe e aeOff).cond (!(s.en e).on) (fun s => s.release [.ae e])

/-- One element is released (R326). -/
def State.calFree (s : State) (e : Nat) : State :=
  if e < 768 then
    let s := s.release [.calEl e]
    let w := (s.ch e).modeWait
    let s := s.updCh e (fun h => { h with held := false, modeWait := none })
    match w with
    | some (v, who) => s.writeChMode e ⟨who, v, 0⟩
    | none => s.reRequest (bankOf e) [e]
  else if e < 792 then
    let n := e - 768
    let s := (s.fset (srcStat n) F.SRC_STATUS.CAL 0).updSr n (fun k => { k with hold := false })
    let s := s.cond (!(s.sr n).on) (fun s => s.release [.src n])
    (s.fset (srcStat n) F.SRC_STATUS.STATE (s.srcState n)).aeRelease n
  else if e < 816 then s.aeRelease (e - 792)
  else if e < 912 then s.pmcFree (e - 816)
  else (s.release [.calEl e]).fset (A.RF_STATUS (e - 912)) F.RF_STATUS.CAL 0

/-- Converters, buses and lanes that the engine holds, and its requests, but for those of elements that stay held. -/
def State.calLetGo (s : State) : State :=
  let keep := groupNeeds s.cal.kept
  let asked := (s.rt.arbs.filter (fun a => a.cls == .cal)).map (·.res)
  let s := asked.foldl (fun s r => match r with | .syn _ => s | r => s.arbWithdraw r (· == .cal)) s
  let s := s.updRt (fun r => { r with
    grants := r.grants.filter (fun g => !(g.2 == .cal && (match g.1 with | .syn _ => false | x => !keep.contains x))) })
  s.upTo 96 (fun s n => s.cond ((s.pm n).holder == some .cal && !keep.contains (.pmc n)) (fun s => s.pmcFree n))

/-- The run ends early (R331): every held element is released; a commit that is writing completes. -/
def State.calAbort (s : State) (f : Fld) : State :=
  if !s.calBusy || s.cal.commit == 2 then s
  else
    let els := s.cal.held ++ s.cal.kept
    let s := ((s.withdraw .cal).unstage (fun e => match e with | .calHold _ => true | _ => false)).updCal
      (fun c => { c with held := [], kept := [] })
    let s := s.cond (s.cal.stage == 3) (fun s => s.release (s.cal.asking.filterMap (fun e =>
      if e < 768 ∨ 912 ≤ e then some (Item.calEl e) else none)))
    (((els.foldl State.calFree s).calLetGo).raiseF A.CAL_STATUS f).calEnd true

/-- STOP takes effect (R331). -/
def State.calStopNow (s : State) : State := s.calAbort F.CAL_STATUS.ABORTED

/-- The conditions of R331 at a tick boundary. -/
def State.calCheck (s : State) : State :=
  if !s.calBusy then s
  else
    let up := s.calUp
    if s.unit.st != .running || (s.cal.up && !up) then s.calAbort F.CAL_STATUS.ABORTED
    else s.cond (up && !s.cal.up) (fun s => s.updCal (fun c => { c with up := true }))

/-- A sample of a die while a group is measured (R327). -/
def State.calWindow (s : State) (d : Nat) (t : Int) : State :=
  if s.cal.held.isEmpty then s
  else
    let far := decide (8 * F.CAL_TOL.TWIN.get s.cal.tol < (t - slotTemp s.cal.tslot s.cal.slot).natAbs)
    s.cond far (fun s => s.updCal (fun c => { c with left := c.left ||| 2 ^ d }))

/-! ### Statistical acceptance (R318) -/

/-- The place in a transition at which the occupancy reaches `pct` percent, in 1/256 code after its first code: between the two
codes that straddle it. -/
def crossAt (pct : Nat) : List Nat → Nat → Nat
  | a :: b :: l, i =>
    if 4096 * pct ≤ 100 * b then (i + (4096 * pct - 100 * a) * 256 / (100 * (b - a)) : Nat)
    else crossAt pct (b :: l) (i + 256)
  | _, i => i

/-- A list rises, or stays, from each number to the next. -/
def rises : List Nat → Bool
  | a :: b :: l => decide (a ≤ b) && rises (b :: l)
  | _ => true

/-- The transition of a threshold: from below 16 % to above 84 % within 64 codes, with a standard deviation, half of that span, of
0.05 mV to 2 mV at 7.5 V / 65,536 a code. -/
def transitionOk (counts : List Nat) : Bool :=
  let d := crossAt 84 counts 0 - crossAt 16 counts 0
  rises counts && decide (counts.length ≤ 64) && decide (100 * counts.headD 4096 < 16 * 4096)
    && decide (84 * 4096 < 100 * (counts.getLast?.getD 0))
    && decide (50 * 512 * 65536 ≤ d * 7500000) && decide (d * 7500000 ≤ 2000 * 512 * 65536)

/-- The noise per sample of a PMU current range, in pA (R203). -/
def pmuNoise (range : Nat) : Nat := [30, 200, 2000, 20000, 300000].getD range 0

/-- A figure passes its test of R318. -/
def State.figOk (s : State) : CalFig → Bool
  | .quiet mean sdI sdV => decide (mean.natAbs ≤ 20000) && decide (sdI ≤ 1000) && decide (sdV ≤ 500)
  | .occupancy counts => transitionOk counts
  | .level sd => decide (sd ≤ 500)
  | .load ua => decide (11400 ≤ ua.natAbs) && decide (ua.natAbs ≤ 12600)
  | .hits total expected bins =>
    decide (98 * expected ≤ 100 * total) && decide (100 * total ≤ 102 * expected)
      && bins.all (fun n => decide (bins.sum ≤ 2 * n * bins.length) && decide (2 * n * bins.length ≤ 3 * bins.sum))
  | .edge sd => decide (sd ≤ 64)
  | .pmuV sd => decide (2 * sd ≤ 3 * 40)
  | .pmuI r sd => decide (2 * sd ≤ 3 * pmuNoise r)
  | .convert sd refv =>
    let nv := s.eget A.REF_DECLARE F.REF_DECLARE.NV
    decide (sd ≤ 60) && decide (98 * nv ≤ 100 * refv) && decide (100 * refv ≤ 102 * nv)
  | .density least most total codes below above =>
    decide (0 < least) && decide (total ≤ 4 * least * codes) && decide (4 * most * codes ≤ 7 * total)
      && [below, above].all (fun n => decide (2 ^ 24 ≤ 100 * n) && decide (10 * n ≤ 2 ^ 24))
  | .cell sd median => decide (2000 * sd ≤ median)
  | .spread m => decide (m ≤ 100)

/-! ### Agreement (R317, R327) -/

/-- One LSB of an entry as `num` / `den`, and its repeat quantum q, in one unit (R317). -/
structure Quantum where
  num : Nat
  den : Nat
  q : Nat
  deriving DecidableEq, Repr

/-- Comparator, driver and threshold offsets, in µV; with them the level-detector offset (assumption 73). -/
def qOffset : Quantum := ⟨7500000, 2 ^ 20, 200⟩
/-- PMU voltage offset, in µV. -/
def qPmuV : Quantum := ⟨10000000, 2 ^ 20, 20⟩
/-- PMU current offset, in 0.1 µV. -/
def qPmuI : Quantum := ⟨1, 1, 5⟩
/-- Source and digitizer offset-DAC zero, in µV. -/
def qZero : Quantum := ⟨4500000, 2 ^ 20, 100⟩
/-- Precision converter offset, in µV. -/
def qConv : Quantum := ⟨10000000, 2 ^ 24, 5⟩
/-- Gains, section ratio, resistance and termination trims, in ppm. -/
def qGain : Quantum := ⟨1000000, 2 ^ 24, 100⟩
/-- The gain of a converter, in ppm. -/
def qConvGain : Quantum := ⟨1000000, 2 ^ 24, 5⟩
/-- Deskew and delay, in fine units. -/
def qTime : Quantum := ⟨1, 16, 2⟩
/-- Nonlinearity of a digitizer segment, in 0.1 code. -/
def qInl : Quantum := ⟨10, 256, 1⟩
/-- RF level, detector and receive entries, in 0.001 dB. -/
def qRf : Quantum := ⟨1, 1, 50⟩

/-- The quantum of slot entry `i` of an element (R316, R317). -/
def slotQuantum (e i : Nat) : Quantum :=
  if e < 768 then
    ([qOffset, qOffset, qGain, qOffset, qOffset, qOffset, qGain, qGain, qTime, qTime, qPmuV, qGain, qPmuI]).getD i qGain
  else if e < 792 then (if i = 0 then qZero else if i = 7 then qTime else qGain)
  else if e < 816 then (if i = 0 then qZero else if i = 6 then qOffset else if i = 7 then qTime else qGain)
  else if e < 912 then (if i = 0 then qConv else qConvGain)
  else qRf

/-- The common entries of the element are selections; those of an acquisition engine are not (R316). -/
def isSelection (e : Nat) : Bool := !(decide (792 ≤ e) && decide (e < 816))

/-- The quantum of the measure of merit of a selection (R327): of a comparator pair, of delay cells, of source cells, of a
converter's tap. -/
def meritQuantum (e j : Nat) : Quantum :=
  if e < 768 then (if j = 0 then qOffset else qTime) else if e < 792 then qGain else qConvGain

/-- Two values in 1/256 LSB lie within `tol` quanta of each other. -/
def Quantum.near (k : Quantum) (tol : Nat) (x y : Int) : Bool := decide ((x - y).natAbs * k.num ≤ tol * k.q * k.den * 256)

/-! ### Acceptance (R327) -/

/-- The part of `CAL_CMD.PARTS` that measures slot entry `i` of a channel (R316). -/
def slotPart (i : Nat) : Nat := if i < 3 then 0 else if i < 7 then 1 else if i < 8 then 2 else if i < 10 then 3 else 4

/-- A slot entry is measured in this run. -/
def State.calMeasures (s : State) (e i : Nat) : Bool :=
  if e < 768 then s.cal.parts.testBit (slotPart i)
  else if 792 ≤ e ∧ e < 816 ∧ i = 7 then s.calLane.isSome
  else true

/-- A common entry is measured in this run. -/
def State.calMeasuresCommon (s : State) (e j : Nat) : Bool :=
  if e < 768 then s.cal.parts.testBit (if j = 0 then 0 else 3) else true

/-- The two passes agree (R327): every entry of the measured parts within the tolerance; every selection the same, or the first
pass's choice within the tolerance of the second's best by the second's measure of merit. -/
def State.calAgree (s : State) (e : Nat) (r : CalRun) : Bool :=
  let tol := F.CAL_TOL.TOL.get s.cal.tol
  (List.range (elemSlots e)).all (fun i =>
      !s.calMeasures e i || (slotQuantum e i).near tol (r.p1.slot.getD i 0) (r.p2.slot.getD i 0))
    && (List.range (elemCommons e)).all (fun j =>
      let x := r.p1.common.getD j 0
      let y := r.p2.common.getD j 0
      !s.calMeasuresCommon e j || (if isSelection e then
          x == y || (let m := r.p2.merits.getD j (0, 0); (meritQuantum e j).near tol m.1 m.2)
        else qInl.near tol x y))

/-- The mean of two values in 1/256 LSB, to the nearest LSB, halves away from zero (assumption 72). -/
def passMean (x y : Int) : Int := roundAway (x + y) 512

/-- An accepted element (R327): the selections of the first pass and the means of both; entries that are not measured keep
their stored values, and an entry holds 24 bits. -/
def State.calAccept (s : State) (e : Nat) (r : CalRun) : State :=
  let fit (v : Int) : Int := twos 24 (untwos 24 v)
  let mean (f : CalPass → List Int) (i : Nat) : Int := fit (passMean ((f r.p1).getD i 0) ((f r.p2).getD i 0))
  let sv := (List.range (elemSlots e)).map (fun i =>
    if s.calMeasures e i then mean CalPass.slot i else entryValue (s.bsRd (slotWord e s.cal.slot i)))
  let old := (List.range (elemCommons e)).map (fun j => entryValue (s.bsRd (commonWord e j)))
  let cv := (List.range (elemCommons e)).map (fun j =>
    if !s.calMeasuresCommon e j then entryValue (s.bsRd (commonWord e j))
    else if isSelection e then fit (r.p1.common.getD j 0) else mean CalPass.common j)
  let changed := isSelection e && old != cv
  (s.inc A.CAL_STATUS F.CAL_STATUS.ACCEPTED 1).updCal (fun c => { c with
    accepted := c.accepted ++ [{ elem := e, slot := sv, common := cv, changed }]
    kept := if changed then c.kept ++ [e] else c.kept })

/-- A held element is decided by the first line that matches (R327). -/
def State.calDecide (s : State) (p : Nat × CalRun) : State :=
  if !(p.2.p1.figs ++ p.2.p2.figs).all s.figOk then s.calReject p.1 2
  else if s.cal.left.testBit (elemDie p.1) then s.calReject p.1 3
  else if !s.calAgree p.1 p.2 then s.calReject p.1 1
  else s.calAccept p.1 p.2

/-- Both passes of the group are complete (R326, R327): each element is decided, and released unless it stays held. -/
def State.calPassDone (s : State) (rs : List CalRun) : State :=
  let g := s.cal.held
  if g.isEmpty || rs.length != g.length then s
  else
    let s := (g.zip rs).foldl State.calDecide s
    let s := s.updCal (fun c => { c with held := [], decided := s.tickStamp })
    let s := ((g.filter (fun e => !s.cal.kept.contains e)).foldl State.calFree s).calLetGo
    if !s.cal.groups.isEmpty then s
    else if s.cal.accepted.isEmpty then s.calEnd false
    else if s.bsFailed then s.calAbort F.CAL_STATUS.ABORTED
    else s.updCal (fun c => { c with commit := 1 })

/-! ### Commit (R329, R330, R347, R353) -/

/-- `BS_STATUS.BUSY`: a commit, a record or a slot invalidation is writing. -/
def State.refreshBusy (s : State) : State :=
  s.fbit A.BS_STATUS F.BS_STATUS.BUSY (s.cal.commit == 2 || !s.sea.recs.isEmpty || s.cal.tslotDue != 0)

/-- An entry word with its epoch (R345). -/
def entryOf (epoch : Nat) (v : Int) : Word := fldEpoch.put (fldEntry.put 0 (untwos 24 v)) epoch

/-- The words of one committed element, in the order of R347 step 3. -/
def State.elemWords (s : State) (epoch : Nat) (x : Accept) : List (Nat × Word) :=
  let e := x.elem
  let slot := s.cal.slot
  let old := s.bsRd (bsEpoch e)
  let valid := if x.changed || s.isTorn e then 2 ^ slot else fldValid.get old ||| 2 ^ slot
  [(bsEpoch e, fldPend.put old 1)]
    ++ (x.slot.zipIdx).map (fun p => (slotWord e slot p.2, entryOf epoch p.1))
    ++ (x.common.zipIdx).map (fun p => (commonWord e p.2, entryOf epoch p.1))
    ++ [(bsSlotEpoch e, (fldSlotEpoch slot).put (s.bsRd (bsSlotEpoch e)) epoch),
        (bsEpoch e, fldEpoch.put (fldValid.put 0 valid) epoch)]

/-- The epoch of the commit. -/
def State.nextEpoch (s : State) : Nat := (fldEpoch.get (s.bsRd bsCommit) + 1) % 256

/-- The four words of a slot's timestamp (R353). -/
def State.stampWords (s : State) (epoch : Nat) : List (Nat × Word) :=
  let a := bsStamp s.cal.slot
  let st := s.cal.decided
  [(a, st.word0), (a + 1, st.word1), (a + 2, s.rd A.SEASON_COUNT), (a + 3, fldEpoch.put 0 epoch)]

/-- The words of a commit, steps 1 to 3 of R347, each with its check where it carries one (R344). -/
def State.commitWords (s : State) : List (Nat × Word) :=
  let epoch := s.nextEpoch
  let checked (l : List (Nat × Word)) : List (Nat × Word) := l.map (fun p => (p.1, withCheck p.2))
  checked [(bsCommit, fldPend.put (fldEpoch.put (s.bsRd bsCommit) epoch) 1)] ++ s.stampWords epoch
    ++ checked ((sortBy (fun (a b : Accept) => decide (a.elem ≤ b.elem)) s.cal.accepted).flatMap (s.elemWords epoch))

/-- What the slot of a commit holds before it, for the coefficients of its elements (R337). -/
def State.oldEntries (s : State) : List (Nat × Nat × Option Int) :=
  let slot := s.cal.slot
  let new := (s.cal.accepted.filter (fun x => !x.changed)).flatMap (fun x => (List.range (elemSlots x.elem)).map (fun i =>
    (64 * x.elem + i, slot, if s.slotValid x.elem slot then some (entryValue (s.bsRd (slotWord x.elem slot i))) else none)))
  s.cal.olds ++ new.filter (fun n => !s.cal.olds.any (fun o => o.1 == n.1 && o.2.1 == n.2.1))

/-- A commit begins to write (R329, R347). -/
def State.commitBegin (s : State) : State :=
  ((s.updCal (fun c => { c with commit := 2, words := s.commitWords, olds := s.oldEntries })).fset A.CAL_STATUS
    F.CAL_STATUS.COMMIT 1).refreshBusy

/-- The engine holds the battery store port for an access cycle (R282). -/
def State.calPort (s : State) : Bool := s.rt.grants.any (fun g => g.1 == .store && g.2 == .cal)

/-- The access cycle is used. -/
def State.portUsed (s : State) : State := s.updRt (fun r => { r with grants := r.grants.filter (fun g => g.1 != .store) })

/-- The values of a committed element whose selections did not change come into force (R336, R337). -/
def State.commitUnchanged (s : State) (x : Accept) : State :=
  let e := x.elem
  let common (s : State) : State := (x.common.zipIdx).foldl (fun s p => s.setCoef (64 * e + 18 + p.2) p.1) s
  if s.fon A.CAL_SLEW F.CAL_SLEW.AT_SEASON then
    let t := s.cal.temps.getD (elemDie e) none
    let vs := (x.slot.zipIdx).map (fun p =>
      (64 * e + p.2, match t with
        | some t => (match s.entryTarget e p.2 t with | some (v, _, _) => v | none => p.1)
        | none => p.1)) ++ (x.common.zipIdx).map (fun p => (64 * e + 18 + p.2, p.1))
    s.updCal (fun c => { c with
      buffer := c.buffer.filter (fun q => !vs.any (fun p => p.1 == q.1)) ++ vs, bufLeft := c.bufLeft + vs.length })
  else ((common s).updCal (fun c => { c with moves := c.moves ++ [e] })).retarget e

/-- The end of a commit (R330, R336 to R338, R350): the values of the elements that it has written come into force, and the run
ends. Others keep theirs. -/
def State.commitEnd (s : State) (acc : List Accept) (good : Bool) : State :=
  let mine := acc.map (·.elem)
  let s := acc.foldl (fun s x => if x.changed then s else s.commitUnchanged x) (mine.foldl State.untear s)
  let s := s.updCal (fun c => { c with
    apply := c.apply ++ c.kept.filter mine.contains, kept := c.kept.filter (fun e => !mine.contains e), commit := 0
    words := [], olds := c.olds.filter (fun o => c.buffer.any (fun p => p.1 == o.1)) })
  let lost := s.cal.kept
  let s := (lost.foldl State.calFree (s.updCal (fun c => { c with kept := [] }))).cond (!lost.isEmpty) State.calLetGo
  let s := (s.showTorn).raiseIf (!good) A.CAL_STATUS F.CAL_STATUS.ABORTED
  ((s.calEnd (!good)).refreshSettled).refreshBusy

/-- CAL_COMMIT, an access cycle of steps 1 to 3 of R347: up to 16 words through the store port (R329). One of them read back wrong
stops the commit there (R350): an element counts as committed once its epoch word has been written with PEND = 0. -/
def State.calCommit (s : State) (good : Bool) : State :=
  if s.cal.commit == 0 || !s.calPort then s
  else if s.cal.commit == 1 && s.bsFailed then s.calAbort F.CAL_STATUS.ABORTED
  else
    let s := (s.cond (s.cal.commit == 1) State.commitBegin).portUsed
    match s.cal.words with
    | [] => s
    | (a, _) :: _ =>
      if !good then
        let left := s.cal.words.map (·.1)
        (s.bsFail a).commitEnd (s.cal.accepted.filter (fun x => !left.contains (bsEpoch x.elem))) false
      else
        let now := s.cal.words.take 16
        (now.foldl (fun s p => s.bsWr p.1 p.2) s).updCal (fun c => { c with words := c.words.drop 16 })

/-- CAL_COMMIT_COMPLETE, step 4 of R347: the epoch is loaded, new values come into force, the run ends. -/
def State.calComplete (s : State) (good : Bool) : State :=
  if s.cal.commit != 2 || !s.cal.words.isEmpty || !s.calPort then s
  else
    let w := s.bsRd bsCommit
    let s := s.portUsed
    let s := if good then s.bsWrC bsCommit (fldPend.put (fldCommits.put w (min (fldCommits.get w + 1) fldCommits.max)) 0)
      else s.bsFail bsCommit
    let s := s.cond good (fun s => (s.fset A.CAL_EPOCH F.CAL_EPOCH.EPOCH (fldEpoch.get w)).updSea
      (fun k => { k with commits := k.commits + 1 }))
    s.commitEnd s.cal.accepted good

/-- SELECTION_APPLY (R338): at the first tick boundary after the commit. -/
def State.calApply (s : State) : State :=
  if s.cal.apply.isEmpty then s
  else
    let els := s.cal.apply
    let s := s.updCal (fun c => { c with apply := [] })
    let s := els.foldl (fun s e => (((s.retarget e).applyElem e).calFree e).cond (decide (e < 768)) (fun s => s.refreshPair e)) s
    ((s.calLetGo).updSea (fun k => { k with moving := true })).refreshSettled

/-! ### Temperature slots (R333, R354) -/

/-- `CAL_TSLOT` comes into force at a season boundary B (R333, R354): changed slots become invalid, a run ends, and the store
follows from W(B + 2) on. -/
def State.applyTslot (s : State) (v : Word) : State :=
  let old := s.eff A.CAL_TSLOT
  let m := ((List.range 4).filter (fun i => slotTemp old i != slotTemp v i)).foldl (fun m i => m + 2 ^ i) 0
  let s := s.setEff A.CAL_TSLOT v
  if m = 0 then s
  else ((s.updCal (fun c => { c with tslotDue := c.tslotDue ||| m, tslotAt := s.now + 2, tslotPos := 0 })).calAbort
    F.CAL_STATUS.ABORTED).refreshBusy

/-- The VALID bits of slots are cleared in the epoch words of some elements (R354 step 2). -/
def State.clearValid (s : State) (m : Nat) (els : List Nat) : State :=
  s.each els (fun s e =>
    let w := s.bsRd (bsEpoch e)
    let v := fldValid.get w &&& (15 - m % 16)
    if v = fldValid.get w then s else s.bsWrC (bsEpoch e) (fldValid.put w v))

/-- `BS_TSLOT_N` (R354 step 3). -/
def State.tslotNWrite (s : State) : State := s.bsWr bsTslotN (~~~s.eff A.CAL_TSLOT)

/-- The reserved cycles of step 2: 16 epoch words each. -/
def tslotCycles : Nat := 58

/-- TSLOT_INVALIDATION (R354): one reserved cycle of the sequence, in a window of its own: `BS_TSLOT`, 16 epoch words, or
`BS_TSLOT_N` and the end. -/
def State.tslotCycle (s : State) : State :=
  let k := s.cal
  if k.tslotDue = 0 ∨ k.commit = 2 ∨ s.bsFailed = true ∨ s.now < k.tslotAt then s
  else
    let s := s.updCal (fun c => { c with tslotAt := s.now + 1, tslotPos := c.tslotPos + 1 })
    if k.tslotPos = 0 then s.bsWr bsTslot (s.eff A.CAL_TSLOT)
    else if k.tslotPos ≤ tslotCycles then
      s.clearValid k.tslotDue ((List.range 16).map (fun i => 16 * (k.tslotPos - 1) + i) |>.filter (fun e => decide (e < 920)))
    else ((s.tslotNWrite).updCal (fun c => { c with tslotDue := 0, tslotPos := 0 })).refreshBusy

/-! ### The commands -/

/-- CAL_GO (R322): the write takes effect. -/
def execCalGo (s : State) : Host.Outcome State Fault Refusal := .next s.calGoNow

/-- CAL_STOP (R331). -/
def execCalStop (s : State) : Host.Outcome State Fault Refusal := .next s.calStopNow

/-- CAL_GROUP_HOLD (R325): the group that has its grants and its charge is held. -/
def execCalGroupHold (s : State) : Host.Outcome State Fault Refusal := .next s.calHold

/-- CAL_PASS_DONE (R326 to R328): the second pass is complete; what both have measured of each held element. -/
def execCalPassDone (runs : List CalRun) (s : State) : Host.Outcome State Fault Refusal := .next (s.calPassDone runs)

/-- CAL_COMMIT (R329, R347, R350). -/
def execCalCommit (readBackOk : Bool) (s : State) : Host.Outcome State Fault Refusal := .next (s.calCommit readBackOk)

/-- CAL_COMMIT_COMPLETE (R330, R336 to R338, R347). -/
def execCalCommitComplete (readBackOk : Bool) (s : State) : Host.Outcome State Fault Refusal := .next (s.calComplete readBackOk)

/-- TSLOT_INVALIDATION (R354): not while a commit writes. -/
def execTslotInvalidation (s : State) : Host.Outcome State Fault Refusal := .next s.tslotCycle

end Sys2Proof.Machine
end

