-- ==== Sys2Proof/Machine/Store.lean ====
section
/-! DEFINITION. The battery-backed store outside a commit (R342 to R355): the check at start-up, host accesses through the
window, the traceability records and the service counters. -/

namespace Sys2Proof.Machine

/-! ### The check at start-up (R348, R351, R352, R354) -/

/-- The content is lost (R351, R354): the serial, the commit word or the order of the slot temperatures fails. -/
def State.bsLost (s : State) : Bool :=
  let f := s.serial
  (s.bsRd bsSerial0).toNat != f % 2 ^ 36 || (s.bsRd bsSerial1).toNat % 2 ^ 28 != f / 2 ^ 36
    || !checkOk (s.bsRd bsCommit) || !tslotOk (s.bsRd bsTslot)

/-- STORE_CONTENT_LOST (R351). -/
def State.bsLoss (s : State) : State :=
  if !s.bsLost then s
  else
    (((s.bsReinit).raiseF A.BS_STATUS F.BS_STATUS.LOST).raiseF A.FAULT_STATUS F.FAULT_STATUS.STORE_LOST).fset A.SEASON_STATUS
      F.SEASON_STATUS.COUNT_RESTART 1

/-- COUNTER_REPAIR (R352). -/
def State.bsRepair (s : State) : State :=
  s.each [bsHours, bsSeasons, bsWakes] (fun s i =>
    if s.bsRd (i + 1) = ~~~(s.bsRd i) then s
    else (s.bsWr (i + 1) (~~~(s.bsRd i))).raiseF A.BS_STATUS F.BS_STATUS.CNT_REPAIR)

/-- The slots that differ between `BS_TSLOT` and the complement of `BS_TSLOT_N`, as a mask. -/
def State.tslotTorn (s : State) : Nat :=
  ((List.range 4).filter (fun i =>
    (Fld.mk (9 * i) 9).get (s.bsRd bsTslot) != (Fld.mk (9 * i) 9).get (~~~(s.bsRd bsTslotN)))).foldl (fun m i => m + 2 ^ i) 0

/-- The invalidation that a loss of power interrupted is completed (R354). -/
def State.bsTslotFix (s : State) : State :=
  let s := s.putBoth A.CAL_TSLOT (s.bsRd bsTslot)
  if s.tslotTorn = 0 then s else ((s.clearValid s.tslotTorn (List.range 920)).tslotNWrite).raiseF A.BS_STATUS F.BS_STATUS.TSLOT_FIX

/-- Element E is torn as the store stands (R348). -/
def State.storeTorn (s : State) (e : Nat) : Bool :=
  let w := s.bsRd (bsEpoch e)
  let q := s.bsRd (bsSlotEpoch e)
  let bad (epoch : Nat) (x : Word) : Bool := !checkOk x || fldEpoch.get x != epoch
  !checkOk w || !checkOk q || fldPend.on w
    || ((List.range 4).filter (fldValid.get w).testBit).any (fun t =>
      (List.range (elemSlots e)).any (fun i => bad ((fldSlotEpoch t).get q) (s.bsRd (slotWord e t i))))
    || (List.range (elemCommons e)).any (fun j => bad (fldEpoch.get w) (s.bsRd (commonWord e j)))

/-- TORN_ELEMENT_DETECTION (R348, R349). -/
def State.bsTorn (s : State) : State :=
  let t := (List.range 920).filter s.storeTorn
  ((s.updCal (fun c => { c with torn := t })).each t (fun s e => s.setUncal e true)).showTorn

/-- An open commit is closed and counts as one commit (R348); the epoch is loaded (R347). -/
def State.bsClose (s : State) : State :=
  let w := s.bsRd bsCommit
  let s := s.cond (fldPend.on w) (fun s =>
    s.bsWrC bsCommit (fldPend.put (fldCommits.put w (min (fldCommits.get w + 1) fldCommits.max)) 0))
  s.fset A.CAL_EPOCH F.CAL_EPOCH.EPOCH (fldEpoch.get w)

/-- The season number of the first season (R72); after a loss numbering starts at 0. -/
def State.loadSeason (s : State) : State :=
  s.wr A.SEASON_COUNT (if s.fon A.SEASON_STATUS F.SEASON_STATUS.COUNT_RESTART then 0 else s.bsRd bsSeasons + 1)

/-- BATTERY_DOMAIN_CHECK, step 2 of start-up (R347, R348, R351, R352, R354, R72). -/
def State.bsCheck (s : State) : State :=
  (((((s.bsLoss).bsRepair).bsTslotFix).bsTorn).bsClose).loadSeason

/-! ### The window (R355) -/

/-- A host write of a store word: accepted to `BS_ADDR` and to scratch words, and answered with whether it was ignored. -/
def State.storeWrite (s : State) (i : Nat) (v : Word) : State × Bool :=
  let addr := v.toNat % 64
  let ign := (s.raiseF A.BS_STATUS F.BS_STATUS.WR_IGN, true)
  if s.bsFailed then ign
  else if bsScratch i then (s.bsPut i v, false)
  else if i = bsAddr then
    if fldAddrValid.on v && (addr == 0 || addr == 63) then ign
    else (s.bsPut bsAddr (withCheck (fldAddrValid.put (BitVec.ofNat 36 addr) (fldAddrValid.get v))), false)
  else ign

/-! ### Records and counters (R75, R76, R351, R353) -/

/-- TRACEABILITY_RECORD_WRITE (R75, R76, R350, R353): the oldest record that waits, in the window after the one that latched it
or later. -/
def State.recordWrite (s : State) (good : Bool) : State :=
  match s.sea.recs with
  | [] => s
  | (at_, r) :: rest =>
    if s.now < at_ then s
    else
    let s := s.updSea (fun k => { k with recs := rest })
    let base := bsRecord (r.headD 0).toNat
    let lost := s.bsFailed || !good
    let s := if s.bsFailed then s
      else if !good then s.bsFail base
      else (r.zipIdx).foldl (fun s p => s.bsWr (base + p.2) p.1) s
    let s := s.raiseIf lost A.SEASON_STATUS F.SEASON_STATUS.REC_LOST
    (s.cond rest.isEmpty (fun s => s.fset A.SEASON_STATUS F.SEASON_STATUS.REC_PENDING 0)).refreshBusy

/-- SEASONS_COUNTER_WRITE (R351, R353): at first tick alignment, and two windows after a boundary. -/
def State.seasonsWrite (s : State) (good : Bool) : State :=
  if !s.sea.seasonDue || decide (s.now < s.sea.seasonFrom) then s
  else
    let s := s.updSea (fun k => { k with seasonDue := false })
    if good then s.bsCounter bsSeasons (s.rd A.SEASON_COUNT).toNat else s.bsFail bsSeasons

/-- Ticks of one powered hour (R351). -/
def hourTicks : Nat := 14400000000

/-! ### The commands -/

/-- TRACEABILITY_RECORD_WRITE (R75, R76, R350). -/
def execTraceabilityRecordWrite (readBackOk : Bool) (s : State) : Host.Outcome State Fault Refusal := .next (s.recordWrite readBackOk)

/-- SEASONS_COUNTER_WRITE (R351, R350). -/
def execSeasonsCounterWrite (readBackOk : Bool) (s : State) : Host.Outcome State Fault Refusal := .next (s.seasonsWrite readBackOk)

/-- POWERED_HOURS_INCREMENT (R351): after 3,600 s in RUNNING. -/
def execPoweredHoursIncrement (s : State) : Host.Outcome State Fault Refusal :=
  if s.unit.runTicks < hourTicks then ok s
  else .next ((s.updUnit (fun u => { u with runTicks := u.runTicks - hourTicks })).bsCount bsHours 1)

end Sys2Proof.Machine
end

