-- ==== Sys2Proof/Machine/Tick.lean ====
section
/-! DEFINITION. The tick (R51 to R66): the decoded card frames, the phase error, leap ticks, jumps, epact and its measurement,
and the tick count as a host reads it. -/

namespace Sys2Proof.Machine

/-! ### Card frames (R52, R54, R55) -/

/-- How a high width decodes: 0 and 1 for data, 2 for sync. -/
def widthCode (w : Nat) : Option Nat :=
  if 3 ≤ w ∧ w ≤ 7 then some 0 else if 8 ≤ w ∧ w ≤ 12 then some 1 else if 13 ≤ w ∧ w ≤ 17 then some 2 else none

/-- The count of the sync tick of a frame of 64 widths; none for a frame error. -/
def frameCount (ws : List (Option Nat)) : Option Nat :=
  let codes := ws.map (fun w => w.bind widthCode)
  if ws.length = 64 ∧ codes.headD none = some 2 ∧ (codes.drop 1).all (fun c => c == some 0 || c == some 1) then
    some ((List.range 48).foldl (fun n i => if codes.getD (i + 1) none == some 1 then n + 2 ^ i else n) 0)
  else none

/-- TICK faults (R409). -/
def State.tickFault (s : State) : State := s.raiseF A.FAULT_STATUS F.FAULT_STATUS.TICK

/-- TICK_FRAME (R52, R54): the frame that ended at the current tick instant, whose own count is the decoded one plus 64. A
frame that agrees confirms the count of a unit that ran free (assumption 49). -/
def State.tickFrame (s : State) (ws : List (Option Nat)) : State :=
  match frameCount ws with
  | none => s.raiseF A.TICK_STATUS F.TICK_STATUS.FRAME_ERR
  | some n =>
    if !s.clk.running then s
    else
      let d := (n + 64 + 2 ^ 48 - s.clk.count) % 2 ^ 48
      let s := s.updClk (fun c => { c with cardDiff := some d })
      if d != 0 then (s.raiseF A.TICK_STATUS F.TICK_STATUS.COUNT_MISMATCH).tickFault
      else (s.fset A.TICK_STATUS F.TICK_STATUS.COUNT_SET 1).fset A.TICK_STATUS F.TICK_STATUS.FREE 0

/-- TICK_LOST (R55): the fourth missing edge in a row; the unit source UNIT occurs with kind 5 (R262). -/
def State.tickLost (s : State) : State :=
  if s.clk.missing < 4 then s
  else (((s.raiseF A.TICK_STATUS F.TICK_STATUS.TICK_LOST).fset A.TICK_STATUS F.TICK_STATUS.LOCKED 0).tickFault).eventT
    evUnit 0 5

/-- COUNT_ADOPTION (R54) at a season boundary: a card count that is ahead, or one that is behind after ADOPT, which asks for
this boundary alone. The new count is in force at the next boundary. -/
def State.adoptCount (s : State) : State :=
  let adopt := s.clk.adopt
  let s := s.updClk (fun c => { c with adopt := false })
  match s.clk.cardDiff with
  | none => s
  | some d =>
    let ahead := decide (0 < d) && decide (d < 2 ^ 47)
    if d = 0 ∨ (!ahead && !adopt) = true then s
    else
      let s := s.updClk (fun c => { c with adoptTo := some ((c.count + 1 + d) % 2 ^ 48), cardDiff := none })
      let s := (s.fset A.TICK_STATUS F.TICK_STATUS.COUNT_SET 1).fset A.TICK_STATUS F.TICK_STATUS.FREE 0
      s.cond (!ahead) (fun s => (s.raiseF A.TICK_STATUS F.TICK_STATUS.STEP_BACK).updSea (fun k => { k with stepBack := true }))

/-! ### Phase error and leaps (R59 to R62) -/

/-- The threshold in CORE cycles. -/
def State.thresh (s : State) : Nat := s.fget A.LEAP_CTL F.LEAP_CTL.THRESH

/-- `EPACT` in fine units (R63). -/
def State.epact (s : State) : Int := twos 25 (s.fget A.EPACT F.EPACT.EPACT)

/-- The phase error in fine units (R59, R62): the card edge, corrected by epact, minus the local tick instant, measured to the
nearest corrected card edge. -/
def State.phaseError (s : State) (edge : Int) : Int :=
  (edge + s.epact + Config.tickFine / 2) % Config.tickFine - Config.tickFine / 2

/-- A phase error in CORE cycles of 614.4 fine units, to the nearest (R59, assumption 50). -/
def phaseCycles (e : Int) : Int := roundAway (5 * e) 3072

/-- The magnitude of a phase error is at or above a number of CORE cycles. -/
def phaseFar (e : Int) (cycles : Nat) : Bool := decide (cycles * 3072 ≤ 5 * e.natAbs)

/-- The phase error of a tick (R59), from the card edge, or a missing edge (R52, R55), which a unit that runs free does not
expect. -/
def State.phaseMeasure (s : State) (edge : Option Int) : State :=
  match edge with
  | none =>
    if s.fon A.TICK_STATUS F.TICK_STATUS.FREE then s
    else (s.raiseF A.TICK_STATUS F.TICK_STATUS.FRAME_ERR).updClk (fun c => { c with missing := c.missing + 1, persist := 0 })
  | some x =>
    let e := s.phaseError x
    let far := phaseFar e s.thresh
    let s := (s.fset A.TICK_STATUS F.TICK_STATUS.PHASE_ERR (untwos 8 (clampInt (-128) 127 (phaseCycles e)))).fbit A.TICK_STATUS
      F.TICK_STATUS.LOCKED (!far)
    s.updClk (fun c => { c with phase := e, missing := 0, persist := if far then c.persist + 1 else 0 })

/-- LEAP_SCHEDULE (R59): at least two ticks ahead, and 4,096 ticks after the leap before. -/
def State.leapSchedule (s : State) : State :=
  if s.clk.persist < 64 ∨ !s.fon A.LEAP_CTL F.LEAP_CTL.EN ∨ s.clk.leapDue.isSome ∨ s.clk.jump ≠ 0 then s
  else
    let at_ := match s.clk.lastLeap with
      | some l => max (s.now + 2) (l + 4096)
      | none => s.now + 2
    (s.updClk (fun c => { c with leapDue := some at_ })).fset A.TICK_STATUS F.TICK_STATUS.LEAP_PENDING 1

/-- A slew of the CONV phase begins (R62, R63). -/
def State.slewBegin (s : State) (fine : Int) : State :=
  if fine = 0 then s
  else ((s.updClk (fun c => { c with slew := c.slew + fine })).fset A.TICK_STATUS F.TICK_STATUS.SLEWING 1).markLeap

/-- The current tick is a leap tick of `n` steps (R60, R61): the unit source UNIT occurs with kind 4 (R262). -/
def State.leapNow (s : State) (n : Int) : State :=
  (((s.updClk (fun c => { c with tickLen := (Config.tickFine + n * Config.stepFine).toNat, lastLeap := some s.now, persist := 0 })).inc
    A.TICK_STATUS F.TICK_STATUS.LEAPS 1).markLeap).eventT evUnit 0 4

/-- A phase error in whole steps of 3,072 fine units (5 CORE cycles), to the nearest (R60, R62, R63). -/
def wholeSteps (e : Int) : Int := roundAway e Config.stepFine

/-- What rounding leaves of a phase error, in fine units: at most 1,536 of them (R62). -/
def phaseRest (e : Int) : Int := e - Config.stepFine * wholeSteps e

/-- The current tick can still be a leap tick: leaps are enabled, and it is none yet (R60, R62). -/
def State.canLeap (s : State) : Bool := s.fon A.LEAP_CTL F.LEAP_CTL.EN && s.clk.lastLeap != some s.now

/-- LEAP_TICK (R60 to R62): the next steps of a jump, from the tick after it began, or the scheduled leap. A scheduled leap is
taken whatever has become of the phase error, with the steps that the last measured one asks for, if any (assumption 51). -/
def State.leapTick (s : State) : State :=
  if !s.canLeap then s
  else if s.clk.jump ≠ 0 then
    if s.now < s.clk.jumpFrom then s
    else
      let n := clampInt (-5) 5 s.clk.jump
      let s := (s.leapNow n).updClk (fun c => { c with jump := c.jump - n })
      if s.clk.jump ≠ 0 then s
      else ((s.fset A.LEAP_CTL F.LEAP_CTL.JUMP 0).slewBegin (phaseRest s.clk.jumpErr)).updClk (fun c => { c with jumpErr := 0 })
  else match s.clk.leapDue with
    | none => s
    | some l =>
      if s.now < l then s
      else
        let m : Int := s.fget A.LEAP_CTL F.LEAP_CTL.MAX
        ((s.updClk (fun c => { c with leapDue := none })).fset A.TICK_STATUS F.TICK_STATUS.LEAP_PENDING 0).leapNow
          (clampInt (-m) m (wholeSteps s.clk.phase))

/-- No leap is scheduled. -/
def State.noLeap (s : State) : State :=
  (s.updClk (fun c => { c with leapDue := none })).fset A.TICK_STATUS F.TICK_STATUS.LEAP_PENDING 0

/-- A write of `LEAP_CTL` reaches CORE (R54, R59, R62, R66). With EN at 0 no leap is taken, so a scheduled one is dropped. A
jump with less than one whole step to remove needs no leap tick: JUMP clears at once and the rest is slewed; LEAP_PENDING reads
0 while a jump runs (assumption 52). -/
def State.writeLeap (s : State) (v : Word) : State :=
  if !accepts A.LEAP_CTL v then s
  else
    let s := (s.wr A.LEAP_CTL (s.overlay A.LEAP_CTL v)).cond (F.LEAP_CTL.ADOPT.on v) (fun s =>
      s.updClk (fun c => { c with adopt := true }))
    let s := s.cond (!F.LEAP_CTL.EN.on v) State.noLeap
    let e := s.clk.phase
    if !F.LEAP_CTL.JUMP.on v then s.updClk (fun c => { c with jump := 0 })
    else if !F.LEAP_CTL.EN.on v ∨ s.clk.jump ≠ 0 then s
    else if wholeSteps e = 0 then (s.fset A.LEAP_CTL F.LEAP_CTL.JUMP 0).slewBegin (phaseRest e)
    else (s.updClk (fun c => { c with jump := wholeSteps e, jumpErr := e, jumpFrom := s.now + 1 })).noLeap

/-! ### Epact (R63 to R65) -/

/-- A write of `EPACT` (R63): while the tick runs, the new value is in every phase error from now on, so that whole steps
follow through leap ticks, and the rest is slewed. -/
def State.writeEpact (s : State) (v : Word) : State :=
  if !accepts A.EPACT v then s
  else
    let new := twos 25 (F.EPACT.EPACT.get v)
    let s := s.wr A.EPACT (s.overlay A.EPACT v)
    if !s.clk.running then s
    else
      let rest := Int.tmod (new - s.clk.epact) 3072
      (s.updClk (fun c => { c with epact := new })).slewBegin rest

/-- EPACT_SLEW_END (R62, R63). -/
def State.slewEnd (s : State) : State :=
  (s.updClk (fun c => { c with slew := 0 })).fset A.TICK_STATUS F.TICK_STATUS.SLEWING 0

/-- START of a marker measurement (R64), ignored while one runs. -/
def State.epactStart (s : State) : State :=
  if s.fon A.EPACT_CTL F.EPACT_CTL.BUSY then s
  else
    ((s.updClk (fun c => { c with measLeft := 4096, sumA := 0, cntA := 0, sumB := 0, cntB := 0 })).fset A.EPACT_CTL
      F.EPACT_CTL.BUSY 1).fset A.EPACT_CTL F.EPACT_CTL.DONE 0

/-- Fine units from the unit's own tick instant with a count [15:0] to the current tick instant (R65), for the tick whose count
is nearest: a tick that is neither the current one nor a neighbour counts at the ordinary length. -/
def State.ownTick (s : State) (count : Nat) : Int :=
  let d := twos 16 ((s.clk.count + 2 ^ 16 - count % 2 ^ 16) % 2 ^ 16)
  if d = 0 then 0
  else if 0 < d then s.clk.prevLen + (d - 1) * Config.tickFine
  else -(s.clk.tickLen : Int) + (d + 1) * Config.tickFine

/-- A marker that carries a tick count arrives (R65, R389): its first bit, in 1/16 fine units after the current tick instant,
less OFFSET, is measured from the unit's own tick instant of that count. -/
def State.marker (s : State) (r : Side) (count arrival offset : Nat) : State :=
  if !s.fon A.EPACT_CTL F.EPACT_CTL.BUSY then s
  else
    let t := (arrival : Int) + 16 * (s.ownTick count - offset)
    s.updClk (fun c => match r with
      | .a => { c with sumA := c.sumA + t, cntA := c.cntA + 1 }
      | .b => { c with sumB := c.sumB + t, cntB := c.cntB + 1 })

/-- One mean (R65), in 1/16 fine units to the nearest, halves away from zero (assumption 53); the mean of no markers is a free
value. -/
def State.epactMean (s : State) (a : Nat) (sum : Int) (n : Nat) : State :=
  let mean := if n = 0 then Config.freeReading s.free else roundAway sum n
  let s := s.wr a (F.EPACT_MEAS_A.VALID.put (F.EPACT_MEAS_A.NO_PEER.put (F.EPACT_MEAS_A.MEAN.put 0 (untwos 29 mean))
    (bit01 (n == 0))) (bit01 (decide (3584 ≤ n))))
  s.cond (n == 0) State.fresh

/-- EPACT_MEASUREMENT_END (R65). -/
def State.epactEnd (s : State) : State :=
  if !s.fon A.EPACT_CTL F.EPACT_CTL.BUSY ∨ s.clk.measLeft ≠ 0 then s
  else
    let s := (s.epactMean A.EPACT_MEAS_A s.clk.sumA s.clk.cntA).epactMean A.EPACT_MEAS_B s.clk.sumB s.clk.cntB
    (s.fset A.EPACT_CTL F.EPACT_CTL.BUSY 0).fset A.EPACT_CTL F.EPACT_CTL.DONE 1

/-! ### The count as a host reads it (R57, R430) -/

/-- A read of `TICK_COUNT_LO`: word 0 of the timestamp of the CORE cycle, and word 1 latched for the host. -/
def State.readCount (s : State) (h : Side) (cyc : Nat) : State × Word :=
  let st := s.stamp (cycleFine cyc) false
  let s := s.markLocal st.loc
  (s.latch h A.TICK_COUNT_HI st.word1, st.word0)

/-! ### The commands -/

/-- TICK_FRAME (R52, R54). -/
def execTickFrame (widths : List (Option Nat)) (s : State) : Host.Outcome State Fault Refusal := .next (s.tickFrame widths)

/-- TICK_LOST (R55). -/
def execTickLost (s : State) : Host.Outcome State Fault Refusal := .next s.tickLost

/-- LEAP_SCHEDULE (R59). -/
def execLeapSchedule (s : State) : Host.Outcome State Fault Refusal := .next s.leapSchedule

/-- LEAP_TICK (R60 to R62). -/
def execLeapTick (s : State) : Host.Outcome State Fault Refusal := .next s.leapTick

/-- LEAP_JUMP (R62): a write of `LEAP_CTL`. -/
def execLeapJump (w : Wr) (s : State) : Host.Outcome State Fault Refusal := .next (s.writeLeap w.val)

/-- ADOPT (R54): a write of `LEAP_CTL`. -/
def execAdopt (w : Wr) (s : State) : Host.Outcome State Fault Refusal := .next (s.writeLeap w.val)

/-- EPACT_WRITE (R63). -/
def execEpactWrite (w : Wr) (s : State) : Host.Outcome State Fault Refusal := .next (s.writeEpact w.val)

/-- EPACT_SLEW_END (R63). -/
def execEpactSlewEnd (s : State) : Host.Outcome State Fault Refusal := .next s.slewEnd

/-- EPACT_START (R64). -/
def execEpactStart (s : State) : Host.Outcome State Fault Refusal := .next s.epactStart

/-- MARKER (R65, R389). -/
def execMarker (ring : Side) (count arrival offset : Nat) (s : State) : Host.Outcome State Fault Refusal :=
  .next (s.marker ring count arrival offset)

/-- EPACT_MEASUREMENT_END (R65). -/
def execEpactMeasurementEnd (s : State) : Host.Outcome State Fault Refusal := .next s.epactEnd

/-- TICK_COUNT_LO_READ (R430). -/
def execTickCountLoRead (h : Side) (cyc : Nat) (s : State) : Host.Outcome State Fault Refusal := .next (s.readCount h cyc).1

/-- TICK_STATUS_READ (R429): LEAPS clears. -/
def execTickStatusRead (s : State) : Host.Outcome State Fault Refusal := .next (s.fset A.TICK_STATUS F.TICK_STATUS.LEAPS 0)

/-- TICK_BUDGET_READ (R429): HELD, LEDGER_FULL and CAL_DEFER clear. -/
def execTickBudgetRead (s : State) : Host.Outcome State Fault Refusal := .next (s.wr A.TICK_BUDGET 0)

end Sys2Proof.Machine
end

