-- ==== Sys2Proof/Machine/Season.lean ====
section
/-! DEFINITION. Seasons (R67 to R76, R459 to R461): boundaries, the season latch, the traceability record; and the die samples
(R334, R412, R431, R461). -/

namespace Sys2Proof.Machine

/-! ### Boundaries (R6, R67, R68, R337) -/

/-- The registers whose writes take effect at a season boundary (R6). -/
def isSeasonReg (a : Nat) : Bool := (regInfo a).asM != 0

/-- Values due by now of AS registers come into force (R6, R73, R333). -/
def State.seasonForces (s : State) : State :=
  let mine (t : Staged) : Bool := match t.eff with | .force a _ => isSeasonReg a && decide (t.due ≤ s.now) | _ => false
  let l := s.staged.filter mine
  let s := s.updStaged (fun l => l.filter (fun t => !mine t))
  l.foldl (fun s t => match t.eff with
    | .force a v => if a = A.CAL_TSLOT then s.applyTslot v else s.setEff a v
    | _ => s) s

/-- Values of AS registers that no season boundary has met wait for the next boundary of a tick (R7). -/
def State.seasonWait (s : State) : State :=
  let late (t : Staged) : Bool := match t.eff with | .force a _ => isSeasonReg a && decide (t.due ≤ s.now) | _ => false
  let l := s.staged.filter late
  let s := s.updStaged (fun l => l.filter (fun t => !late t))
  l.foldl (fun s t => match t.eff with
    | .force a _ =>
      if s.staged.any (fun u => u.due == s.now + 1 && u.eff.sameTarget (.force a 0)) then s
      else s.updStaged (fun l => l ++ [{ t with due := s.now + 1 }])
    | _ => s) s

/-- A season boundary falls at the current tick, with these causes (R67, R68). The first cause makes it. -/
def State.seasonAt (s : State) (mask : Nat) : State :=
  let s := if s.sea.due != 0 then s
    else
      let s := s.updSea (fun k => { k with
        oldRef := s.eff A.REF_DECLARE, oldChuck := s.eff A.CHUCK_DECLARE, oldSlot := s.fget A.ALMANAC_STATUS F.ALMANAC_STATUS.SLOT })
      ((s.seasonForces).calSwitch).eventT evSeason 0 0
  s.updSea (fun k => { k with due := k.due ||| mask })

/-- A write of `SEASON_CTL` reaches CORE (R67). -/
def State.writeSeason (s : State) (w : Wr) : State :=
  (s.writeAt A.SEASON_CTL w).cond (F.SEASON_CTL.BOUNDARY.on w.val) (fun s => s.stage (s.dueAt w.cyc) w.who (.season 4))

/-- SEASON_INTERVAL (R67, R459): the season length has reached INTERVAL, while the counter runs. -/
def State.seasonInterval (s : State) : State :=
  let n := s.eget A.SEASON_CTL F.SEASON_CTL.INTERVAL
  s.cond (s.sea.open_ && s.clk.running && n != 0 && decide (n ≤ s.sea.len)) (fun s => s.seasonAt 8)

/-! ### The record (R75, R460, R461) -/

/-- One bit into the CRC-32 of R460. -/
def crcBit (r : Nat) (b : Bool) : Nat :=
  let t := r * 2 % 2 ^ 32
  if r.testBit 31 != b then t ^^^ 0x04c11db7 else t

/-- The bits of a word from bit `hi - 1` down to bit `lo`. -/
def bitsDown (w : Word) (hi lo : Nat) : List Bool := ((List.range (hi - lo)).map (fun i => w.getLsbD (hi - 1 - i)))

/-- The CRC of a record (R460): words 0 to 14, then word 15 [35:12]. -/
def recordCrc (ws : List Word) : Nat :=
  let bits := ((ws.take 15).map (fun w => bitsDown w 36 0)).flatten ++ bitsDown (ws.getD 15 0) 36 12
  bits.foldl crcBit (2 ^ 32 - 1) ^^^ (2 ^ 32 - 1)

/-- A die's temperature in a record; that of a die without a sample is a free value. -/
def State.recTemp (s : State) (l : List (Option Int)) (d : Nat) : Nat :=
  untwos 12 ((l.getD d none).getD (Config.freeReading (s.free + d)))

/-- Three 12-bit values as a word. -/
def word3 (a b c : Nat) : Word := BitVec.ofNat 36 (a * 2 ^ 24 + b * 2 ^ 12 + c)

/-- The 16 words of the record of the season that ends at the current tick (R75). -/
def State.record (s : State) : List Word :=
  let k := s.sea
  let m := s.recTemp k.tmin
  let x := s.recTemp k.tmax
  let e := s.fget A.CAL_EPOCH F.CAL_EPOCH.EPOCH
  let b (c : Bool) (i : Nat) : Nat := if c then 2 ^ i else 0
  let n (v : Nat) : Word := BitVec.ofNat 36 v
  let ws : List Word := [
    s.rd A.SEASON_COUNT, n k.startTick, n s.clk.count,
    n (k.startTick / 2 ^ 36 % 2 ^ 12 * 2 ^ 24 + s.clk.count / 2 ^ 36 % 2 ^ 12 * 2 ^ 12 + b k.local_ 11 + b k.leap 10
      + b k.stepBack 9 + b k.moving 8 + k.due % 2 ^ 6),
    s.rd A.UNIT_ID0,
    n (s.fget A.UNIT_ID1 F.UNIT_ID1.SERIAL_HI * 2 ^ 8 + s.fget A.UNIT_ADDR F.UNIT_ADDR.ADDR * 4 + k.oldSlot * 2),
    n (k.epochStart * 2 ^ 28 + e * 2 ^ 20 + min k.commits 255 * 2 ^ 12 + b k.torn 11),
    n (k.clamped % 2 ^ 7 * 2 ^ 28 + k.used % 2 ^ 28), k.oldRef, k.oldChuck,
    word3 (m 7) (m 0) (m 1), word3 (m 2) (m 3) (m 4), word3 (m 5) (m 6) 0,
    word3 (x 7) (x 0) (x 1), word3 (x 2) (x 3) (x 4), word3 (x 5) (x 6) 0]
  ws.set 15 (word3 (x 5) (x 6) (recordCrc ws % 2 ^ 12))

/-! ### The latch (R69) -/

/-- The live statistics and their shadows. -/
def seasonStats : List (Nat × Nat) :=
  ((List.range 768).map (fun c => [(A.CH_FAILCNT c, A.CH_FAILCNT_SH c), (A.CH_VIGIL_CNT c, A.CH_VIGIL_CNT_SH c),
      (A.CH_PMU_SUM c, A.CH_PMU_SUM_SH c)])).flatten
    ++ ((List.range 24).map (fun e => [(A.AE_TRIGCNT (e / 2) (e % 2), A.AE_TRIGCNT_SH (e / 2) (e % 2)),
      (A.AE_MISSED (e / 2) (e % 2), A.AE_MISSED_SH (e / 2) (e % 2)),
      (A.AE_DEAD (e / 2) (e % 2), A.AE_DEAD_SH (e / 2) (e % 2))])).flatten
    ++ [(A.ARB_LOSS, A.ARB_LOSS_SH), (A.POWER_REFUSE, A.POWER_REFUSE_SH)]

/-- One statistic is copied into its shadow and restarts at zero. -/
def State.latchStat (s : State) (p : Nat × Nat) : State := (s.wr p.2 (s.rd p.1)).wr p.1 0

/-- The latches that clear at a season boundary (R69, R93), with `CH_FAIL_ADDR` (R96). -/
def State.latchClear (s : State) (c : Nat) : State :=
  if s.eon (A.CH_MODE c) F.CH_MODE.LATCH_CLR then (s.wr (A.CH_LATCH c) 0).wr (A.CH_FAIL_ADDR c) 0 else s

/-- Slots that the elements of the dies use at their latest samples, by bit 4d + s (R75). -/
def State.slotsUsed (s : State) : Nat :=
  (List.range 920).foldl (fun m e =>
    match s.cal.temps.getD (elemDie e) none with
    | none => m
    | some t => match neighbours (s.eff A.CAL_TSLOT) t ((List.range 4).filter (s.slotValid e)) with
      | none => m
      | some (a, b) => m ||| 2 ^ (4 * elemDie e + a) ||| 2 ^ (4 * elemDie e + b)) 0

/-- A die temperature lies beyond slot T0 or T3 (R75). -/
def State.beyond (s : State) (t : Int) : Bool :=
  let ts := s.eff A.CAL_TSLOT
  decide (t < slotTemp ts 0) || decide (slotTemp ts 3 < t)

/-- Dies 0 to 6 whose latest sample lies beyond the slots, by bit. -/
def State.diesBeyond (s : State) : Nat :=
  (List.range 7).foldl (fun m d => match s.cal.temps.getD d none with
    | some t => if s.beyond t then m + 2 ^ d else m
    | none => m) 0

/-- The season that begins at the current tick (R69, R72, R459, R461). -/
def State.seasonBegin (s : State) : State :=
  s.updSea (fun k => { k with
    open_ := true, startTick := s.clk.count, startSeq := s.now, len := 0, local_ := k.nextLocal
    leap := s.clk.slew != 0 || s.clk.jump != 0 || k.nextLeap, nextLocal := false, nextLeap := false
    stepBack := false, moving := !s.cal.moves.isEmpty, torn := !s.cal.torn.isEmpty
    epochStart := s.fget A.CAL_EPOCH F.CAL_EPOCH.EPOCH, commits := 0, clamped := s.diesBeyond, used := s.slotsUsed
    tmin := s.cal.temps, tmax := s.cal.temps })

/-- SEASON_LATCH (R69, R75) in phase 5 of W(B). -/
def State.seasonLatch (s : State) : State :=
  if s.sea.due = 0 then s
  else
    let n := s.rd A.SEASON_COUNT
    let r := s.record
    let s := s.freshN 16
    let s := seasonStats.foldl State.latchStat (s.upTo 768 State.latchClear)
    let s := (r.zipIdx).foldl (fun s p => s.wr (A.SEASON_REC p.2) p.1) s
    let st := A.SEASON_STATUS
    let s := ((((s.wr A.SEASON_COUNT (n + 1)).fset st F.SEASON_STATUS.SH_SEASON (n.toNat % 2 ^ 24)).fset st
      F.SEASON_STATUS.SH_VALID 1).fset st F.SEASON_STATUS.LAST_CAUSE s.sea.due).fset st F.SEASON_STATUS.REC_PENDING 1
    let s := s.updSea (fun k => { k with recs := k.recs ++ [(s.now + 1, r)], seasonDue := true, seasonFrom := s.now + 2 })
    ((s.seasonBegin).adoptCount).refreshBusy

/-! ### Die samples (R274, R292, R327, R334, R412, R431, R461) -/

/-- The minimum or maximum with one more sample. -/
def limitList (f : Int → Int → Int) (l : List (Option Int)) (d : Nat) (t : Int) : List (Option Int) :=
  (List.range 8).map (fun i => if i = d then some (match l.getD i none with | some v => f v t | none => t) else l.getD i none)

/-- The over-temperature flag of a die, with its die fault (R412). -/
def State.hotCheck (s : State) (d : Nat) (t : Int) : State :=
  if 2000 ≤ t then (s.fset (tempReg d) F.TEMP_CORE.HOT 1).cond (!s.hot d) (fun s => s.dieFault d 6)
  else if t ≤ 1840 then s.fset (tempReg d) F.TEMP_CORE.HOT 0
  else s

/-- A sample of a die: 0 to 5 are P0 to P5, 6 the RF die, 7 the core die. -/
def State.sampleNow (s : State) (d : Nat) (t : Int) : State :=
  let a := tempReg d
  let s := (s.fset a F.TEMP_CORE.TEMP (untwos 12 t)).fset a F.TEMP_CORE.VALID 1
  let s := (s.hotCheck d t).updCal (fun c => { c with temps := c.temps.set d (some t) })
  let s := (dieElems d).foldl State.retarget s
  let s := s.cond (s.beyond t && decide (d < 7)) (fun s => s.updSea (fun k => { k with clamped := k.clamped ||| 2 ^ d }))
  let s := s.cond s.sea.open_ (fun s => s.updSea (fun k => { k with
    tmin := limitList min k.tmin d t, tmax := limitList max k.tmax d t }))
  let s := s.cond (d == 6) (fun s => (s.synDue 0 t).synDue 1 t)
  (s.calWindow d t).refreshSettled

/-- The current tick is one in which the dies are sampled (R461): its count is a multiple of 4,096, a season boundary falls at
it and is not latched yet, or the first season begins at it. -/
def State.sampleTick (s : State) : Bool :=
  s.clk.count % 4096 == 0 || s.sea.due != 0
    || (s.sea.open_ && s.sea.startSeq == s.now && !s.fon A.SEASON_STATUS F.SEASON_STATUS.SH_VALID)

/-- TEMPERATURE_SAMPLE (R274, R431, R461), while CORE runs the tick, in a tick in which the dies are sampled. -/
def State.sampleDie (s : State) (d : Nat) (t : Int) : State :=
  s.cond (s.coreRuns && s.sampleTick) (fun s => (s.tempStep d t).sampleNow d t)

/-! ### The commands -/

/-- SEASON_BOUNDARY_REQUEST (R67): a write of BOUNDARY reaches CORE. -/
def execSeasonBoundaryRequest (who : Writer) (cyc : Nat) (s : State) : Host.Outcome State Fault Refusal :=
  .next (s.stage (s.dueAt cyc) who (.season 4))

/-- SEASON_INTERVAL (R67, R459). -/
def execSeasonInterval (s : State) : Host.Outcome State Fault Refusal := .next s.seasonInterval

/-- TEMPERATURE_SAMPLE (R431, R461). -/
def execTemperatureSample (die : Fin 8) (t : Int) (s : State) : Host.Outcome State Fault Refusal := .next (s.sampleDie die.val t)

end Sys2Proof.Machine
end

