-- ==== Sys2Proof/Machine/Seq.lean ====
section
/-! DEFINITION. Vector memory, pin codes and the bank sequencer (R132 to R160): lines and their faults, the application of a
vector, what each opcode makes of the next line, start, stop and abort. -/

namespace Sys2Proof.Machine

/-! ### Lines (R132, R142, R143) -/

/-- The pin code of bank channel `i` in line `l` (R132). -/
def State.pinCode (s : State) (b l i : Nat) : Nat := (Fld.mk (4 * (i % 9)) 4).get (s.memRd (A.VMEM b l (i / 9)))

/-- The opcode of a line. -/
def State.lineOp (s : State) (b l : Nat) : Nat := (Fld.mk 31 5).get (s.memRd (A.VMEM b l 7))
/-- SEL of a line. -/
def State.lineSel (s : State) (b l : Nat) : Nat := (Fld.mk 28 3).get (s.memRd (A.VMEM b l 7))
/-- ARG of a line. -/
def State.lineArg (s : State) (b l : Nat) : Nat := (Fld.mk 4 24).get (s.memRd (A.VMEM b l 7))
/-- The target of a line. -/
def State.lineTarget (s : State) (b l : Nat) : Nat := s.lineArg b l % 2 ^ 18

/-- The valid writes of the data line behind a WREG line, in order of i (R150). -/
def State.wregWrites (s : State) (b l : Nat) : List (Nat × Word) :=
  ((List.range 4).filter (fun i => (s.memRd (A.VMEM b (l + 1) (2 * i))).getLsbD 35)).map (fun i =>
    ((Fld.mk 0 28).get (s.memRd (A.VMEM b (l + 1) (2 * i))), s.memRd (A.VMEM b (l + 1) (2 * i + 1))))

/-- A register that a WREG write of bank `b` may target (R150). -/
def wregTarget (b a : Nat) : Bool :=
  match placeOf a with
  | .bankReg b' o => b' == b && o != 0 && o != 2 && o != 3
  | .chanReg c _ => bankOf c == b
  | _ => false

/-- SEL and ARG keep R142 and R143. -/
def argOk (op sel arg : Nat) : Bool :=
  let target := decide (arg < 2 ^ 18)
  if op = 0x0 ∨ op = 0x6 ∨ op = 0x9 ∨ op = 0xc ∨ op = 0xd then sel == 0 && arg == 0
  else if op = 0x1 then sel == 0 && arg != 0
  else if op = 0x2 ∨ op = 0x5 then sel == 0 && target
  else if op = 0x3 then decide (sel < 4) && arg != 0
  else if op = 0x4 ∨ op = 0xa then decide (sel < 4) && target
  else if op = 0x7 ∨ op = 0xb then sel == 0 && decide (arg < 64)
  else if op = 0x8 then sel == 0
  else false

/-- Loop counter Cc. -/
def State.loopCnt (s : State) (b c : Nat) : Nat := s.fget (A.SEQ_CNT b (c % 4)) F.SEQ_CNT.COUNT

/-- The line that would follow, where the line itself decides it (R143, R144). Of an MLOOP line it is L + 1, also where the loop
would be exhausted (assumption 58). -/
def State.follows (s : State) (b l : Nat) : Nat :=
  let op := s.lineOp b l
  if op = 0x2 ∨ op = 0x5 then s.lineTarget b l
  else if op = 0x4 then if 1 < s.loopCnt b (s.lineSel b l) then s.lineTarget b l else l + 1
  else if op = 0x6 then (s.bk b).stack.headD 0
  else if op = 0xc then l + 2
  else if op = 0xd then 0
  else l + 1

/-- The code of the error halt that a line takes in place of being applied (R144, R150, R158). -/
def State.lineFault (s : State) (b l : Nat) : Option Nat :=
  let op := s.lineOp b l
  if 0xe ≤ op then some 1
  else if !argOk op (s.lineSel b l) (s.lineArg b l) then some 2
  else if op = 0x5 ∧ 8 ≤ (s.bk b).stack.length then some 3
  else if op = 0x6 ∧ (s.bk b).stack.isEmpty then some 4
  else if 0x40000 ≤ s.follows b l then some 5
  else if op = 0xc ∧ (s.wregWrites b l).any (fun p => !wregTarget b p.1) then some 8
  else none

/-! ### Edge sets (R140, R141) -/

/-- The edge set of bank channel `i`. -/
def State.edgeSet (s : State) (b i : Nat) : Nat := (Fld.mk (2 * (i % 16)) 2).get (s.eff (A.BANK_ESEL b (i / 16)))

/-- An edge set is valid for the vector period in force (R141). -/
def State.edgeValid (s : State) (b n : Nat) : Bool :=
  let max := s.eget (A.VEC_PERIOD b) F.VEC_PERIOD.P * 128 - 1
  let drv := s.eget (A.ES_DRV b n) F.ES_DRV.TIME
  let rtn := s.eget (A.ES_RTN b n) F.ES_RTN.TIME
  decide (drv ≤ max) && decide (s.eget (A.ES_STB b n) F.ES_STB.TIME ≤ max)
    && (s.eget (A.ES_DRV b n) F.ES_DRV.FMT == 0 || (decide (rtn ≤ max) && decide (drv + 384 ≤ rtn)))

/-- Every edge set in use is valid. -/
def State.edgesValid (s : State) (b : Nat) : Bool :=
  (List.range 64).all (fun i => s.funcEff (64 * b + i) != fnPattern || s.edgeValid b (s.edgeSet b i))

/-! ### Vectors at the pins (R134 to R137, R140) -/

/-- A deskew correction of a channel in force, in fine units (R140): slot entry 8 is that of the drive edges, 9 that of the
strobe, 1/16 fine unit each (R316, R317). -/
def State.deskew (s : State) (c entry : Nat) : Int :=
  match s.cal.coef.find? (fun p => p.1 == 64 * c + entry) with
  | some p => roundAway p.2 16
  | none => 0

/-- An edge or strobe of a vector: its programmed instant with the channel's deskew (R140). -/
def State.edgeInst (s : State) (c entry start time : Nat) : Nat := ((start : Int) + time + s.deskew c entry).toNat

/-- What the driver does from the drive edge on, with this code (R134); none where it is unchanged. -/
def codeDrive (code : Nat) : Option Drive :=
  if code = 0x0 then some .vil
  else if code = 0x1 then some .vih
  else if code = 0x2 then some .vt
  else if code = 0x3 ∨ (0x4 ≤ code ∧ code ≤ 0x7) ∨ 0xc ≤ code then some .hiz
  else none

/-- What it does from the return edge on, where the format has one for this code (R134): FMT 1 is RZ, 2 is R1. -/
def codeReturn (code fmt : Nat) : Option Drive :=
  if code = 0x0 ∧ fmt = 2 then some .vih else if code = 0x1 ∧ fmt = 1 then some .vil else none

/-- The code takes a strobe (R134). -/
def codeStrobe (code : Nat) : Bool := decide (4 ≤ code) && code != 8
/-- The code is judged. -/
def codeJudged (code : Nat) : Bool := codeStrobe code && decide (code < 0xc)
/-- The strobe passes in a state of `stateOf` (R87, R134); none is a strobe whose decisions hold no state often enough. -/
def codePass (code : Nat) (st : Option Nat) : Bool :=
  match st with
  | none => false
  | some x =>
    if code = 0x4 ∨ code = 0x9 ∨ code = 0xc then x == 0
    else if code = 0x5 ∨ code = 0xa ∨ code = 0xd then x == 2
    else if code = 0x6 ∨ code = 0xb ∨ code = 0xe then x == 1
    else x == 2 || x == 0

/-- The levels given for the strobe of bank channel `i` in a vector. -/
def vecLevels (v : Vec) (i : Nat) : List Int :=
  match v.obs.find? (fun o => o.ch.val == i) with
  | some o => o.levels
  | none => []

/-- Bank channel `i` follows the codes of the line: in PATTERN, and not held by the responder (R137, R149). -/
def State.follower (s : State) (b i : Nat) : Bool :=
  s.funcEff (64 * b + i) == fnPattern && !((s.bk b).hand && respPin (s.bk b).respPins i)

/-- The edges that a code places on the driver of a channel in a vector that starts at an instant (R134, R140). -/
def State.codeEdges (s : State) (b i code start : Nat) : List (Nat × Drive) :=
  let n := s.edgeSet b i
  let c := 64 * b + i
  let at_ (time : Nat) (d : Option Drive) : List (Nat × Drive) :=
    match d with
    | some d => [(s.edgeInst c 8 start time, d)]
    | none => []
  at_ (s.eget (A.ES_DRV b n) F.ES_DRV.TIME) (codeDrive code)
    ++ at_ (s.eget (A.ES_RTN b n) F.ES_RTN.TIME) (codeReturn code (s.eget (A.ES_DRV b n) F.ES_DRV.FMT))

/-- Edges join those that are still to come, in the order of their instants. -/
def addEdges (l new : List (Nat × Drive)) : List (Nat × Drive) := sortBy (fun a b => decide (a.1 ≤ b.1)) (l ++ new)

/-- The instant of the strobe of bank channel `i` in a vector that starts at an instant (R140). -/
def State.strobeInst (s : State) (b i start : Nat) : Nat :=
  s.edgeInst (64 * b + i) 9 start (s.eget (A.ES_STB b (s.edgeSet b i)) F.ES_STB.TIME)

/-- One application of a line to the channels that follow it: the edges of their drivers, and their strobes; in a match loop
whose match is still open, those of judged codes are tests of the repetition (R148). -/
def State.applyVec (s : State) (b l : Nat) (v : Vec) (test : Option Nat) (judge : Bool) : State :=
  let start := s.instant v.start
  let on := (List.range 64).filter (s.follower b)
  let s := s.each on (fun s i =>
    s.updCh (64 * b + i) (fun h => { h with wave := addEdges h.wave (s.codeEdges b i (s.pinCode b l i) start) }))
  let taken := on.filter (fun i => codeStrobe (s.pinCode b l i) && (judge || !codeJudged (s.pinCode b l i)))
  let new := taken.map (fun i =>
    ({ at_ := s.strobeInst b i start, ch := i, code := s.pinCode b l i, line := l
       test := if codeJudged (s.pinCode b l i) then test else none, levels := vecLevels v i } : Strobe))
  let s := s.updBk b (fun k => { k with
    strobes := k.strobes ++ new, endAt := start + s.eget (A.VEC_PERIOD b) F.VEC_PERIOD.P * 128 })
  s.inc (A.SEQ_VCNT b) ⟨0, 36⟩ 1

/-! ### Strobes (R87, R104, R135, R136) -/

/-- The strobe of a channel is suppressed by self-test (R104). -/
def State.suppressed (s : State) (c : Nat) : Bool :=
  s.fon (A.CH_STATUS c) F.CH_STATUS.TEST && !F.CH_SELFTEST.LIVE.on (s.eff (A.CH_SELFTEST c))

/-- Fine units of 208.33 ps, the spacing of a strobe's decisions (R87). -/
def strobeStep : Nat := 128

/-- How many decisions a strobe of a channel takes, and in how many of them a state must hold (R87). -/
def State.strobeNM (s : State) (c : Nat) : Nat × Nat :=
  if s.eon (A.CH_FILTER c) F.CH_FILTER.STROBE_FILT then
    (s.eget (A.CH_FILTER c) F.CH_FILTER.N, s.eget (A.CH_FILTER c) F.CH_FILTER.M)
  else (1, 1)

/-- The decisions of a strobe: what the comparator's outputs are at each of them, or, where the level at the pin is given, what
they become of it (R85, R87). -/
def State.decisions (s : State) (c t m : Nat) (levels : List Int) : List Nat :=
  let p := s.pointAt c t
  ((List.range m).foldl (fun (acc : (Bool × Bool) × List Nat) i =>
    let hl := match levels[i]? with
      | some x => s.cmpNext c false acc.1 (s.cmpInput c x)
      | none => ((s.pointAt c (t + strobeStep * i)).h, (s.pointAt c (t + strobeStep * i)).l)
    (hl, acc.2 ++ [stateOf hl.1 hl.2])) ((p.h, p.l), [])).2

/-- The state that a strobe finds, if there is one (R87). -/
def State.strobeState (s : State) (c : Nat) (x : Strobe) : Option Nat :=
  let (n, m) := s.strobeNM c
  let ds := s.decisions c x.at_ m x.levels
  [0, 1, 2].find? (fun st => decide (n ≤ ds.count st))

/-- The next line. -/
def State.toLine (s : State) (b l : Nat) : State := s.updBk b (fun k => { k with line := l, rep := 0 })

/-- The sequencer's state. -/
def State.setSeq (s : State) (b st : Nat) : State := s.fset (A.BANK_STATUS b) F.BANK_STATUS.SEQ st

/-- The sequencer waits. -/
def State.toWait (s : State) (b : Nat) (w : Wait) : State := (s.updBk b (fun k => { k with wait := w })).setSeq b sqWaiting

/-- Fine units of 24 CONV periods, from the last strobe of a matching repetition to line L + 1 (R148). -/
def matchGap : Nat := 3072

/-- A repetition of a match loop is judged at its last strobe (R148, assumption 60): a match, a decrement, or the exhaustion of
the loop. -/
def State.judgeRep (s : State) (b : Nat) (r : Rep) : State :=
  let c := s.lineSel b r.line % 4
  let n := s.loopCnt b c
  if !r.failed then
    (s.toLine b (r.line + 1)).updBk b (fun k => { k with matched := some (r.line, r.last + matchGap), reps := [] })
  else if 1 < n then s.fset (A.SEQ_CNT b c) F.SEQ_CNT.COUNT (n - 1)
  else
    ((s.fset (A.SEQ_CNT b c) F.SEQ_CNT.COUNT 0).updBk b (fun k => { k with reps := [] })).toWait b
      (.target (s.lineTarget b r.line) none)

/-- A match test passes or fails (R148); the last one of a repetition lets it be judged. -/
def State.matchTest (s : State) (b id : Nat) (pass : Bool) : State :=
  match (s.bk b).reps.find? (fun r => r.id == id) with
  | none => s
  | some r =>
    let r := { r with left := r.left - 1, failed := r.failed || !pass }
    let s := s.updBk b (fun k => { k with reps := k.reps.map (fun q => if q.id == id then r else q) })
    if r.left = 0 then (s.updBk b (fun k => { k with reps := k.reps.filter (fun q => q.id != id) })).judgeRep b r else s

/-- One strobe is decided (R87, R104, R135 to R137, R148): a capture, a match test, or a judged strobe, of which only a fail is
an event. One suppressed by self-test captures nothing and is no fail, but a match test that does not pass (assumption 59). -/
def State.decide1 (s : State) (b : Nat) (x : Strobe) : State :=
  let c := 64 * b + x.ch
  let mute := s.suppressed c
  let pass := codePass x.code (s.strobeState c x) && !mute
  let gone := s.funcEff c != fnPattern
  match x.test with
  | some id => s.matchTest b id (pass || gone)
  | none =>
    if mute || gone then s
    else if !codeJudged x.code then
      let a := A.SEQ_CAPT b x.ch
      s.wr a ((s.rd a <<< 1) ||| BitVec.ofNat 36 (bit01 pass))
    else if pass then s
    else s.eventAt evChan c 0 x.at_ true x.line

/-- The instant at which a strobe is decided: that of its last decision. -/
def State.decidedAt (s : State) (b : Nat) (x : Strobe) : Nat :=
  x.at_ + strobeStep * ((s.strobeNM (64 * b + x.ch)).2 - 1)

/-- The strobes decided before an instant, in the order of their instants. -/
def State.strobesDue (s : State) (b t : Nat) : State :=
  let due := (s.bk b).strobes.filter (fun x => decide (s.decidedAt b x < t))
  let s := s.updBk b (fun k => { k with strobes := k.strobes.filter (fun x => !decide (s.decidedAt b x < t)) })
  (sortBy (fun x y => decide (x.at_ ≤ y.at_)) due).foldl (fun s x => s.decide1 b x) s

/-! ### The pin die up to an instant -/

/-- The edges of a channel's driver before an instant: the driver does what the last of them asks (R140). -/
def State.edgesDue (s : State) (c t : Nat) : State :=
  let due := (s.ch c).wave.filter (fun p => decide (p.1 < t))
  match due.getLast? with
  | none => s
  | some p =>
    (s.updCh c (fun h => { h with wave := h.wave.filter (fun q => !decide (q.1 < t)), pat := p.2 })).setDrive c

/-- A HALT line has been applied (R152): the sequencer is HALTED at its end. -/
def State.haltDue (s : State) (b t : Nat) : State :=
  let k := s.bk b
  if k.wait == .halt && decide (k.endAt < t) then
    ((s.handLast b).seqHalt b sqHalted).eventAt evBank b 1 k.endAt false
  else s

/-- What the vectors applied so far do before an instant: strobes, edges, the end of a HALT line and of a handover. -/
def State.bankAdvance (s : State) (b t : Nat) : State :=
  let s := s.strobesDue b t
  let s := s.each ((bankChans b).filter (fun c => !(s.ch c).wave.isEmpty)) (fun s c => s.edgesDue c t)
  (s.haltDue b t).handDue b (t - 1)

/-! ### Error halts (R158) -/

/-- An offending line: the driven states are held until the error halt completes, a handover ends with the last line applied
(R158, R175). -/
def State.lineErr (s : State) (b code : Nat) : State :=
  (s.updBk b (fun k => { k with err := some code })).handLast b

/-- The error halt of an offending line completes at the first boundary after the end of the last line applied (R158); where no
line of the run has been applied, after the instant at which the first was to start (assumption 61). -/
def State.errDue (s : State) (b : Nat) : State :=
  match (s.bk b).err with
  | some code => s.cond (decide ((s.bk b).endAt < s.clk.start)) (fun s => s.errHaltNow b code)
  | none => s

/-! ### Lines in sequence -/

/-- The line that starts at an instant of the current tick, if one does (R138): the first of a run and one after a hold at a
tick boundary, any other at the end of the vector before it. -/
def State.lineAt (s : State) (b start : Nat) : Option Nat :=
  let k := s.bk b
  let next := decide (s.instant start = k.endAt)
  let tick := decide (start = 0)
  if s.bankState b != bankActive || !s.seqLive b || k.err.isSome then none
  else
    match k.firstAt, k.matched, k.wait with
    | some t, _, _ => if t = s.now ∧ tick then some k.line else none
    | none, some (l, x), _ => if !next then none else if k.endAt < x then some l else some k.line
    | none, none, .target l (some u) => if u = s.now ∧ tick then some l else none
    | none, none, .none => if next then some k.line else none
    | none, none, .flag => if next then some k.line else none
    | none, none, .hand => if next then some k.line else none
    | none, none, .mloop => if next then some k.line else none
    | _, _, _ => none

/-- The line that would follow the last line applied, if it is known (R158); none before the first line of a run. -/
def State.nextLine (s : State) (b : Nat) : Option Nat :=
  let k := s.bk b
  match k.firstAt, k.matched, k.wait with
  | some _, _, _ => none
  | none, some (l, x), _ => if k.endAt < x then some l else some k.line
  | none, none, .ticks _ _ => some (k.line + 1)
  | none, none, .wreg _ => some (k.line + 2)
  | none, none, .target l _ => some l
  | none, none, .halt => none
  | none, none, _ => some k.line

/-- Half CORE cycles in which the lines that start in the current tick are fetched (R153): those of the tick before, or, so that
no pattern that keeps the rule underruns in a tick with a leap, those of a longer current tick (assumption 63). -/
def State.fetchRoom (s : State) : Nat := max s.clk.prevLen s.clk.tickLen * 5 / 1536

/-- The line is a taken transfer of control (R153). -/
def State.takes (s : State) (b l : Nat) : Bool :=
  let op := s.lineOp b l
  op == 0x2 || op == 0x5 || op == 0x6 || (op == 0x4 && decide (1 < s.loopCnt b (s.lineSel b l)))

/-- Half CORE cycles that a line costs (R153): one, one more for a data line, and two more for a taken transfer. -/
def State.fetchCost (s : State) (b l : Nat) : Nat :=
  1 + (if s.lineOp b l = 0xc then 1 else 0) + (if s.takes b l then 2 else 0)

/-- Half CORE cycles used for the current tick so far. -/
def State.fetched (s : State) (b : Nat) : Nat := if (s.bk b).fetchAt = s.now then (s.bk b).fetched else 0

/-- The line starts at the pins (R134, R157, R173, R174): before the first line of a run the drivers are high-impedance; a
handover begins with the first repetition of HAND and ends with the line after it. -/
def State.enterLine (s : State) (b l op : Nat) (v : Vec) : State :=
  let t := s.instant v.start
  let s := if (s.bk b).wait == .hand && op == 0xb then s
    else (s.handEnd b t).cond (op == 0xb) (fun s => s.handStart b t)
  let s := s.cond (s.bk b).firstAt.isSome (fun s =>
    (s.each ((bankChans b).filter (fun c => s.funcEff c == fnPattern)) State.driveOff).event evBank b 0 (s.stamp v.start false))
  let s := s.updBk b (fun k => { k with
    line := l, firstAt := none, wait := .none
    matched := match k.matched with | some (m, x) => if m = l then some (m, x) else none | none => none })
  (s.fset (A.SEQ_PC b) F.SEQ_PC.PC l).setSeq b sqRunning

/-- The line is one that its vector repeats: the fetch of a repetition costs nothing (R153). -/
def State.repeats (s : State) (b l : Nat) : Bool :=
  let k := s.bk b
  k.firstAt.isNone && k.line == l && (k.wait == .flag || k.wait == .hand || k.wait == .mloop || k.rep != 0)
    || (match k.matched with | some (m, _) => m == l | none => false)

/-- The line is fetched for the current tick. -/
def State.fetch (s : State) (b l : Nat) : State :=
  if s.repeats b l then s
  else s.updBk b (fun k => { k with fetched := s.fetched b + s.fetchCost b l, fetchAt := s.now })

/-- The line was issued in time (R153). -/
def State.fetchOk (s : State) (b l : Nat) : Bool := s.repeats b l || decide (s.fetched b + s.fetchCost b l ≤ s.fetchRoom)

/-- The judged channels of a line. -/
def State.judgedChans (s : State) (b l : Nat) : List Nat :=
  (List.range 64).filter (fun i => s.follower b i && codeJudged (s.pinCode b l i))

/-- The last strobe instant of a repetition. -/
def State.lastStrobe (s : State) (b l start : Nat) : Nat :=
  (((List.range 64).filter (fun i => s.follower b i && codeStrobe (s.pinCode b l i))).map
    (fun i => s.strobeInst b i start)).foldl max 0

/-- A repetition of a match loop awaits its match tests (R148): none where the line has no judged codes, or has matched. -/
def State.openRep (s : State) (b l start : Nat) : State :=
  let n := (s.judgedChans b l).length
  if n = 0 ∨ (s.bk b).matched.isSome then s
  else s.updBk b (fun k => { k with
    reps := k.reps ++ [{ id := start, line := l, left := n, last := s.lastStrobe b l start }] })

/-- The line applied in one vector: in a match loop, judged codes are match tests, and are not judged after a match (R148). -/
def State.applyLine (s : State) (b l op : Nat) (v : Vec) : State :=
  if op = 0xa then
    (s.openRep b l (s.instant v.start)).applyVec b l v (some (s.instant v.start)) (s.bk b).matched.isNone
  else s.applyVec b l v none true

/-- A command of opcode `op`: the line it finds is applied `vs`, and `after` makes the next line of it. A REPT line may be
applied in several commands, each with some of its vectors. A line that R144, R150 or R153 faults takes the error halt instead;
a command that the line in memory does not spell cannot arise. -/
def State.runLine (s : State) (b op : Nat) (vs : List Vec) (after : State → Nat → State) : State :=
  match vs with
  | [] => s
  | v :: _ =>
    let s := s.bankAdvance b (s.instant v.start)
    match s.lineAt b v.start with
    | none => s
    | some l =>
      if s.lineOp b l ≠ op then s
      else match (if s.fetchOk b l then s.lineFault b l else some 6) with
        | some code => (s.updBk b (fun k => { k with line := l })).lineErr b code
        | none =>
          let done := (if op = 0x1 then (s.bk b).rep else 0) + vs.length
          if op = 0x1 ∧ s.lineArg b l < done then s
          else
            let s := vs.foldl (fun s v => s.applyLine b l op v) ((s.fetch b l).enterLine b l op v)
            if op = 0x1 ∧ done < s.lineArg b l then s.updBk b (fun k => { k with line := l, rep := done })
            else after s l

/-- `BANK_STATUS.STACK` follows the call stack. -/
def State.setStack (s : State) (b : Nat) (st : List Nat) : State :=
  (s.updBk b (fun k => { k with stack := st })).fset (A.BANK_STATUS b) F.BANK_STATUS.STACK st.length

/-- LSET (R143). -/
def State.afterLset (s : State) (b l : Nat) : State :=
  (s.fset (A.SEQ_CNT b (s.lineSel b l % 4)) F.SEQ_CNT.COUNT (s.lineArg b l)).toLine b (l + 1)

/-- LOOP (R143). -/
def State.afterLoop (s : State) (b l : Nat) : State :=
  let c := s.lineSel b l % 4
  let n := s.loopCnt b c
  if 1 < n then (s.fset (A.SEQ_CNT b c) F.SEQ_CNT.COUNT (n - 1)).toLine b (s.lineTarget b l)
  else (s.fset (A.SEQ_CNT b c) F.SEQ_CNT.COUNT 0).toLine b (l + 1)

/-- The flag test of WFLAG and HAND (R145, R149). -/
def State.afterFlag (s : State) (b l : Nat) (w : Wait) : State :=
  let arg := s.lineArg b l
  let f := arg % 16
  let want := arg.testBit 4
  if s.flagOn b f != want then s.toWait b w
  else
    let s := s.toLine b (l + 1)
    s.cond (arg.testBit 5) (fun s =>
      s.stage (s.now + 1) .rearm (.flags b (if want then 0 else 2 ^ f) (if want then 2 ^ f else 0)))

/-- WTICK (R146): its driven states are held. -/
def State.afterWtick (s : State) (b l : Nat) : State := s.toWait b (.ticks (s.lineArg b l) none)

/-- MLOOP (R148): the loop goes on until a repetition is judged; a line without judged codes matches at once and is applied
once. -/
def State.afterMloop (s : State) (b l : Nat) : State :=
  if (s.bk b).matched.isSome then (s.toLine b (l + 1)).toWait b .mloop
  else if (s.judgedChans b l).isEmpty then s.toLine b (l + 1)
  else s.toWait b .mloop

/-- WREG (R150, R151): the writes are committed in the window after the tick in which the last vector ends. -/
def State.afterWreg (s : State) (b l : Nat) : State :=
  ((s.updBk b (fun k => { k with wregAsked := false, wregReady := false })).toLine b l).toWait b (.wreg none)

/-- HALT (R152): the sequencer is HALTED once the line has been applied. -/
def State.afterHalt (s : State) (b : Nat) : State := s.updBk b (fun k => { k with wait := .halt })

/-- The holds of a bank at a tick boundary: those that count from it find out the boundary that ends them (R146, R148, R151), and
the first line of a run is due at its instant. Where the writes of a WREG line take effect, LEDGER_WAIT clears (R151). -/
def State.holdTick (s : State) (b : Nat) : State :=
  let k := s.bk b
  let now := s.now
  let past := decide (k.endAt ≤ s.clk.start)
  let w := match k.wait with
    | .ticks n none => if past then .ticks n (some (now + n)) else k.wait
    | .wreg none => if past then .wreg (some now) else k.wait
    | .target l none => if k.endAt < s.clk.start then .target l (some (now + 1)) else k.wait
    | w => w
  let go := match w with | .target _ (some u) => decide (u ≤ now) | _ => false
  (s.updBk b (fun k => { k with wait := w, endAt := if k.firstAt = some now then s.clk.start else k.endAt })).cond go
    (fun s => s.fset (A.BANK_STATUS b) F.BANK_STATUS.LEDGER_WAIT 0)

/-- The sequencers at a tick boundary, before anything new is in force: what their vectors do up to it, and their holds. -/
def State.seqTick (s : State) : State :=
  s.upTo 12 (fun s b => (s.bankAdvance b (s.clk.start + 1)).holdTick b)

/-! ### Start, stop, abort (R156, R157) -/

/-- GO takes effect (R156, R157). -/
def State.seqGoNow (s : State) (b cond flag addr : Nat) : State :=
  let q := s.seqState b
  if q == sqArmed || q == sqRunning || q == sqWaiting then s.raiseF (A.BANK_STATUS b) F.BANK_STATUS.START_IGN
  else
    let d := ((s.rd (A.SEQ_AT b)).toNat + 2 ^ 36 - s.clk.count % 2 ^ 36) % 2 ^ 36
    let late := cond == 2 && (decide (d < 2) || decide (2 ^ 35 ≤ d))
    let s := (s.updBk b (fun k => { k with
      armCond := if late then 0 else cond, armFlag := flag, armAddr := addr % 2 ^ 18, err := none })).setSeq b sqArmed
    (s.fset (A.BANK_STATUS b) F.BANK_STATUS.ERR 0).raiseIf late (A.BANK_STATUS b) F.BANK_STATUS.START_LATE

/-- STOP takes effect (R156, R158, R175): the vector in progress completes, and ends a handover; an offending next line prevails
over it. -/
def State.seqStopNow (s : State) (b : Nat) : State :=
  let q := s.seqState b
  if q == sqArmed then s.seqHalt b sqIdle
  else if q == sqRunning || q == sqWaiting then
    if (s.bk b).err.isSome then s
    else match (match s.nextLine b with | some l => (s.lineFault b l).map (fun code => (l, code)) | none => none) with
      | some (l, code) => (s.updBk b (fun k => { k with line := l })).lineErr b code
      | none => ((s.handLast b).seqHalt b sqHalted).eventT evBank b 1
  else s

/-- The start condition of an armed sequencer (R157). -/
def State.startOk (s : State) (b : Nat) : Bool :=
  let k := s.bk b
  if k.armCond = 0 then true
  else if k.armCond = 1 then s.flagOn b k.armFlag
  else s.clk.count % 2 ^ 36 == ((s.rd (A.SEQ_AT b)).toNat + 2 ^ 36 - 1) % 2 ^ 36

/-- The start of an armed sequencer (R141, R157). -/
def State.seqStart (s : State) (b : Nat) : State :=
  if s.seqState b != sqArmed || s.bankState b != bankActive || !s.edgesValid b || !s.startOk b then s
  else
    let addr := (s.bk b).armAddr
    let s := (s.setStack b []).updBk b (fun k => { k with
      line := addr, wait := .none, firstAt := some (s.now + 1), matched := none, err := none, rep := 0, reps := []
      endAt := s.tickEnd })
    let s := (s.upTo 4 (fun s c => s.wr (A.SEQ_CNT b c) 0)).wr (A.SEQ_VCNT b) 0
    ((s.upTo 64 (fun s i => s.wr (A.SEQ_CAPT b i) 0)).fset (A.SEQ_PC b) F.SEQ_PC.PC addr).setSeq b sqRunning

/-- The check of a bank's sequencer at a tick boundary (R141): a set in use that is not valid is an error halt of the line that
would be next, at once where the last line has ended before. -/
def State.seqCheck (s : State) (b : Nat) : State :=
  if !s.seqLive b || (s.bk b).err.isSome || s.edgesValid b then s
  else
    let s := s.updBk b (fun k => { k with line := (s.nextLine b).getD k.line })
    if (s.bk b).endAt < s.clk.start then s.errHaltNow b 7 else s.lineErr b 7

/-- The ledger request of a WREG line's writes (R151): what they charge. Of two writes of one address
the later counts (R150). -/
def State.wregEffs (s : State) (b l : Nat) : List Eff :=
  let ws := s.wregWrites b l
  let last := (ws.zipIdx.filter (fun p => !(ws.drop (p.2 + 1)).any (fun q => q.1 == p.1.1))).map (·.1)
  (last.map (fun p =>
    match placeOf p.1 with
    | .bankReg _ o =>
      if o = 0xb then [Eff.force p.1 p.2]
      else if (o = 0x90 ∨ o = 0x98) ∧ accepts p.1 p.2 ∧ s.srcRises (elemOf b ((o - 0x90) / 8)) p.2 ∧
          s.srcMayAsk (elemOf b ((o - 0x90) / 8)) then
        [.srcOn (elemOf b ((o - 0x90) / 8))]
      else if (o = 0xa0 ∨ o = 0xd0) ∧ accepts p.1 p.2 ∧ s.aeRises (elemOf b ((o - 0xa0) / 0x30)) p.2 ∧
          !s.aeBarred (elemOf b ((o - 0xa0) / 0x30)) then
        [.aeOn (elemOf b ((o - 0xa0) / 0x30))]
      else []
    | .chanReg _ o => if o = 0x0 ∨ o = 0x20 then [.force p.1 p.2] else []
    | _ => [])).flatten.filter (fun e => match e with | .force a v => accepts a v | _ => true)

/-- A WREG line whose window has come makes its request (R151). -/
def State.wregAsk (s : State) (b : Nat) : State :=
  let k := s.bk b
  match k.wait with
  | .wreg (some c) =>
    if k.wregAsked || decide (s.now < c) then s
    else
      let effs := s.wregEffs b k.line
      let s := s.updBk b (fun k => { k with wregAsked := true })
      if s.chargeOf effs = 0 then s.updBk b (fun k => { k with wregReady := true })
      else
        let s := effs.foldl State.askEff (s.request (.wreg b) .seq b (.seq b) 0 effs)
        s.cond (s.led.queue.any (fun r => r.key == .wreg b && r.slot == .held))
          (fun s => s.fbit (A.BANK_STATUS b) F.BANK_STATUS.LEDGER_WAIT true)
  | _ => s

/-- A write of `VEC_PERIOD` reaches CORE (R139). -/
def State.writeVecPeriod (s : State) (b : Nat) (w : Wr) : State :=
  let a := A.VEC_PERIOD b
  let v := w.val &&& (regInfo a).rw
  let e : List Eff := [.force a v]
  s.gated a (fun s =>
    if !accepts a w.val then s
    else if s.queueFull (classOf w.who) (.reg a) e then s.inc A.TICK_BUDGET F.TICK_BUDGET.LEDGER_FULL 1
    else (s.wr a v).request (.reg a) (classOf w.who) (classIndex w.who) w.who w.cyc e)

/-- The vector period comes into force (R139): the PATTERN channels carry its class. -/
def State.applyVecPeriod (s : State) (b : Nat) (v : Word) : State :=
  let s := s.setEff (A.VEC_PERIOD b) v
  s.each ((bankChans b).filter (fun c => s.funcEff c == fnPattern))
    (fun s c => s.lower (.chan c) (Config.vecCharge (F.VEC_PERIOD.P.get v)))

/-- Vector memory does not take writes while the sequencer is armed or live (R133). -/
def State.vmBusy (s : State) (b : Nat) : Bool :=
  let q := s.seqState b
  q == sqArmed || q == sqRunning || q == sqWaiting

/-- A write of a vector-memory word (R133). -/
def State.vmWrite (s : State) (b a : Nat) (v : Word) : State :=
  s.gated a (fun s => if s.vmBusy b then s.raiseF (A.BANK_STATUS b) F.BANK_STATUS.VM_WR_IGN else s.memWr a v)

/-! ### The commands -/

/-- VECTOR_MEMORY_WRITE (R133, R222). -/
def execVectorMemoryWrite (b : Fin 12) (line : Fin 262144) (w : Fin 8) (val : Word) (s : State) :
    Host.Outcome State Fault Refusal := .next (s.vmWrite b (A.VMEM b line w) val)

/-- NEXT (R143). -/
def execNext (b : Fin 12) (v : Vec) (s : State) : Host.Outcome State Fault Refusal :=
  .next (s.runLine b 0x0 [v] (fun s l => s.toLine b (l + 1)))

/-- REPT (R143): n vectors. -/
def execRept (b : Fin 12) (vs : List Vec) (s : State) : Host.Outcome State Fault Refusal :=
  .next (s.runLine b 0x1 vs (fun s l => s.toLine b (l + 1)))

/-- JUMP (R143). -/
def execJump (b : Fin 12) (v : Vec) (s : State) : Host.Outcome State Fault Refusal :=
  .next (s.runLine b 0x2 [v] (fun s l => s.toLine b (s.lineTarget b l)))

/-- LSET (R143). -/
def execLset (b : Fin 12) (v : Vec) (s : State) : Host.Outcome State Fault Refusal :=
  .next (s.runLine b 0x3 [v] (fun s l => s.afterLset b l))

/-- LOOP (R143). -/
def execLoop (b : Fin 12) (v : Vec) (s : State) : Host.Outcome State Fault Refusal :=
  .next (s.runLine b 0x4 [v] (fun s l => s.afterLoop b l))

/-- CALL (R143, R144). -/
def execCall (b : Fin 12) (v : Vec) (s : State) : Host.Outcome State Fault Refusal :=
  .next (s.runLine b 0x5 [v] (fun s l => (s.setStack b ((l + 1) :: (s.bk b).stack)).toLine b (s.lineTarget b l)))

/-- RET (R143, R144). -/
def execRet (b : Fin 12) (v : Vec) (s : State) : Host.Outcome State Fault Refusal :=
  .next (s.runLine b 0x6 [v] (fun s _ => (s.setStack b (s.bk b).stack.tail).toLine b ((s.bk b).stack.headD 0)))

/-- WFLAG (R145): one repetition. -/
def execWflag (b : Fin 12) (v : Vec) (s : State) : Host.Outcome State Fault Refusal :=
  .next (s.runLine b 0x7 [v] (fun s l => s.afterFlag b l .flag))

/-- WTICK (R146). -/
def execWtick (b : Fin 12) (v : Vec) (s : State) : Host.Outcome State Fault Refusal :=
  .next (s.runLine b 0x8 [v] (fun s l => s.afterWtick b l))

/-- WTICK_EXPIRY (R138, R146): line L + 1 starts at this boundary. -/
def execWtickExpiry (b : Fin 12) (s : State) : Host.Outcome State Fault Refusal :=
  match (s.bk b).wait with
  | .ticks _ (some u) =>
    if s.now ≠ u ∨ !s.seqLive b ∨ (s.bk b).err.isSome then ok s
    else .next ((s.updBk b (fun k => { k with wait := .none, line := k.line + 1, endAt := s.clk.start })).setSeq b sqRunning)
  | _ => ok s

/-- SEASON (R147): a season boundary at the start of the next tick. -/
def execSeason (b : Fin 12) (v : Vec) (s : State) : Host.Outcome State Fault Refusal :=
  .next (s.runLine b 0x9 [v] (fun s l => (s.stageNext (.season 1)).toLine b (l + 1)))

/-- MLOOP (R148): one repetition. -/
def execMloop (b : Fin 12) (v : Vec) (s : State) : Host.Outcome State Fault Refusal :=
  .next (s.runLine b 0xa [v] (fun s l => s.afterMloop b l))

/-- HAND (R149, R161, R173): one repetition. -/
def execHand (b : Fin 12) (v : Vec) (s : State) : Host.Outcome State Fault Refusal :=
  .next (s.runLine b 0xb [v] (fun s l => s.afterFlag b l .hand))

/-- WREG (R150, R151). -/
def execWreg (b : Fin 12) (v : Vec) (s : State) : Host.Outcome State Fault Refusal :=
  .next (s.runLine b 0xc [v] (fun s l => s.afterWreg b l))

/-- HALT (R152). -/
def execHalt (b : Fin 12) (v : Vec) (s : State) : Host.Outcome State Fault Refusal :=
  .next (s.runLine b 0xd [v] (fun s _ => s.afterHalt b))

/-- ILLEGAL_OP (R143, R158): the line found has an opcode from 0x0E to 0x1F. -/
def execIllegalOp (b : Fin 12) (s : State) : Host.Outcome State Fault Refusal :=
  let t := max (s.bk b).endAt s.clk.start
  let s := s.bankAdvance b t
  match s.lineAt b (t - s.clk.start) with
  | some l => if 0xe ≤ s.lineOp b l ∧ t < s.tickEnd then .next ((s.updBk b (fun k => { k with line := l })).lineErr b 1) else ok s
  | none => ok s

/-- RAW_CROSSING (R85, R90, R101, R164): strobes before the instant are decided first. -/
def execRawCrossing (c : Fin 768) (level : Int) (fine : Nat) (discarded : Bool) (s : State) :
    Host.Outcome State Fault Refusal :=
  .next ((s.bankAdvance (bankOf c) (s.instant fine)).rawCrossing c level fine discarded)

/-- SEQ_GO (R156, R157). -/
def execSeqGo (b : Fin 12) (cond flag addr : Nat) (s : State) : Host.Outcome State Fault Refusal :=
  .next (s.seqGoNow b cond flag addr)

/-- SEQ_STOP (R156). -/
def execSeqStop (b : Fin 12) (s : State) : Host.Outcome State Fault Refusal := .next (s.seqStopNow b)

/-- SEQ_ABORT (R156). -/
def execSeqAbort (b : Fin 12) (s : State) : Host.Outcome State Fault Refusal := .next (s.abortNow b)

/-- SEQUENCER_START (R157). -/
def execSequencerStart (b : Fin 12) (s : State) : Host.Outcome State Fault Refusal := .next (s.seqStart b)

/-- VEC_PERIOD_WRITE (R139). -/
def execVecPeriodWrite (b : Fin 12) (w : Wr) (s : State) : Host.Outcome State Fault Refusal := .next (s.writeVecPeriod b w)

end Sys2Proof.Machine
end

