-- ==== Sys2Proof/Machine/Almanac.lean ====
section
/-! DEFINITION. The almanac (R357 to R381): the flash image and its checks, the segment load of a start-up, reloads of single
targets, and the NVM commands of the host. -/

namespace Sys2Proof.Machine

/-! ### Flash bytes and their CRC (R359, R360) -/

/-- A byte of the flash; one that nothing has programmed is erased. -/
def State.fByte (s : State) (a : Nat) : Nat := (Tab.get (fun _ => (0xff : Byte)) s.alm.flash a).toNat

/-- A byte of the flash written. -/
def State.fPut (s : State) (a : Nat) (v : Byte) : State :=
  s.updAlm (fun k => { k with flash := Tab.set (fun _ => (0xff : Byte)) k.flash a v })

/-- A field of `n` bytes, least significant byte first. -/
def State.fNum (s : State) (a n : Nat) : Nat := (List.range n).foldr (fun i x => s.fByte (a + i) + 256 * x) 0

/-- One byte into the reflected CRC-32. -/
def crcByte (r b : Nat) : Nat :=
  (List.range 8).foldl (fun r _ => if r.testBit 0 then (r / 2) ^^^ 0xedb88320 else r / 2) (r ^^^ b)

/-- The CRC-32 of `n` bytes (R360). -/
def crcOf (f : Nat → Nat) (n : Nat) : Nat :=
  (List.range n).foldl (fun r i => crcByte r (f i)) (2 ^ 32 - 1) ^^^ (2 ^ 32 - 1)

/-- The CRC of `n` bytes of the flash. -/
def State.fCrc (s : State) (a n : Nat) : Nat := crcOf (fun i => s.fByte (a + i)) n

/-- The density that the slots divide (R359). -/
def State.flashD (s : State) : Nat := min s.alm.density 536870912

/-- The first byte of a slot: 0 is slot A, 1 slot B. -/
def State.slotBase (s : State) (slot : Nat) : Nat := slot * (s.flashD / 2)

/-- The slot that holds a byte. -/
def State.slotOf (s : State) (a : Nat) : Option Nat :=
  if a < s.flashD / 2 then some 0 else if a < s.flashD then some 1 else none

/-- The slot in force (R368). -/
def State.slotInForce (s : State) : Option Nat :=
  if s.fon A.ALMANAC_STATUS F.ALMANAC_STATUS.NONE then none else some (s.fget A.ALMANAC_STATUS F.ALMANAC_STATUS.SLOT)

/-! ### The image (R361 to R366) -/

/-- The slot header keeps R361: condition 1 of R366. -/
def State.headerOk (s : State) (slot : Nat) : Bool :=
  let b := s.slotBase slot
  let len := s.fNum (b + 8) 4
  s.fNum b 4 == 0x4d41584c && s.fNum (b + 4) 2 == 1
    && s.fNum (b + 0x3c) 4 == crcOf (fun i => if 0xc ≤ i ∧ i < 0x10 then 0xff else s.fByte (b + i)) 0x3c
    && decide (len ≤ 134217728) && decide (len ≤ s.flashD / 2)

/-- ACTSEQ of a slot. -/
def State.actSeq (s : State) (slot : Nat) : Nat := s.fNum (s.slotBase slot + 0xc) 4

/-- ACTSEQ of a slot never activated. -/
def seqErased : Nat := 2 ^ 32 - 1

/-- A slot is a candidate (R368). -/
def State.candidate (s : State) (slot : Nat) : Bool := s.headerOk slot && s.actSeq slot != seqErased

/-- PAYLOAD_LEN of the segment at `a`. -/
def State.segLen (s : State) (a : Nat) : Nat := s.fNum (a + 4) 4

/-- PAYLOAD_CRC of the segment at `a`. -/
def State.segCrc (s : State) (a : Nat) : Nat := s.fNum (a + 8) 4

/-- The segment headers of a slot, one behind another. -/
def State.segsFrom (s : State) (a : Nat) : Nat → List Nat
  | 0 => []
  | n + 1 => a :: s.segsFrom (a + 32 + s.segLen a) n

/-- The segment headers that SEGCOUNT names. -/
def State.segments (s : State) (slot : Nat) : List Nat := s.segsFrom (s.slotBase slot + 64) (s.fNum (s.slotBase slot + 6) 2)

/-- The target of a segment: bank 0 to 11, 12 router, 13 RF, 14 global. -/
def State.segTarget (s : State) (a : Nat) : Nat :=
  match s.fByte a with
  | 1 => 14
  | 2 => s.fByte (a + 1)
  | 3 => 12
  | _ => 13

/-- The segment header keeps R362: condition 2. -/
def State.segHeadOk (s : State) (a : Nat) : Bool :=
  let t := s.fByte a
  let g := s.fByte (a + 1)
  s.fNum (a + 0x1c) 4 == s.fCrc a 0x1c && ((t == 2 && decide (g < 12)) || ((t == 1 || t == 3 || t == 4) && g == 0))
    && s.segLen a % 9 == 0 && s.segLen a != 0

/-- Word `i` of the payload of the segment at `a` (R363). -/
def State.streamWord (s : State) (a i : Nat) : Nat :=
  let x := s.fNum (a + 32 + 9 * (i / 2) + 4 * (i % 2)) 5
  if i % 2 = 0 then x % 2 ^ 36 else x / 16

/-- A WRITE or FILL record: its addresses, and the index of its first data word. -/
structure Record where
  addr : Nat
  n : Nat
  first : Nat
  fill : Bool
  deriving DecidableEq, Repr

/-- The records of a payload of `w` words from word `i` on (R363); none where it is malformed. -/
def State.records (s : State) (a w : Nat) : Nat → Nat → Option (List Record)
  | 0, _ => none
  | f + 1, i =>
    let x := s.streamWord a i
    let tag := x / 2 ^ 34
    if w ≤ i ∨ tag = 3 then none
    else if tag = 2 then
      if x % 2 ^ 34 = 0 ∧ (i + 1 = w ∨ (i + 2 = w ∧ s.streamWord a (i + 1) = 0)) then some [] else none
    else if x / 2 ^ 28 % 2 ^ 6 ≠ 0 ∨ w ≤ i + 1 then none
    else
      let y := s.streamWord a (i + 1)
      let n := y % 2 ^ 22
      let k := if tag = 1 then 1 else n
      if y / 2 ^ 22 ≠ 0 ∨ n = 0 ∨ 2097152 < n ∨ w < i + 2 + k then none
      else (s.records a w f (i + 2 + k)).map (fun l => ⟨x % 2 ^ 28, n, i + 2, tag == 1⟩ :: l)

/-- The records of the segment at `a`. -/
def State.segRecords (s : State) (a : Nat) : Option (List Record) :=
  let w := s.segLen a / 9 * 2
  s.records a w (w + 1) 0

/-- The permitted ranges of a target: first address and words (R364). -/
def targetRanges (t : Nat) : List (Nat × Nat) :=
  if t < 12 then
    [(0x1000 + t * 0x100, 0x100), (0x10000 + t * 0x1000, 0x1000), (0x1000000 + t * 0x200000, 0x200000),
      (0x3000000 + t * 0x1000, 0x1000)]
  else if t = 12 then [(0x20000, 0x1000)]
  else if t = 13 then [(0x21000, 0x1000)]
  else [(0, 0x1000), (0x22000, 0x1000)]

/-- An address lies in a target's ranges. -/
def inTarget (t a : Nat) : Bool := (targetRanges t).any (fun r => decide (r.1 ≤ a) && decide (a < r.1 + r.2))

/-- A record keeps R364. -/
def recordOk (t : Nat) (r : Record) : Bool :=
  (targetRanges t).any (fun g => decide (g.1 ≤ r.addr) && decide (r.addr + r.n ≤ g.1 + g.2))

/-- The condition of R366 that a single segment fails, of 2 to 5. -/
def State.segFault (s : State) (a : Nat) : Option Nat :=
  if !s.segHeadOk a then some 2
  else if s.segCrc a ≠ s.fCrc (a + 32) (s.segLen a) then some 3
  else match s.segRecords a with
    | none => some 4
    | some l => if l.all (recordOk (s.segTarget a)) then none else some 5

/-- The first of a list that fails, by index. -/
def firstBad (l : List Nat) (bad : Nat → Bool) : Option Nat := ((l.zipIdx).find? (fun p => bad p.1)).map (·.2)

/-- A segment list breaks condition 6 at index `i`. -/
def State.segTwice (s : State) (l : List Nat) (i : Nat) : Bool :=
  let t (j : Nat) : Nat := s.segTarget (l.getD j 0)
  decide (i = 0) != (t i == 14) || (List.range i).any (fun j => t j == t i)

/-- What R366 finds wrong with a slot: VERR and VSEG. -/
def State.verify (s : State) (slot : Nat) : Option (Nat × Nat) :=
  let l := s.segments slot
  let fails (v : Nat) : Option (Nat × Nat) := (firstBad l (fun a => s.segFault a == some v)).map (fun i => (v, i))
  if !s.headerOk slot then some (1, 0)
  else match fails 2, fails 3, fails 4, fails 5 with
    | some x, _, _, _ => some x
    | none, some x, _, _ => some x
    | none, none, some x, _ => some x
    | none, none, none, some x => some x
    | none, none, none, none =>
      if l.isEmpty then some (6, 0)
      else match (List.range l.length).find? (s.segTwice l) with
        | some i => some (6, i)
        | none =>
          if 64 + (l.map (fun a => 32 + s.segLen a)).sum = s.fNum (s.slotBase slot + 8) 4 then none else some (7, 0)

/-- The failed verification is reported (R366). -/
def State.showVerr (s : State) (x : Nat × Nat) : State :=
  (s.fset A.NVM_STATUS F.NVM_STATUS.VERR x.1).fset A.NVM_STATUS F.NVM_STATUS.VSEG x.2

/-- The writes of the segment at `a`, in stream order. -/
def State.segWrites (s : State) (a : Nat) : List (Nat × Word) :=
  (((s.segRecords a).getD []).map (fun r =>
    (List.range r.n).map (fun i => (r.addr + i, BitVec.ofNat 36 (s.streamWord a (r.first + if r.fill then 0 else i)))))).flatten

/-! ### What a segment write enables (R365, R370) -/

/-- The word has a GO field of R365, and in which place of the order of R370 it acts. -/
def goPlace (a : Nat) (v : Word) : Option Nat :=
  match placeOf a with
  | .bankReg _ o =>
    if 0x30 ≤ o ∧ o < 0x38 then (if F.PMC_CMD.GO.on v then some 0 else none)
    else if o = 0xa0 ∨ o = 0xd0 then (if F.AE_CTL.GO.on v then some 1 else none)
    else if o = 0x94 ∨ o = 0x9c then (if F.SRC_PLAY.GO.on v then some 2 else none)
    else if o = 0x2 then (if F.SEQ_START.GO.on v then some 3 else none)
    else none
  | _ => none

/-- What the value of a register enables that raises the ledger charge. -/
def itemOf (a : Nat) (v : Word) : Option Eff :=
  match placeOf a with
  | .bankReg b o =>
    if o = 0x0 then (if F.BANK_MODE.REQ.get v = 0 then none else some (.bank b (F.BANK_MODE.REQ.get v)))
    else if o = 0x90 ∨ o = 0x98 then (if F.SRC_CTL.EN.on v then some (.srcOn (2 * b + (o - 0x90) / 8)) else none)
    else if o = 0xa0 ∨ o = 0xd0 then (if F.AE_CTL.EN.on v then some (.aeOn (2 * b + (o - 0xa0) / 0x30)) else none)
    else none
  | .chanReg _ 0x0 => if F.CH_MODE.FUNC.get v = 0 then none else some (.force a v)
  | .rf o =>
    if o < 0x400 ∧ o % 0x80 = 0xc then (if F.RF_RXCTL.EN.on v then some (.rxOn (o / 0x80)) else none)
    else if 0x400 ≤ o ∧ o < 0x500 ∧ o % 0x80 = 0 then (if F.SYN_CTL.EN.on v then some (.force a v) else none)
    else none
  | _ => none

/-- The item keeps the register's power-on value in force until it is admitted. -/
def itemWaits : Option Eff → Bool
  | some (.force _ _) => true
  | _ => false

/-- A segment write of a register takes part: its value is accepted, and the register is not one that R365 excepts. -/
def segAccepts (a : Nat) (v : Word) : Bool := accepts a v && !(decide (0x62 ≤ a) && decide (a ≤ 0x65))

/-- The items and GO writes after one more write of a segment. -/
def Alm.enables (k : Alm) (t a : Nat) (v : Word) : Alm :=
  { k with
    items := k.items.filter (fun x => x.2.1 != a) ++ (match itemOf a v with | some e => [(t, a, e)] | none => [])
    goes := k.goes.filter (fun x => x.1 != a) ++ (if (goPlace a v).isSome then [(a, v)] else []) }

/-- What shows that the items wait: MODE_PEND and EN_PEND. -/
def State.pendItem (s : State) : Eff → State
  | .bank b _ => s.fset (A.BANK_STATUS b) F.BANK_STATUS.MODE_PEND 1
  | .srcOn n => (s.fset (srcStat n) F.SRC_STATUS.EN_PEND 1).updSr n (fun k => { k with who := .loader (n / 2) })
  | .aeOn e => (s.fset (aeStat e) F.AE_STATUS.EN_PEND 1).updEn e (fun k => { k with who := .loader (e / 2) })
  | .force a _ => match placeOf a with
    | .chanReg c 0x0 => s.fset (A.CH_STATUS c) F.CH_STATUS.MODE_PEND 1
    | _ => s
  | _ => s

/-- The segment list of a target is requested (R370, R374); a request for ACTIVE waits while R412 bars it. -/
def State.requestItems (s : State) (t : Nat) : State :=
  let barred (e : Eff) : Bool := match e with | .bank b req => req == bankActive && s.activeBarred b | _ => false
  let l := (s.alm.items.filter (fun x => x.1 == t)).map (·.2.2)
  let s := s.cond (l.any barred) (fun s => s.updBk t (fun k => { k with dieWait := some (.seq t) }))
  ((l.foldl State.pendItem s).requestList t (l.filter (fun e => !barred e))).updAlm (fun k => { k with
    items := k.items.filter (fun x => x.1 != t) })

/-- One GO write acts (R370). -/
def State.goNow (s : State) (g : Nat × Word) : State :=
  match placeOf g.1 with
  | .bankReg b o =>
    if o = 0x2 then s.seqGoNow b (F.SEQ_START.COND.get g.2) (F.SEQ_START.FLAG.get g.2) (F.SEQ_START.ADDR.get g.2)
    else if o < 0x38 then s.pmcGo b (o - 0x30) (.seq b) s.now
    else if o < 0xa0 then s.playGo (2 * b + (o - 0x94) / 8)
    else s.aeGoNow (2 * b + (o - 0xa0) / 0x30)
  | _ => s

/-- The GO writes of the targets that `p` accepts act, in the order of R370. -/
def State.goAll (s : State) (p : Nat → Bool) : State :=
  let mine (g : Nat × Word) : Bool := (match bankOfPlace (placeOf g.1) with | some b => p b | none => false)
  let l := s.alm.goes.filter mine
  let s := s.updAlm (fun k => { k with goes := k.goes.filter (fun g => !mine g) })
  [0, 1, 2, 3].foldl (fun s i => (l.filter (fun g => goPlace g.1 g.2 == some i)).foldl State.goNow s) s

/-! ### Segment load at start-up (R367 to R370) -/

/-- The ranges that status registers report follow a value that a segment brings into force (R182, R213, R370). -/
def State.followRange (s : State) (a : Nat) (v : Word) : State :=
  match placeOf a with
  | .chanReg c 0x20 => s.fset (A.CH_PMU_STATUS c) F.CH_PMU_STATUS.RANGE_EFF (F.CH_PMU_CTL.RANGE.get v)
  | .bankReg b o =>
    if o = 0x90 ∨ o = 0x98 then
      let n := elemOf b ((o - 0x90) / 8)
      (s.fset (srcStat n) F.SRC_STATUS.RANGE_EFF (F.SRC_CTL.RANGE.get v)).fbit (srcStat n) F.SRC_STATUS.LOAD_EFF
        (F.SRC_CTL.LOAD.on v)
    else s
  | _ => s

/-- A value that a segment brings into force directly (R370). -/
def State.loadWord (s : State) (t a : Nat) (v : Word) : State :=
  match placeOf a with
  | .vmem .. => s.memWr a v
  | .resp .. => s.memWr a v
  | .none => s
  | _ =>
    if !segAccepts a v then s
    else
      let s := s.updAlm (fun k => k.enables t a v)
      let w := s.overlay a v
      if a = A.CAL_TSLOT then (s.wr a w).applyTslot w
      else if a = A.LEAP_CTL then s.writeLeap (v &&& (regInfo a).rw)
      else if a = A.EPACT then s.writeEpact v
      else if a = A.WAKE_CTL then (s.putBoth a w).toC9 (.ctl w)
      else if a = A.WAKE_CODE then (s.putBoth a w).toC9 (.code false w)
      else if a = A.WAKE_BCODE then (s.putBoth a w).toC9 (.code true w)
      else if itemWaits (itemOf a v) then s.wr a w
      else (s.putBoth a w).followRange a w

/-- The segment at `a` is written. -/
def State.loadSeg (s : State) (a : Nat) : State :=
  let t := s.segTarget a
  let s := (s.segWrites a).foldl (fun s p => s.loadWord t p.1 p.2) s
  s.updAlm (fun k => { k with segs := k.segs.filter (fun p => p.1 != t) ++ [(t, s.segCrc a)] })

/-- Attempts of a segment that fail in transfer (R369). -/
def flashTries (f : FlashIn) (slot i : Nat) : Nat :=
  match f.failed.find? (fun p => p.1 == 16 * slot + i) with
  | some p => p.2
  | none => 0

/-- The segments of a slot, from index `i` on; false where one fails three times. -/
def State.loadSegs (s : State) (f : FlashIn) (skip : Nat → Bool) (slot : Nat) : List Nat → Nat → State × Bool
  | [], _ => (s, true)
  | a :: l, i =>
    if !s.segHeadOk a || decide (3 ≤ flashTries f slot i) then (s, false)
    else if skip (s.segTarget a) then s.loadSegs f skip slot l (i + 1)
    else if (s.segFault a).isSome then (s, false)
    else (s.loadSeg a).loadSegs f skip slot l (i + 1)

/-- The register of the island that a value on its way across C9 belongs to. -/
def C9.reg : C9 → Option Nat
  | .ctl _ => some A.WAKE_CTL
  | .code bcast _ => some (if bcast then A.WAKE_BCODE else A.WAKE_CODE)
  | _ => none

/-- Every target goes back to its power-on values, and vector memory and responder RAM to 0 (R369). Of the island's registers
only those go back that the load had written (R121): those behind the first `n` values on their way across C9. -/
def State.unload (s : State) (n : Nat) : State :=
  let isl := (s.isl.c9.drop n).filterMap C9.reg
  let keys := ((s.reg ++ s.frc).map (·.1)).filter (fun a => (regInfo a).rw != 0 && a < 0x23000
    && ((regInfo a).ev != .vaon || isl.contains a))
  let s := s.each keys (fun s a =>
    let v := (s.rd a &&& ~~~(regInfo a).rw) ||| (resetWord a &&& (regInfo a).rw)
    (s.wr a v).setEff a (resetWord a))
  let s := s.memDrop (fun a => decide (a < 0x4000000))
  let s := s.putBoth A.CAL_TSLOT (s.bsRd bsTslot)
  let s := s.cond (isl.contains A.WAKE_CTL) (fun s => s.toC9 (.ctl (s.rd A.WAKE_CTL)))
  let s := s.cond (isl.contains A.WAKE_CODE) (fun s => s.toC9 (.code false (s.rd A.WAKE_CODE)))
  let s := s.cond (isl.contains A.WAKE_BCODE) (fun s => s.toC9 (.code true (s.rd A.WAKE_BCODE)))
  (s.updCal (fun c => { c with tslotDue := 0, tslotPos := 0 })).updAlm (fun k => { k with segs := [], items := [], goes := [] })

/-- A load fell back, or no slot is in force (R368, R369, R409). -/
def State.almFault (s : State) : State := s.raiseF A.FAULT_STATUS F.FAULT_STATUS.ALM

/-- No slot is in force (R368). -/
def State.noSlot (s : State) : State := (s.fset A.ALMANAC_STATUS F.ALMANAC_STATUS.NONE 1).almFault

/-- `NVM_STATUS.WRITABLE` (R379). -/
def State.refreshWritable (s : State) : State :=
  s.fset A.NVM_STATUS F.NVM_STATUS.WRITABLE (match s.slotInForce with | none => 3 | some 0 => 2 | some _ => 1)

/-- The later of two activation sequences (R368). -/
def seqLater (a b : Nat) : Bool :=
  let d := (a + 2 ^ 32 - b) % 2 ^ 32
  decide (0 < d) && decide (d < 2 ^ 31)

/-- The candidates in the order in which they are tried (R368, R369). -/
def State.slotOrder (s : State) : List Nat :=
  match s.candidate 0, s.candidate 1 with
  | true, true => if seqLater (s.actSeq 1) (s.actSeq 0) then [1, 0] else [0, 1]
  | true, false => [0]
  | false, true => [1]
  | false, false => []

/-- Slots are tried in turn (R369); a slot behind the first is a fallback. -/
def State.loadSlots (s : State) (f : FlashIn) (skip : Nat → Bool) (first : Bool) : List Nat → State
  | [] => s.noSlot
  | slot :: l =>
    let s := s.cond (!first) (fun s => (s.raiseF A.ALMANAC_STATUS F.ALMANAC_STATUS.FELL_BACK).almFault)
    let n := s.isl.c9.length
    let (s', good) := s.loadSegs f skip slot (s.segments slot) 0
    if good then s'.fset A.ALMANAC_STATUS F.ALMANAC_STATUS.SLOT slot
    else
      let s' := s'.unload n
      if l.isEmpty then (s'.raiseF A.ALMANAC_STATUS F.ALMANAC_STATUS.FELL_BACK).noSlot else s'.loadSlots f skip false l

/-- SLOT_SELECTION and SEGMENT_LOAD, steps 4 and 5 of start-up (R358, R367 to R370). -/
def State.loadAlmanac (s : State) (f : FlashIn) (skip : Nat → Bool) : State :=
  let s := s.fbit A.ALMANAC_STATUS F.ALMANAC_STATUS.SLOW (f.sfdp && !f.octal)
  let s := if f.sfdp then s.loadSlots f skip true s.slotOrder else s.noSlot
  (s.upTo 768 (fun s c => (s.refreshInvert c).refreshWeak c)).refreshWritable

/-! ### Reload requests and R0 (R372, R373) -/

/-- The loader's report (`ALMANAC_STATUS.BUSY`, BUSY_TGT, QUEUE). -/
def State.showLoader (s : State) : State :=
  ((s.fbit A.ALMANAC_STATUS F.ALMANAC_STATUS.BUSY s.alm.busy.isSome).fset A.ALMANAC_STATUS F.ALMANAC_STATUS.BUSY_TGT
    (s.alm.busy.getD 0)).fset A.ALMANAC_STATUS F.ALMANAC_STATUS.QUEUE s.alm.queue.length

/-- A reload is in progress or queued. -/
def State.loaderBusy (s : State) : Bool := s.alm.busy.isSome || !s.alm.queue.isEmpty

/-- What an effect waiting for a later boundary acts on, as a target. -/
def effTarget : Eff → Option Nat
  | .force a _ => reloadTarget a
  | .clear a _ => reloadTarget a
  | .bank b _ => some b
  | .seq b _ _ _ _ _ _ => some b
  | .abort b => some b
  | .errHalt b _ => some b
  | .flags b _ _ => some b
  | .pmc b _ _ _ _ => some b
  | .pmcBegin n => some (n / 8)
  | .play n _ _ => some (n / 2)
  | .srcOn n => some (n / 2)
  | .ae e _ _ => some (e / 2)
  | .aeOn e => some (e / 2)
  | .pop e => some (e / 2)
  | .aeTrig e => some (e / 2)
  | .txAdm _ => some 13
  | .rxOn _ => some 13
  | .synCal _ _ => some 13
  | .synBegin _ => some 13
  | .synEnd _ => some 13
  | _ => none

/-- What requests want of a target leaves the ledger's queue, with its segment list. -/
def State.dropRequests (s : State) (t : Nat) : State :=
  let other (e : Eff) : Bool := effTarget e != some t
  s.updLed (fun l => { l with
    queue := (l.queue.filter (fun r => r.key != .list t && (r.effs.isEmpty || r.effs.any other))).map (fun r => { r with
      effs := r.effs.filter other })
    lists := l.lists.filter (fun p => p.1 != t) })

/-- R0 of a bank (R373). -/
def State.reloadBank0 (s : State) (b : Nat) : State :=
  let s := s.cond (s.calBusy && s.cal.bank == b) (fun s => s.calAbort F.CAL_STATUS.ABORTED)
  let s := s.cond (s.bankState b == bankActive) (fun s => s.moveBank b bankSafe)
  let s := s.each (bankChans b) (fun s c => s.cond (s.funcEff c != fnOff || (s.ch c).leaveAt.isSome) (fun s => s.holdChan c))
  let s := (s.pmcBankStop b).upTo 2 (fun s j =>
    ((s.srcOffNow (elemOf b j)).aeOffNow (elemOf b j)).fset (srcStat (elemOf b j)) F.SRC_STATUS.FAULT 0)
  let s := (s.seqCut b sqIdle).setStack b []
  (((s.dropBankRequests b).dropRequests b).unstage (fun e => effTarget e == some b)).updBk b (fun k => { k with reload := true })

/-- R0 of the router. -/
def State.reloadRouter0 (s : State) : State :=
  let s := s.withdrawIf (fun r => r.cls == .router && (match r.key with | .list _ => false | _ => true))
  ((s.updRt (fun r => { r with
    reload := true, cmds := [], arbs := r.arbs.filter (fun a => a.cls != .router) })).dropRequests 12).unstage
      (fun e => effTarget e == some 12)

/-- R0 of RF. -/
def State.reloadRf0 (s : State) : State :=
  let s := s.cond (s.calBusy && s.cal.bank == 12) (fun s => s.calAbort F.CAL_STATUS.ABORTED)
  let s := s.setRfReload true
  let s := (s.upTo 8 State.rxEnd).upTo 8 State.portTick
  let s := s.upTo 2 (fun s y =>
    let s := (s.fset (A.SYN_STATUS y) F.SYN_STATUS.CAL 0).updRt (fun r => { r with
      arbs := r.arbs.filter (fun a => a.res != .syn y) })
    (s.cond (s.rt.grants.any (fun g => g.1 == .syn y)) (fun s => s.synFree y)).refreshSyn y)
  ((s.dropRequests 13).unstage (fun e => effTarget e == some 13)).refreshRfreq

/-- A reload request takes effect at R0, the current boundary, or is ignored (R372). -/
def State.reloadAt (s : State) (t : Nat) : State :=
  if s.unit.st != .running || s.unit.deepReq || s.slotInForce.isNone || decide (14 ≤ t) || s.alm.busy == some t
      || s.alm.queue.any (fun p => p.2 == t) then
    s.raiseF A.ALMANAC_STATUS F.ALMANAC_STATUS.RELOAD_IGN
  else
    let s := if t < 12 then s.reloadBank0 t else if t = 12 then s.reloadRouter0 else s.reloadRf0
    (s.updAlm (fun k => { k with
      queue := insertBy (fun a b => decide (a.1 < b.1 ∨ (a.1 = b.1 ∧ a.2 ≤ b.2))) (s.now, t) k.queue })).showLoader

/-! ### The loader (R373 to R376) -/

/-- The index of a target's segment among the headers of a slot: a header that fails ends the walk. -/
def State.findSeg (s : State) (t : Nat) (l : List Nat) : Option Nat :=
  firstBad l (fun a => !s.segHeadOk a || s.segTarget a == t)

/-- The segment of a target in a slot: absent, failed after three attempts, or at an address; and whether a retry was needed
(R369, R375). -/
inductive Found where
  | absent
  | fails
  | at_ (a : Nat) (retried : Bool)
  deriving DecidableEq, Repr

/-- The search for a segment, with its checks (R373, R375). -/
def State.fetchSeg (s : State) (f : FlashIn) (t slot : Nat) : Found :=
  let l := s.segments slot
  match s.findSeg t l with
  | none => .absent
  | some i =>
    if (s.segFault (l.getD i 0)).isSome || decide (3 ≤ flashTries f slot i) then .fails
    else .at_ (l.getD i 0) (flashTries f slot i != 0)

/-- The other slot can serve a fallback (R376): a candidate that passes a full verification, which is remembered. -/
def State.fallbackOk (s : State) (slot : Nat) : State × Bool :=
  let fb := s.fget A.NVM_STATUS F.NVM_STATUS.FB_OK
  if !s.candidate slot then (s, false)
  else if fb.testBit slot then (s, true)
  else match s.verify slot with
    | some x => (s.showVerr x, false)
    | none => (s.fset A.NVM_STATUS F.NVM_STATUS.FB_OK (fb ||| 2 ^ slot), true)

/-- One write of a segment into the pending values (R47, R365). -/
def Alm.fillWord (k : Alm) (t : Nat) (p : Nat × Word) : Alm :=
  let a := p.1
  match placeOf a with
  | .vmem .. => { k with fill := Tab.set resetWord k.fill a p.2 }
  | .resp .. => { k with fill := Tab.set resetWord k.fill a p.2 }
  | .none => k
  | _ =>
    if !segAccepts a p.2 then k
    else
      let i := regInfo a
      { (k.enables t a p.2) with fill := Tab.set resetWord k.fill a ((i.reset &&& ~~~i.rw) ||| (p.2 &&& i.rw)) }

/-- The segment at `a` fills the pending values. -/
def State.fillFrom (s : State) (t a : Nat) : State :=
  let l := s.segWrites a
  let crc := s.segCrc a
  s.updAlm (fun k => l.foldl (fun k p => k.fillWord t p) { k with crc := crc })

/-- Flash bytes whose programming broke off hold free values. -/
def State.spoil (s : State) (a n : Nat) : State :=
  let s' := s.upTo n (fun s i => s.fPut (a + i) (Config.freeByte (s.free + i)))
  s'.freshN n

/-- The bytes that a host operation writes: none for READ and VERIFY. -/
def opBytes (op : Nat) : Nat := if op = 2 then 256 else if op = 3 then 65536 else 0

/-- `VER_OK`, `FB_OK` and VERIFIED of a slot clear (R375, R379); a scheduled activation of the slot is cancelled (R380). -/
def State.slotTouched (s : State) (slot : Nat) : State :=
  let a := A.NVM_STATUS
  let s := (s.fset a F.NVM_STATUS.VER_OK (s.fget a F.NVM_STATUS.VER_OK &&& (3 - 2 ^ slot))).fset a F.NVM_STATUS.FB_OK
    (s.fget a F.NVM_STATUS.FB_OK &&& (3 - 2 ^ slot))
  let s := s.cond (s.alm.lastVerified == some slot) (fun s => s.fset a F.NVM_STATUS.VERIFIED 0)
  match s.alm.sched with
  | some (x, _) => if x = slot then (s.updAlm (fun k => { k with sched := none })).fset a F.NVM_STATUS.ACT_SCHED 0 else s
  | none => s

/-- A retry resets the flash: a suspended host operation is abandoned (R375). -/
def State.abandonOp (s : State) : State :=
  match s.alm.op with
  | none => s
  | some (op, a) =>
    if opBytes op = 0 then s
    else
      let s := ((s.spoil a (opBytes op)).updAlm (fun k => { k with op := none })).raiseF A.NVM_STATUS F.NVM_STATUS.FAIL
      let s := (s.fset A.NVM_STATUS F.NVM_STATUS.BUSY 0).fset A.NVM_STATUS F.NVM_STATUS.SUSPENDED 0
      match s.slotOf a with
      | some x => s.slotTouched x
      | none => s

/-- RELOAD_START (R373, R375, R376): the next target's segment is read, checked and filled in. -/
def State.reloadBegin (s : State) (f : FlashIn) : State :=
  match s.alm.busy, s.alm.queue, s.slotInForce with
  | none, (_, t) :: rest, some slot =>
    let s := s.updAlm (fun k => { k with
      busy := some t, queue := rest, fill := [], items := [], goes := [], absent := false, failed := false, mixed := false
      crc := 0, commit := false })
    let s := s.cond (s.alm.op.any (fun o => opBytes o.1 != 0)) (fun s => s.fset A.NVM_STATUS F.NVM_STATUS.SUSPENDED 1)
    (match s.fetchSeg f t slot with
    | .absent => s.updAlm (fun k => { k with absent := true })
    | .at_ a retried => (s.cond retried State.abandonOp).fillFrom t a
    | .fails =>
      let s := s.abandonOp
      let bad (s : State) : State := s.updAlm (fun k => { k with failed := true })
      if !s.fon A.ALMANAC_CTL F.ALMANAC_CTL.FALLBACK then bad s
      else
        let (s, good) := s.fallbackOk (1 - slot)
        if !good then bad s
        else
          let back (s : State) : State :=
            ((s.updAlm (fun k => { k with mixed := true })).raiseF A.ALMANAC_STATUS F.ALMANAC_STATUS.FELL_BACK).almFault
          match s.fetchSeg f t (1 - slot) with
          | .absent => back (s.updAlm (fun k => { k with absent := true }))
          | .at_ a _ => back (s.fillFrom t a)
          | .fails => bad s).showLoader
  | _, _, _ => s

/-- RELOAD_END: checking is complete in this window (R373, R374). The values are committed for the boundary E, and the segment
list is requested. -/
def State.reloadCommit (s : State) : State :=
  match s.alm.busy with
  | none => s
  | some t =>
    if s.alm.commit then s
    else
      (((s.updAlm (fun k => { k with commit := true })).requestItems t).stage (s.now + 1) (.loader t) (.reloadEnd t)).stage
        (s.now + 1) (.loader t) (.reloadGo t)

/-! ### The end of a reload (R373, R374, R426) -/

/-- The pending values of the segment come into force, all together. -/
def State.applyFill (s : State) : State :=
  s.alm.fill.foldl (fun s p => match placeOf p.1 with
    | .vmem .. => s.memWr p.1 p.2
    | .resp .. => s.memWr p.1 p.2
    | _ => if itemWaits (itemOf p.1 p.2) then s.wr p.1 p.2 else (s.putBoth p.1 p.2).followRange p.1 p.2) s

/-- The registers of a target take their power-on values but for those it keeps; so do its values in force. -/
def State.targetReset (s : State) (t : Nat) : State :=
  { s with
    reg := Tab.drop (fun a => inTarget t a && !(regInfo a).kept) s.reg
    frc := Tab.drop (inTarget t) s.frc
    mem := Tab.drop (inTarget t) s.mem
    latA := Tab.drop (inTarget t) s.latA
    latB := Tab.drop (inTarget t) s.latB }

/-- Something waits that brings an effect: in the ledger's queue, in a segment list or at a boundary. -/
def State.awaits (s : State) (p : Eff → Bool) : Bool :=
  s.led.queue.any (fun r => r.effs.any p) || s.led.lists.any (fun l => l.2.any p) || s.staged.any (fun t => p t.eff)

/-- E of a bank: power-on values overlaid with those of the segment; conditions and what R426 keeps stay. -/
def State.reloadBank (s : State) (b : Nat) : State :=
  let was := s
  let s := (s.targetReset b).applyFill
  let s := s.fset (A.BANK_STATUS b) F.BANK_STATUS.STATE (was.bankState b)
  let s := s.each [A.BANK_CH_INT b 0, A.BANK_CH_INT b 1] (fun s a => s.wr a (was.rd a))
  let s := s.each (bankChans b) (fun s c =>
    let s := s.updCh c (fun h => { sampler := h.sampler, sCtl := h.sCtl, sCode := h.sCode, rawH := h.rawH, rawL := h.rawL,
                                   level := h.level, hAt := h.hAt, deepMatch := h.deepMatch })
    let s := s.fset (A.CH_VIGIL_STAT c) F.CH_VIGIL_STAT.PEND (was.fget (A.CH_VIGIL_STAT c) F.CH_VIGIL_STAT.PEND)
    let s := s.fbit (A.CH_STATUS c) F.CH_STATUS.MODE_PEND (s.pendingForce (A.CH_MODE c))
    (((s.setUncal c (s.isTorn c)).refreshPair c).refreshInvert c).refreshWeak c)
  let s := s.upTo 2 (fun s j =>
    let n := elemOf b j
    let s := (s.updSr n (fun k => { who := k.who })).updEn n (fun k => { who := k.who, level := k.level, deadPend := k.deadPend })
    let s := s.setUncal (768 + n) (s.isTorn (768 + n))
    let s := (s.setUncal (792 + n) (s.isTorn (792 + n))).fbit (srcStat n) F.SRC_STATUS.EN_PEND (s.awaits (fun e => e == .srcOn n))
    s.fbit (aeStat n) F.AE_STATUS.EN_PEND (s.awaits (fun e => e == .aeOn n)))
  let s := s.upTo 8 (fun s k => s.updPm (pmcOf b k) (fun _ => {}))
  let s := s.updBk b (fun k => { dieWait := k.dieWait })
  (s.cond (F.BANK_MODE.REQ.get (s.rd (A.BANK_MODE b)) == 0) (fun s => s.moveBank b bankOff)).bankPend b

/-- E of the router: lanes, timers and temperature references start anew. -/
def State.reloadRouter (s : State) : State :=
  let was := s
  let s := ((s.targetReset 12).applyFill).fset A.RT_STATUS F.RT_STATUS.WAKE (was.fget A.RT_STATUS F.RT_STATUS.WAKE)
  let s := s.upTo 16 (fun s n => s.cond ((s.eff (A.LANE_CTL n) ^^^ was.eff (A.LANE_CTL n)) &&& (regInfo (A.LANE_CTL n)).rw != 0) (fun s =>
    s.updRt (fun r => { r with laneHold := r.laneHold ||| 2 ^ n })))
  (s.upTo 4 State.timerStart).updRt (fun r => { r with reload := false, tref := 0xff })

/-- E of RF: the band selections, `SYN_CAL` and the conditions stay. -/
def State.reloadRf (s : State) : State :=
  let was := s
  let s := (s.targetReset 13).applyFill
  let s := s.upTo 8 (fun s p =>
    ((s.updPt p (fun _ => {})).setUncal (912 + p) (s.isTorn (912 + p))).fset (A.RF_STATUS p) F.RF_STATUS.TX txDisabled)
  let s := s.upTo 2 (fun s y => (s.wr (A.SYN_CAL y) (was.rd (A.SYN_CAL y))).updSy y (fun k => { band := k.band }))
  let s := s.fset A.COEX_STATUS F.COEX_STATUS.RFGNT (was.fget A.COEX_STATUS F.COEX_STATUS.RFGNT)
  s.setRfReload false

/-- The reload ends at the current boundary E (R373, R374, R376). -/
def State.reloadOver (s : State) (t : Nat) : State :=
  let s := if t < 12 then s.reloadBank t else if t = 12 then s.reloadRouter else s.reloadRf
  let k := s.alm
  let s := s.raiseIf k.absent A.ALMANAC_STATUS F.ALMANAC_STATUS.ABSENT
  let s := s.cond k.failed (fun s => (s.raiseF A.ALMANAC_STATUS F.ALMANAC_STATUS.RELOAD_FAIL).almFault)
  let s := s.updAlm (fun k => { k with
    busy := none, fill := [], commit := false
    foreign := if k.mixed then k.foreign ||| 2 ^ t else k.foreign &&& (2 ^ 14 - 1 - 2 ^ t)
    segs := k.segs.filter (fun p => p.1 != t) ++ (if k.absent || k.failed then [] else [(t, k.crc)]) })
  ((s.fbit A.ALMANAC_STATUS F.ALMANAC_STATUS.MIXED (s.alm.foreign != 0)).fset A.NVM_STATUS F.NVM_STATUS.SUSPENDED 0).showLoader

/-! ### The NVM registers (R378, R379) -/

/-- A write of `NVM_ADDR`: the pointer goes to 0. -/
def State.nvmAddr (s : State) (v : Word) : State :=
  (s.putBoth A.NVM_ADDR (v &&& (regInfo A.NVM_ADDR).rw)).updAlm (fun k => { k with ptr := 0 })

/-- An access to `NVM_DATA`: four bytes at the pointer, which advances. -/
def State.nvmData (s : State) (val : Option Word) : State × Word :=
  let p := s.alm.ptr
  let s := match val with
    | some v => s.updAlm (fun k => { k with
        buf := (List.range 4).foldl (fun t i => Tab.set (fun _ => (0 : Byte)) t ((p + i) % 256)
          (BitVec.ofNat 8 ((Fld.mk (8 * i) 8).get v))) k.buf })
    | none => s
  let w := (List.range 4).foldr (fun i x => (Tab.get (fun _ => (0 : Byte)) s.alm.buf ((p + i) % 256)).toNat + 256 * x) 0
  (s.updAlm (fun k => { k with ptr := (p + 4) % 256 }), BitVec.ofNat 36 w)

/-- The address in `NVM_ADDR`. -/
def State.nvmAt (s : State) : Nat := s.fget A.NVM_ADDR F.NVM_ADDR.ADDR

/-- A slot is writable (R379). -/
def State.writable (s : State) (slot : Nat) : Bool := s.slotInForce != some slot

/-- The slot that `NVM_ADDR` names, if it is writable. -/
def State.nvmSlot (s : State) : Option Nat :=
  match s.slotOf s.nvmAt with
  | some x => if s.writable x then some x else none
  | none => none

/-- A command is refused (R379). -/
def State.nvmRefuse (s : State) : State := s.raiseF A.NVM_STATUS F.NVM_STATUS.REFUSED

/-- A command is accepted unless it is refused: while BUSY any but CANCEL is (R379). Each command sets the pointer to 0. -/
def State.nvmCommand (s : State) (op : Nat) (good : Bool) (f : State → State) : State :=
  let s := s.updAlm (fun k => { k with ptr := 0 })
  if (s.fon A.NVM_STATUS F.NVM_STATUS.BUSY && op != 6) || !good then s.nvmRefuse
  else f (s.fset A.NVM_STATUS F.NVM_STATUS.LAST_OP op)

/-- The operation runs, or waits for the loader. -/
def State.nvmRun (s : State) (op : Nat) : State :=
  (s.updAlm (fun k => { k with op := some (op, s.nvmAt) })).fset A.NVM_STATUS F.NVM_STATUS.BUSY 1

/-- 256 bytes into the buffer. -/
def State.nvmReadNow (s : State) (a : Nat) : State :=
  s.updAlm (fun k => { k with buf := (List.range 256).foldl (fun t i =>
    Tab.set (fun _ => (0 : Byte)) t i (BitVec.ofNat 8 (s.fByte (a + i)))) k.buf })

/-- The outcome of VERIFY for a slot (R379): R366, and ACTSEQ erased. -/
def State.nvmVerifyNow (s : State) (slot : Nat) : State :=
  let a := A.NVM_STATUS
  let ok := s.fget a F.NVM_STATUS.VER_OK
  let s := s.updAlm (fun k => { k with lastVerified := some slot })
  match (if s.actSeq slot ≠ seqErased then some (1, 0) else s.verify slot) with
  | none => (s.fset a F.NVM_STATUS.VER_OK (ok ||| 2 ^ slot)).fset a F.NVM_STATUS.VERIFIED 1
  | some x =>
    (((s.showVerr x).fset a F.NVM_STATUS.VER_OK (ok &&& (3 - 2 ^ slot))).fset a F.NVM_STATUS.VERIFIED 0).raiseF a
      F.NVM_STATUS.FAIL

/-- READ. -/
def State.nvmRead (s : State) : State :=
  s.nvmCommand 1 (decide (s.nvmAt + 255 < s.flashD)) (fun s => if s.alm.busy.isSome then s.nvmRun 1 else s.nvmReadNow s.nvmAt)

/-- PROGRAM begins: the slot's verifications no longer hold. -/
def State.nvmProgram (s : State) : State :=
  s.nvmCommand 2 (s.nvmAt % 256 == 0 && s.nvmSlot.isSome) (fun s => (s.slotTouched (s.nvmSlot.getD 0)).nvmRun 2)

/-- ERASE begins. -/
def State.nvmErase (s : State) : State :=
  s.nvmCommand 3 (s.nvmAt % 65536 == 0 && s.nvmSlot.isSome) (fun s => (s.slotTouched (s.nvmSlot.getD 0)).nvmRun 3)

/-- VERIFY. -/
def State.nvmVerify (s : State) : State :=
  s.nvmCommand 4 s.nvmSlot.isSome (fun s => if s.alm.busy.isSome then s.nvmRun 4 else s.nvmVerifyNow (s.nvmSlot.getD 0))

/-- ACTIVATE. -/
def State.nvmActivate (s : State) (actReload : Bool) : State :=
  let ok := match s.nvmSlot with
    | some x => (s.fget A.NVM_STATUS F.NVM_STATUS.VER_OK).testBit x
    | none => false
  s.nvmCommand 5 ok (fun s =>
    (s.updAlm (fun k => { k with sched := some (s.nvmSlot.getD 0, actReload) })).fset A.NVM_STATUS F.NVM_STATUS.ACT_SCHED 1)

/-- CANCEL: ignored if nothing is scheduled. -/
def State.nvmCancel (s : State) : State :=
  s.nvmCommand 6 true (fun s => (s.updAlm (fun k => { k with sched := none })).fset A.NVM_STATUS F.NVM_STATUS.ACT_SCHED 0)

/-- A command written to `NVM_CMD` (R379); 0 and 7 are ignored. -/
def State.nvmCmd (s : State) (v : Word) : State :=
  match F.NVM_CMD.OP.get v with
  | 1 => s.nvmRead
  | 2 => s.nvmProgram
  | 3 => s.nvmErase
  | 4 => s.nvmVerify
  | 5 => s.nvmActivate (F.NVM_CMD.ACT_RELOAD.on v)
  | 6 => s.nvmCancel
  | _ => s

/-- NVM_OPERATION_COMPLETE (R379): not while the loader has the flash. -/
def State.nvmDone (s : State) (good : Bool) : State :=
  match s.alm.op with
  | none => s
  | some (op, a) =>
    if s.alm.busy.isSome then s
    else
      let s := (s.updAlm (fun k => { k with op := none })).fset A.NVM_STATUS F.NVM_STATUS.BUSY 0
      if op = 1 then s.nvmReadNow a
      else if op = 4 then s.nvmVerifyNow ((s.slotOf a).getD 0)
      else if !good then (s.spoil a (opBytes op)).raiseF A.NVM_STATUS F.NVM_STATUS.FAIL
      else if op = 2 then s.upTo 256 (fun s i => s.fPut (a + i) (Tab.get (fun _ => (0 : Byte)) s.alm.buf i))
      else s.upTo 65536 (fun s i => s.fPut (a + i) 0xff)

/-! ### Activation (R380, R381) -/

/-- PAYLOAD_CRC of a target's segment in a slot. -/
def State.crcIn (s : State) (slot t : Nat) : Option Nat :=
  ((s.segments slot).find? (fun a => s.segTarget a == t)).map s.segCrc

/-- PAYLOAD_CRC of a target's segment in force. -/
def State.crcNow (s : State) (t : Nat) : Option Nat := (s.alm.segs.find? (fun p => p.1 == t)).map (·.2)

/-- SLOT_ACTIVATION (R380) at a season boundary with no reload in progress or queued. -/
def State.activate (s : State) : State :=
  match s.alm.sched with
  | none => s
  | some (slot, all) =>
    if s.sea.due = 0 || s.loaderBusy then s
    else
      let a := A.ALMANAC_STATUS
      let prev := s.slotInForce
      let s := (s.updAlm (fun k => { k with sched := none, prev := some prev, foreign := 0 })).fset A.NVM_STATUS F.NVM_STATUS.ACT_SCHED 0
      let s := (s.fset A.NVM_STATUS F.NVM_STATUS.ACT_PEND 1).fset a F.ALMANAC_STATUS.SLOT slot
      let s := ((s.fset a F.ALMANAC_STATUS.NONE 0).fset a F.ALMANAC_STATUS.MIXED 0).refreshWritable
      let s := s.fbit a F.ALMANAC_STATUS.GLOBAL_STALE (s.crcIn slot 14 != s.crcNow 14)
      s.cond all (fun s => s.each ((List.range 14).filter (fun t => s.crcIn slot t != s.crcNow t)) State.reloadAt)

/-- ACTSEQ_PROGRAM (R381). -/
def State.actseq (s : State) : State :=
  match s.alm.prev, s.slotInForce with
  | some prev, some slot =>
    let old := match prev with
      | some p => s.actSeq p
      | none => seqErased
    let v := if old = seqErased then 1 else if old + 1 = seqErased then 0 else old + 1
    let base := s.slotBase slot + 0xc
    let s := s.upTo 4 (fun s i => s.fPut (base + i) (BitVec.ofNat 8 (v / 256 ^ i)))
    (s.updAlm (fun k => { k with prev := none })).fset A.NVM_STATUS F.NVM_STATUS.ACT_PEND 0
  | _, _ => s

/-- A write of `ALMANAC_CTL` reaches CORE (R372): FALLBACK and AUTO_BANK at once, TARGET and RELOAD at the boundary. -/
def State.writeAlmanac (s : State) (w : Wr) : State :=
  let a := A.ALMANAC_CTL
  let now := (regInfo a).rw &&& ~~~(regInfo a).delayed
  let s := s.setEff a ((s.eff a &&& ~~~now) ||| (w.val &&& now))
  (s.writeAt a w).cond (F.ALMANAC_CTL.RELOAD.on w.val) (fun s =>
    s.stage (s.dueAt w.cyc) w.who (.reload (F.ALMANAC_CTL.TARGET.get w.val)))

/-! ### The commands -/

/-- RELOAD_REQUEST (R372, R373): the request takes effect at the current boundary, R0. -/
def execReloadRequest (target : Fin 16) (s : State) : Host.Outcome State Fault Refusal := .next (s.reloadAt target)

/-- RELOAD_START (R373, R375, R376). -/
def execReloadStart (flash : FlashIn) (s : State) : Host.Outcome State Fault Refusal := .next (s.reloadBegin flash)

/-- RELOAD_END (R373, R374): in the window that ends at E. -/
def execReloadEnd (s : State) : Host.Outcome State Fault Refusal := .next s.reloadCommit

/-- NVM_READ (R379). -/
def execNvmRead (s : State) : Host.Outcome State Fault Refusal := .next s.nvmRead

/-- NVM_PROGRAM (R379, R380). -/
def execNvmProgram (s : State) : Host.Outcome State Fault Refusal := .next s.nvmProgram

/-- NVM_ERASE (R379, R380). -/
def execNvmErase (s : State) : Host.Outcome State Fault Refusal := .next s.nvmErase

/-- NVM_VERIFY (R366, R379). -/
def execNvmVerify (s : State) : Host.Outcome State Fault Refusal := .next s.nvmVerify

/-- NVM_ACTIVATE (R379, R380). -/
def execNvmActivate (actReload : Bool) (s : State) : Host.Outcome State Fault Refusal := .next (s.nvmActivate actReload)

/-- NVM_CANCEL (R379). -/
def execNvmCancel (s : State) : Host.Outcome State Fault Refusal := .next s.nvmCancel

/-- NVM_OPERATION_COMPLETE (R379). -/
def execNvmOperationComplete (reportedOk : Bool) (s : State) : Host.Outcome State Fault Refusal := .next (s.nvmDone reportedOk)

/-- NVM_DATA_ACCESS (R378): a write of the word, or a read. -/
def execNvmDataAccess (val : Option Word) (s : State) : Host.Outcome State Fault Refusal := .next (s.nvmData val).1

/-- NVM_ADDR_WRITE (R378). -/
def execNvmAddrWrite (val : Word) (s : State) : Host.Outcome State Fault Refusal := .next (s.nvmAddr val)

/-- SLOT_ACTIVATION (R380). -/
def execSlotActivation (s : State) : Host.Outcome State Fault Refusal := .next s.activate

/-- ACTSEQ_PROGRAM (R381). -/
def execActseqProgram (s : State) : Host.Outcome State Fault Refusal := .next s.actseq

end Sys2Proof.Machine
end

