-- ==== Sys2Proof/Machine/Unit.lean ====
section
/-! DEFINITION. The whole unit: supplies, resets and the watchdog (R27 to R31, R412 to R416, R434, R435, R444), CONV PLLs and
die links (R15, R21, R22, R411), start-up (R367), and deep vigil (R126, R127, R464). -/

namespace Sys2Proof.Machine

/-! ### Outputs and status of the unit (R416, `UNIT_STATUS`) -/

/-- The code of the unit state. -/
def unitCode : UnitState → Nat
  | .starting => 1
  | .running => 2
  | .deepPending => 3
  | .deepReady => 4
  | .waking => 5

/-- The unit moves to a state, which `PWR_STATUS` and `UNIT_STATUS` report. -/
def State.setUnit (s : State) (u : UnitState) : State :=
  ((s.updUnit (fun k => { k with st := u })).fset A.PWR_STATUS F.PWR_STATUS.UNIT_STATE (unitCode u)).fset A.UNIT_STATUS
    F.UNIT_STATUS.UNIT_STATE (unitCode u)

/-- The device pulls FAULT_N (R416). -/
def State.faultPull (s : State) : Bool :=
  s.unit.watchdog || ((s.unit.st == .starting || s.coreRuns)
    && (s.rd A.FAULT_STATUS &&& s.rd A.FAULT_ENABLE &&& 0xfffffff00) != 0)

/-- FAULT_N follows its causes. -/
def State.refreshFault (s : State) : State :=
  (s.updUnit (fun u => { u with faultN := s.faultPull })).fbit A.UNIT_STATUS F.UNIT_STATUS.FAULT_LOW s.faultPull

/-- Banks in a power state, by bit. -/
def State.banksIn (s : State) (st : Nat) : Nat :=
  ((List.range 12).filter (fun b => s.bankState b == st)).foldl (fun m b => m + 2 ^ b) 0

/-- `UNIT_STATUS` as of the tick. -/
def State.refreshUnit (s : State) : State :=
  let a := A.UNIT_STATUS
  let s := ((s.refreshFault).fset a F.UNIT_STATUS.ACTIVE (s.banksIn bankActive)).fset a F.UNIT_STATUS.SAFE (s.banksIn bankSafe)
  let s := (s.fbit a F.UNIT_STATUS.RF_READY (s.unit.vrf && !s.dieCond 6)).fbit a F.UNIT_STATUS.CAL_BUSY s.calBusy
  let s := (s.fbit a F.UNIT_STATUS.RELOAD s.alm.busy.isSome).fbit a F.UNIT_STATUS.INT_LOW s.unit.intN
  (s.fbit a F.UNIT_STATUS.WAKE_LOW s.isl.wakeN).fbit a F.UNIT_STATUS.TICK_OK (!s.isLocal)

/-! ### Supplies (R412, R434, R435) -/

/-- `PWR_STATUS` follows the supplies; VPOS and VNEG are good only at all six pin dies. -/
def State.showPower (s : State) : State :=
  let a := A.PWR_STATUS
  let u := s.unit
  let s := ((s.fbit a F.PWR_STATUS.VDDC_GOOD u.vddc).fbit a F.PWR_STATUS.VDDIO_GOOD u.vddio).fbit a F.PWR_STATUS.VDDA_GOOD u.vdda
  let s := ((s.fbit a F.PWR_STATUS.VAON_GOOD u.vaon).fbit a F.PWR_STATUS.VRF_GOOD u.vrf).fbit a F.PWR_STATUS.VBAK_GOOD u.vbak
  (s.fbit a F.PWR_STATUS.VPOS_GOOD (u.vpos == 63)).fbit a F.PWR_STATUS.VNEG_GOOD (u.vneg == 63)

/-- A supply becomes good or falls. -/
def UnitSt.rail (u : UnitSt) (r : Rail) (good : Bool) : UnitSt :=
  let m (x d : Nat) : Nat := if good then x ||| 2 ^ d else x &&& (63 - 2 ^ d)
  match r with
  | .vddc => { u with vddc := good }
  | .vddio => { u with vddio := good }
  | .vdda => { u with vdda := good }
  | .vaon => { u with vaon := good }
  | .vrf => { u with vrf := good }
  | .vbak => { u with vbak := good }
  | .vpos d => { u with vpos := m u.vpos d.val }
  | .vneg d => { u with vneg := m u.vneg d.val }

/-- The supply is good. -/
def UnitSt.railGood (u : UnitSt) : Rail → Bool
  | .vddc => u.vddc
  | .vddio => u.vddio
  | .vdda => u.vdda
  | .vaon => u.vaon
  | .vrf => u.vrf
  | .vbak => u.vbak
  | .vpos d => u.vpos.testBit d.val
  | .vneg d => u.vneg.testBit d.val

/-- The die that a rail of R412 belongs to. -/
def railDie : Rail → Option Nat
  | .vpos d => some d.val
  | .vneg d => some d.val
  | .vrf => some 6
  | _ => none

/-- The rails of a die are good. -/
def State.dieRails (s : State) (d : Nat) : Bool := if d < 6 then s.unit.vpos.testBit d && s.unit.vneg.testBit d else s.unit.vrf

/-! ### Reset of the core (R121, R424, R444) -/

/-- What START_CAUSE reads. -/
def State.setCause (s : State) (c : Nat) : State := s.fset A.FAULT_STATUS F.FAULT_STATUS.START_CAUSE c

/-- What a reset of the core leaves: the always-on island, the battery-backed store, the flash, the supplies and capture
memory; all else takes its reset value. Transfers on their way across C9 are lost, both ways (assumption 57). -/
def State.coreCleared (s : State) : State :=
  let keep (a : Nat) : Bool := (regInfo a).ev != .vaon && (regInfo a).ev != .fuses
  let u := s.unit
  { reg := Tab.drop keep s.reg, frc := Tab.drop keep s.frc, mem := Tab.drop (fun a => decide (a < 0x4000000)) s.mem
    bs := s.bs, bsFill := s.bsFill, isl := { s.isl with c9 := [], enelle := [] }
    unit := { vddc := u.vddc, vddio := u.vddio, vdda := u.vdda, vaon := u.vaon, vrf := u.vrf, vbak := u.vbak, vpos := u.vpos
              vneg := u.vneg, causes := u.causes, runTicks := u.runTicks, rfgnt := u.rfgnt }
    alm := { flash := s.alm.flash, density := s.alm.density }, free := s.free, pending := s.pending }

/-- The core die starts from its reset state; a flash operation that was in progress breaks off. -/
def State.startReset (s : State) : State :=
  let s := match s.alm.op with
    | some (op, a) => s.spoil a (opBytes op)
    | none => s
  ((((s.coreCleared).setCause (s.fget A.FAULT_STATUS F.FAULT_STATUS.START_CAUSE)).fbit A.CLK_STATUS F.CLK_STATUS.XT32_OK
    (s.fon A.CLK_STATUS F.CLK_STATUS.XT32_OK)).fbit A.RT_STATUS F.RT_STATUS.WAKE s.isl.rtWake).showPower

/-- The core is reset, with a cause of the next full start-up (R414). -/
def State.resetFor (s : State) (cause : Nat) : State :=
  ((s.startReset).updUnit (fun u => { u with causes := u.causes ||| 2 ^ cause })).refreshFault

/-- The registers and the state of the always-on island take their reset values (R424). -/
def State.vaonCleared (s : State) : State :=
  let vaon (a : Nat) : Bool := (regInfo a).ev == .vaon
  { s with reg := Tab.drop vaon s.reg, frc := Tab.drop vaon s.frc, isl := {} }

/-- VAON rises (R121, R414, R463): the island takes its reset values. -/
def State.vaonRise (s : State) : State :=
  let s := (s.startReset).vaonCleared
  let s := (s.fset A.RT_STATUS F.RT_STATUS.WAKE 0).fset A.CLK_STATUS F.CLK_STATUS.XT32_OK 0
  ((s.setCause 0).updUnit (fun u => { u with causes := 1 })).refreshFault

/-- The watchdog fires, or the CORE PLL loses lock (R413): FAULT_N is low until the next start-up. In DEEP_READY the core is
stopped already, and neither ends that state (R127, R416; assumption 74). -/
def State.watchdogFire (s : State) : State :=
  if s.unit.st = .deepReady then s
  else ((s.resetFor 2).updUnit (fun u => { u with watchdog := true })).refreshFault

/-- The start-up cause of a main supply that falls. -/
def railCause : Rail → Nat
  | .vaon => 0
  | _ => 3

/-- A main supply falls (R30, R127), or VBAK does (R342). Without VAON the core die does not hold on in any state. -/
def State.mainFall (s : State) (r : Rail) : State :=
  let s := (s.updUnit (fun u => u.rail r false)).bsRetain
  match r, s.unit.st with
  | .vbak, _ => s.showPower
  | .vaon, _ => s.resetFor (railCause r)
  | .vddc, .deepReady => (s.updUnit (fun u => { u with vddcFell := true })).showPower
  | _, .deepReady => (s.updUnit (fun u => { u with otherFell := true })).showPower
  | _, _ => s.resetFor (railCause r)

/-! ### CONV PLLs and die links (R15, R21, R22, R411, R412) -/

/-- The link of a die goes down, and a set of attempts to retrain it begins. -/
def State.linkDown (s : State) (d : Nat) : State :=
  (s.fset A.DIE_LINK_STATUS (F.DIE_LINK_STATUS.LINK_UP.bit d) 0).updUnit (fun u => { u with retrain := u.retrain ||| 2 ^ d })

/-- The link of a die is up. -/
def State.linkUp (s : State) (d : Nat) : Bool := s.fon A.DIE_LINK_STATUS (F.DIE_LINK_STATUS.LINK_UP.bit d)

/-- A link fault (R15). -/
def State.linkFault (s : State) (d : Nat) : State :=
  if !s.linkUp d then s
  else ((s.raiseF A.DIE_LINK_STATUS (F.DIE_LINK_STATUS.LINK_FAULT.bit d)).linkDown d).dieFault d 4

/-- A flit is sent again (R15); the fifth time in a tick is a link fault. -/
def State.flitRetry (s : State) (d : Nat) : State :=
  let n := s.unit.retries.getD d 0 + 1
  let s := (s.updUnit (fun u => { u with retries := u.retries.set d n })).inc A.DIE_LINK_STATUS F.DIE_LINK_STATUS.RETRY 1
  if 4 < n then s.linkFault d else s

/-- A rail of a die falls while the main supplies stay (R17, R30, R412): the pins of a pin die go high-impedance with it. In
DEEP_READY it may fall. -/
def State.dieRailFall (s : State) (r : Rail) (d : Nat) : State :=
  if !s.unit.railGood r then s
  else
    let s := (s.updUnit (fun u => u.rail r false)).showPower
    if s.unit.st = .deepReady then s.cond (d != 6) (fun s => s.updUnit (fun u => { u with otherFell := true }))
    else
      let s := (s.fset A.DIE_LINK_STATUS (F.DIE_LINK_STATUS.LINK_UP.bit d) 0).updUnit (fun u => { u with
        retrain := u.retrain &&& (127 - 2 ^ d) })
      let s := s.cond (d != 6) (fun s => s.each (dieBanks d) State.pinsSafe)
      (s.cond (d == 6) (fun s => s.fset A.CLK_STATUS (F.CLK_STATUS.CONV_LOCK.bit 6) 0)).dieFault d 5

/-- A supply becomes good (R435). At the rise of VRF no synthesiser has been calibrated (R292). -/
def State.supplyGood (s : State) (r : Rail) : State :=
  let rise := r == .vrf && !s.unit.vrf
  let s := (s.updUnit (fun u => u.rail r true)).showPower
  s.cond rise (fun s => s.upTo 2 (fun s y => (s.fset (A.SYN_CAL y) F.SYN_CAL.VALID 0).fset (A.SYN_CAL y) F.SYN_CAL.DUE 1))

/-- A running CONV PLL loses lock (R22). -/
def State.pllLoss (s : State) (d : Nat) : State :=
  if !s.unit.pllOn.testBit d || !s.pllLocked d then s
  else
    let s := (s.fset A.CLK_STATUS (F.CLK_STATUS.CONV_LOCK.bit d) 0).raiseF A.CLK_STATUS (F.CLK_STATUS.CONV_LOST.bit d)
    (s.updUnit (fun u => { u with pllLost := u.pllLost ||| 2 ^ d })).dieFault d 3

/-- A started CONV PLL reports lock (R21); that of the RF die not without VRF. -/
def State.pllLock (s : State) (d : Nat) : State :=
  if !s.unit.pllOn.testBit d || (d == 6 && !s.unit.vrf) then s
  else (s.fset A.CLK_STATUS (F.CLK_STATUS.CONV_LOCK.bit d) 1).updUnit (fun u => { u with pllLost := u.pllLost &&& (127 - 2 ^ d) })

/-! ### Start-up (R53, R367, R370, R401) -/

/-- The main supplies are good. -/
def State.mainGood (s : State) : Bool := s.unit.vddc && s.unit.vddio && s.unit.vdda && s.unit.vaon

/-- The last start-up step completed. -/
def State.setStep (s : State) (n : Nat) : State := s.fset A.ALMANAC_STATUS F.ALMANAC_STATUS.STEP n

/-- The last start-up step completed. -/
def State.step_ (s : State) : Nat := s.fget A.ALMANAC_STATUS F.ALMANAC_STATUS.STEP

/-- Step 3 (R367, R409): each link is trained; that of the RF die with VRF good. A die that is not is a die fault. -/
def State.trainDie (trained : List Bool) (s : State) (d : Nat) : State :=
  if d = 6 ∧ !s.unit.vrf then s
  else if trained.getD d false then s.fset A.DIE_LINK_STATUS (F.DIE_LINK_STATUS.LINK_UP.bit d) 1
  else s.dieFaultNow d 7

/-- Step 6 (R334, R349, R367): the first sample of a die, and its coefficients at their targets. -/
def State.calibrateDie (temps : List Int) (s : State) (d : Nat) : State :=
  if d < 7 ∧ !s.linkUp d then s
  else match temps[d]? with
    | some t => (dieElems d).foldl State.applyElem (s.sampleNow d t)
    | none => s

/-- Steps 1 to 6 of a full start-up (R367, R414). From step 7 on, ALIVE is sent with READY (R405), and host accesses to the
battery store are served (R355). -/
def State.startUp (s : State) (temps : List Int) (trained : List Bool) (flash : FlashIn) : State :=
  if s.unit.st != .starting || s.step_ != 0 || !s.mainGood then s
  else
    let s := s.setCause (((List.range 5).find? s.unit.causes.testBit).getD 0)
    let s := s.updUnit (fun u => { u with causes := 0, watchdog := false, ringOut := true })
    let s := (s.fset A.CLK_STATUS F.CLK_STATUS.REF_OK 1).fset A.CLK_STATUS F.CLK_STATUS.CORE_LOCK 1
    let s := (s.bsCheck).upTo 7 (State.trainDie trained)
    let s := s.loadAlmanac flash (fun t => (decide (t < 12) && !s.linkUp (dieOfBank t)) || (t == 13 && s.unit.vrf && !s.linkUp 6))
    let s := s.upTo 8 (State.calibrateDie temps)
    let s := (s.fset A.BS_STATUS F.BS_STATUS.READY 1).updRing (fun r => { r with ready := true })
    ((s.setUnit .starting).setStep 6).refreshUnit

/-- Entry to RUNNING (R41, R72, R120): what a start-up and a wake have in common. -/
def State.enterRunning (s : State) (banks : List Nat) : State :=
  ((s.setUnit .running).startLedger banks).autoRelease

/-- RUNNING_ENTRY of a start-up, step 9 (R41, R72, R273, R367, R370). -/
def State.runningEntry (s : State) : State :=
  let s := (((s.setStep 9).enterRunning []).updRt (fun r => { r with events := [] })).seasonBegin
  let s := s.updSea (fun k => { k with seasonDue := true, seasonFrom := s.now, tmin := List.replicate 8 none, tmax := List.replicate 8 none })
  (((s.upTo 4 State.timerStart).upTo 14 State.requestItems).goAll (fun _ => true)).refreshUnit

/-- Step 7 is complete (R367, R401); a unit that runs free goes on. -/
def State.enumerated (s : State) : State :=
  if s.unit.st != .starting || s.step_ != 6 then s
  else
    let s := s.setStep 7
    s.cond s.clk.running State.runningEntry

/-- The tick and its count begin (R53, R63, R464). A count that no card frame confirms is not set, so that timestamps are
LOCAL (R58, assumption 49). -/
def State.tickStart (s : State) (count : Nat) (free : Bool) : State :=
  let s := s.updClk (fun c => { c with
    count := count % 2 ^ 48, running := true, missing := 0, cardDiff := none, adoptTo := none
    epact := twos 25 (s.fget A.EPACT F.EPACT.EPACT), tickLen := Config.tickFine })
  let a := A.TICK_STATUS
  if free then ((s.fset a F.TICK_STATUS.FREE 1).fset a F.TICK_STATUS.LOCKED 0).fset a F.TICK_STATUS.COUNT_SET 0
  else ((s.fset a F.TICK_STATUS.COUNT_SET 1).fset a F.TICK_STATUS.LOCKED 1).fset a F.TICK_STATUS.FREE 0

/-- First tick alignment, step 8 (R53, R367): the count is the decoded one plus 64. -/
def State.firstAlignment (s : State) (decoded : Nat) : State :=
  if s.unit.st != .starting || s.step_ != 7 || s.clk.running then s
  else (s.tickStart (decoded + 64) false).runningEntry

/-- No valid frame within 1,024 ticks of CORE lock (R53). -/
def State.freeRun (s : State) : State :=
  if s.unit.st != .starting || s.step_ == 0 || s.clk.running then s
  else (s.tickStart 0 true).cond (s.step_ == 7) State.runningEntry

/-! ### Deep vigil (R126, R127, R464) -/

/-- The reload of a bank is in progress (R126). -/
def State.bankReloads (s : State) : Bool := match s.alm.busy with | some t => decide (t < 12) | none => false

/-- The unit enters DEEP_PENDING (R126): a season boundary falls at the next tick. -/
def State.deepPending (s : State) : State :=
  if s.unit.st != .running || !s.unit.deepReq || s.bankReloads then s
  else ((((s.updUnit (fun u => { u with deepReq := false })).setUnit .deepPending).stageNext (.season 16)).stageNext
    .deepDown)

/-- Step 2 of R126. The RF ports are disabled, and a calibration run ends, at the same boundary (R286, R331). -/
def State.deepDown (s : State) : State :=
  let s := s.upTo 12 (fun s b =>
    (s.dropBankRequests b).cond (s.bankState b == bankActive) (fun s => s.moveBank b bankSafe))
  let s := s.upTo 8 State.rxEnd
  s.upTo 768 (fun s c => s.cond (s.funcEff c != fnOff && s.funcEff c != fnDeep) (fun s => s.holdChan c))

/-- DEEP_READY is reached (R126 steps 3 to 5). -/
def State.deepReady (s : State) : State :=
  let due := s.staged.any (fun t => t.eff == .deepDown || (match t.eff with | .season _ => true | _ => false))
  if s.unit.st != .deepPending || due || s.sea.due != 0 || !s.isl.c9.isEmpty || !s.sea.recs.isEmpty || s.sea.seasonDue
      || (s.cal.tslotDue != 0 && !s.bsFailed) || s.cal.commit == 2 then s
  else
    let s := (s.upTo 7 State.pllStop).upTo 2 State.refreshSyn
    let s := (s.updUnit (fun u => { u with ringOut := false, intN := false })).updClk (fun c => { c with running := false })
    ((s.setRfreq false).setUnit .deepReady).refreshUnit

/-- The CONV PLLs of the dies whose banks are not OFF (R21). -/
def State.pllsWanted (s : State) : Nat :=
  (List.range 6).foldl (fun m d => if (dieBanks d).all (fun b => s.bankState b == bankOff) then m else m + 2 ^ d) 0

/-- The unit leaves DEEP_READY (R127): by a full start-up after VDDC has fallen, else by WAKING. -/
def State.wake (s : State) : State :=
  let good := s.mainGood && s.unit.vpos == 63 && s.unit.vneg == 63
  let u := s.unit
  if u.st != .deepReady then s
  else if u.vddcFell then (if good then s.resetFor 4 else s)
  else if u.otherFell && !good then s
  else if !u.otherFell && !s.isl.wakeN then s
  else
    ((s.updUnit (fun u => { u with otherFell := false, ringOut := true, pllOn := s.pllsWanted })).setUnit .waking).refreshUnit

/-- Receive and synthesisers that are enabled are requested again after deep vigil (R41, assumption 64). -/
def State.rfAgain (s : State) : State :=
  let s := s.upTo 8 (fun s p => s.cond (s.eon (A.RF_RXCTL p) F.RF_RXCTL.EN && !s.hasReq (.rx p)) (fun s =>
    s.request (.rx p) .host 0 (.host .a) 0 [.rxOn p]))
  s.upTo 2 (fun s y => s.cond (s.eon (A.SYN_CTL y) F.SYN_CTL.EN && !s.hasReq (.reg (A.SYN_CTL y))) (fun s =>
    s.request (.reg (A.SYN_CTL y)) .host 0 (.host .a) 0 [.force (A.SYN_CTL y) (s.rd (A.SYN_CTL y))]))

/-- Entry to RUNNING from WAKING (R41, R80, R127, R464): light vigil is requested again. -/
def State.wakingEntry (s : State) : State :=
  let safe := (List.range 12).filter (fun b => s.bankState b != bankOff)
  let s := (s.enterRunning safe).updRt (fun r => { r with events := [] })
  ((s.each safe (fun s b => s.reRequest b (bankChans b))).rfAgain).refreshUnit

/-- Every CONV PLL has relocked. -/
def State.relocked (s : State) : Bool := (List.range 7).all (fun d => !s.unit.pllOn.testBit d || s.pllLocked d)

/-- A valid frame in WAKING (R464). -/
def State.wakingAligned (s : State) (decoded : Nat) : State :=
  if s.unit.st != .waking || !s.relocked then s else (s.tickStart (decoded + 64) false).wakingEntry

/-- No valid frame in WAKING (R464): the count resumes. -/
def State.wakingTimeout (s : State) : State :=
  if s.unit.st != .waking || !s.relocked then s else (s.tickStart s.clk.count true).wakingEntry

/-! ### The commands -/

/-- VAON_RISE (R121). -/
def execVaonRise (s : State) : Host.Outcome State Fault Refusal := .next s.vaonRise

/-- RESET_N_LOW (R444). -/
def execResetNLow (s : State) : Host.Outcome State Fault Refusal := .next (s.resetFor 1)

/-- START_UP (R367): steps 1 to 6. -/
def execStartUp (temps : List Int) (trained : List Bool) (flash : FlashIn) (s : State) : Host.Outcome State Fault Refusal :=
  .next (s.startUp temps trained flash)

/-- ENUMERATION_WAIT_TIMEOUT (R367, R401). -/
def execEnumerationWaitTimeout (s : State) : Host.Outcome State Fault Refusal := .next s.enumerated

/-- FIRST_TICK_ALIGNMENT (R53). -/
def execFirstTickAlignment (decoded : Nat) (s : State) : Host.Outcome State Fault Refusal := .next (s.firstAlignment decoded)

/-- FREE_RUN_START (R53). -/
def execFreeRunStart (s : State) : Host.Outcome State Fault Refusal := .next s.freeRun

/-- SUPPLY_GOOD (R435). -/
def execSupplyGood (rail : Rail) (s : State) : Host.Outcome State Fault Refusal := .next (s.supplyGood rail)

/-- MAIN_SUPPLY_FALL (R30, R127, R342): VDDC, VDDIO, VDDA, VAON or VBAK. -/
def execMainSupplyFall (rail : Rail) (s : State) : Host.Outcome State Fault Refusal :=
  if (railDie rail).isSome || !s.unit.railGood rail then ok s else .next (s.mainFall rail)

/-- DIE_RAIL_FALL (R412): VPOS or VNEG of a pin die, or VRF. -/
def execDieRailFall (rail : Rail) (s : State) : Host.Outcome State Fault Refusal :=
  match railDie rail with
  | some d => .next (s.dieRailFall rail d)
  | none => ok s

/-- DIE_RAIL_RETRAIN (R412): the rail has been good for 1 ms. -/
def execDieRailRetrain (die : Fin 7) (s : State) : Host.Outcome State Fault Refusal :=
  if s.dieRails die.val && !s.linkUp die.val then .next (s.linkDown die.val) else ok s

/-- WATCHDOG (R413). -/
def execWatchdog (s : State) : Host.Outcome State Fault Refusal := .next s.watchdogFire

/-- CORE_PLL_LOSS_OF_LOCK (R413). -/
def execCorePllLossOfLock (s : State) : Host.Outcome State Fault Refusal := .next s.watchdogFire

/-- CONV_PLL_LOSS_OF_LOCK (R22). -/
def execConvPllLossOfLock (die : Fin 7) (s : State) : Host.Outcome State Fault Refusal := .next (s.pllLoss die.val)

/-- CONV_PLL_LOCK (R21). -/
def execConvPllLock (die : Fin 7) (s : State) : Host.Outcome State Fault Refusal := .next (s.pllLock die.val)

/-- FLIT_RETRY (R15). -/
def execFlitRetry (die : Fin 7) (s : State) : Host.Outcome State Fault Refusal := .next (s.flitRetry die.val)

/-- LINK_FAULT (R15). -/
def execLinkFault (die : Fin 7) (s : State) : Host.Outcome State Fault Refusal := .next (s.linkFault die.val)

/-- LINK_RETRAIN_SUCCESS (R411): LINK_UP sets, and the die has every setting in force again. -/
def execLinkRetrainSuccess (die : Fin 7) (s : State) : Host.Outcome State Fault Refusal :=
  if s.unit.retrain.testBit die.val then
    .next ((s.fset A.DIE_LINK_STATUS (F.DIE_LINK_STATUS.LINK_UP.bit die.val) 1).updUnit (fun u => { u with
      retrain := u.retrain &&& (127 - 2 ^ die.val) }))
  else ok s

/-- LINK_RETRAIN_SET (R411): a further set of attempts, while the unit is RUNNING. -/
def execLinkRetrainSet (die : Fin 7) (s : State) : Host.Outcome State Fault Refusal :=
  if s.unit.st == .running && !s.linkUp die.val && s.dieRails die.val then .next (s.linkDown die.val) else ok s

/-- DIE_LINK_STATUS_READ (R429): RETRY clears. -/
def execDieLinkStatusRead (s : State) : Host.Outcome State Fault Refusal :=
  .next (s.fset A.DIE_LINK_STATUS F.DIE_LINK_STATUS.RETRY 0)

/-- DEEP_PENDING_ENTRY (R126). -/
def execDeepPendingEntry (s : State) : Host.Outcome State Fault Refusal := .next s.deepPending

/-- DEEP_READY_ENTRY (R126). -/
def execDeepReadyEntry (s : State) : Host.Outcome State Fault Refusal := .next s.deepReady

/-- WAKE_FROM_DEEP (R127). -/
def execWakeFromDeep (s : State) : Host.Outcome State Fault Refusal := .next s.wake

/-- WAKING_ALIGNMENT (R464). -/
def execWakingAlignment (decoded : Nat) (s : State) : Host.Outcome State Fault Refusal := .next (s.wakingAligned decoded)

/-- WAKING_FRAME_TIMEOUT (R464). -/
def execWakingFrameTimeout (s : State) : Host.Outcome State Fault Refusal := .next s.wakingTimeout

end Sys2Proof.Machine
end

