-- ==== Sys2Proof/Machine/Regs.lean ====
section
/-! DEFINITION. Writes and reads of the register space (R5 to R9, R395, R419, R427 to R430): what a write of each address does,
when a write counts as ignored, what a read returns, and the commands of single writes. -/

namespace Sys2Proof.Machine

/-! ### Writes -/

/-- A write of a register without AT fields: it is in force at once. -/
def State.putNow (s : State) (a : Nat) (v : Word) : State :=
  s.gated a (fun s => if accepts a v then s.putBoth a (s.overlay a v) else s)

/-- A write of 1 to W1C bits that clear at once. -/
def State.clearNow (s : State) (a : Nat) (v : Word) : State := s.gated a (fun s => s.w1c a (v &&& (regInfo a).w1c))

/-- An AT write with a WO field that acts beside it. -/
def State.writeThen (s : State) (a : Nat) (w : Wr) (f : State → State) : State :=
  s.gated a (fun s => if accepts a w.val then f (s.writeAt a w) else s)

/-- An effect staged for the boundary of a write (R46). -/
def State.stageWr (s : State) (w : Wr) (e : Eff) : State := s.stage (s.dueAt w.cyc) w.who e

/-- A write of `WAKE_CTL` (R126): its enables cross C9, DEEP_REQ is a request. -/
def State.writeWakeCtl (s : State) (w : Wr) : State :=
  let v := s.overlay A.WAKE_CTL w.val
  ((s.putBoth A.WAKE_CTL v).toC9 (.ctl v)).cond (F.WAKE_CTL.DEEP_REQ.on w.val && s.unit.st == .running)
    (fun s => s.stageWr w .deep)

/-- A write of a global register (R420). -/
def State.writeGlobal (s : State) (a : Nat) (w : Wr) : State :=
  let v := w.val
  if a = A.FAULT_STATUS then s.stageWr w (.clear a (v &&& (regInfo a).w1c))
  else if a = A.INT_STATUS then s.stageWr w (.clear a (v &&& F.INT_STATUS.RIRQ.mask))
  else if a = A.FAULT_ENABLE then (s.putNow a v).refreshFault
  else if a = A.INT_CTL then s.putNow a v
  else if a = A.LEAP_CTL then s.writeLeap v
  else if a = A.EPACT then s.writeEpact v
  else if a = A.EPACT_CTL then s.cond (F.EPACT_CTL.START.on v) State.epactStart
  else if a = A.SEASON_CTL then s.writeSeason w
  else if a = A.ALMANAC_CTL then s.writeAlmanac w
  else if a = A.NVM_ADDR then s.nvmAddr v
  else if a = A.NVM_DATA then (s.nvmData (some v)).1
  else if a = A.NVM_CMD then s.nvmCmd v
  else if a = A.WAKE_CTL then s.writeWakeCtl w
  else if a = A.WAKE_CODE ∨ a = A.WAKE_BCODE then
    (s.putNow a v).toC9 (.code (a == A.WAKE_BCODE) (v &&& (regInfo a).rw))
  else if a = A.WAKE_STATUS then s.toC9 (.clear (v &&& (regInfo a).w1c))
  else if (regInfo a).delayed != 0 then s.writeAt a w
  else if (regInfo a).w1c != 0 then s.clearNow a v
  else s

/-- A write of a bank register by offset (R421). -/
def State.writeBankReg (s : State) (a b o : Nat) (w : Wr) : State :=
  let v := w.val
  if o = 0x0 then s.writeBankMode b w
  else if o = 0x2 then
    let go := F.SEQ_START.GO.on v
    let stop := F.SEQ_START.STOP.on v
    let abort := F.SEQ_START.ABORT.on v
    s.writeThen a w (fun s => s.cond (go || stop || abort) (fun s =>
      s.stageWr w (.seq b go stop abort (F.SEQ_START.COND.get v) (F.SEQ_START.FLAG.get v) (F.SEQ_START.ADDR.get v))))
  else if o = 0x3 then s.putNow a v
  else if o = 0xb then s.writeVecPeriod b w
  else if 0x30 ≤ o ∧ o < 0x38 then
    let go := F.PMC_CMD.GO.on v
    let stop := F.PMC_CMD.STOP.on v
    s.writeThen a w (fun s => s.cond (go || stop) (fun s => s.stageWr w (.pmc b (o - 0x30) go stop w.who)))
  else if o = 0x90 ∨ o = 0x98 then s.writeSrcCtl (elemOf b ((o - 0x90) / 8)) w
  else if o = 0x94 ∨ o = 0x9c then
    let go := F.SRC_PLAY.GO.on v
    let stop := F.SRC_PLAY.STOP.on v
    s.writeThen a w (fun s => s.cond (go || stop) (fun s => s.stageWr w (.play (elemOf b ((o - 0x94) / 8)) go stop)))
  else if o = 0x95 ∨ o = 0x9d then
    s.gated a (fun s => (s.clearNow a (F.SRC_STATUS.FAULT.put v 0)).cond (F.SRC_STATUS.FAULT.on v)
      (fun s => s.srcFaultClear (elemOf b ((o - 0x95) / 8))))
  else if o = 0xa0 ∨ o = 0xd0 then s.writeAeCtl (elemOf b ((o - 0xa0) / 0x30)) w
  else if o = 0xa4 ∨ o = 0xd4 then
    s.writeThen a w (fun s => s.cond (F.AE_TRIG.FORCE.on v) (fun s => s.stageWr w (.aeTrig (elemOf b ((o - 0xa4) / 0x30)))))
  else if o = 0xa6 ∨ o = 0xd6 then
    s.gated a (fun s => s.cond (F.AE_RECPOP.POP.on v) (fun s => s.stageWr w (.pop (elemOf b ((o - 0xa6) / 0x30)))))
  else if (regInfo a).delayed != 0 then s.writeAt a w
  else if (regInfo a).w1c != 0 then s.clearNow a v
  else s

/-- A write of a channel register by offset (R422). -/
def State.writeChanReg (s : State) (a c o : Nat) (w : Wr) : State :=
  let v := w.val
  if o = 0x0 then s.writeChMode c w
  else if o = 0x8 then s.writeLatch c v
  else if o = 0x9 then
    s.gated a (fun s => (s.w1c a (v &&& F.CH_STATUS.DRV_LIMIT.mask)).cond (F.CH_STATUS.DRV_FAULT.on v)
      (fun s => s.stageWr w (.clear a F.CH_STATUS.DRV_FAULT.mask)))
  else if o = 0x20 then s.writePmuCtl c w
  else if (regInfo a).delayed != 0 then s.writeAt a w
  else if (regInfo a).w1c != 0 then s.clearNow a v
  else if (regInfo a).rw != 0 then s.putNow a v
  else s

/-- A write of a router register (R423). -/
def State.writeRouterReg (s : State) (a : Nat) (w : Wr) : State :=
  let v := w.val
  if a = A.RT_CTL then s.gated a (fun s => (s.putNow a v).updRt (fun r => { r with tref := 0xff }))
  else if a = A.RT_STATUS then
    s.gated a (fun s => (s.clearNow a (F.RT_STATUS.WAKE.put v 0)).cond (F.RT_STATUS.WAKE.on v) (fun s => s.toC9 (.wake false)))
  else if (regInfo a).delayed != 0 then s.writeAt a w
  else if (regInfo a).w1c != 0 then s.clearNow a v
  else if (regInfo a).rw != 0 then s.putNow a v
  else s

/-- A write of an RF register by offset (R423). -/
def State.writeRfReg (s : State) (a o : Nat) (w : Wr) : State :=
  let v := w.val
  if (o < 0x500 ∧ o % 0x80 = 0) then s.writeRfReq a w
  else if o < 0x400 ∧ o % 0x80 = 5 then s.writeTxCmd (o / 0x80) w
  else if o < 0x400 ∧ o % 0x80 = 0xc then s.writeRxCtl (o / 0x80) w
  else if 0x400 ≤ o ∧ o < 0x500 ∧ o % 0x80 = 2 then
    let h := match w.who with | .host h => h | _ => Side.a
    s.gated a (fun s => s.cond (F.SYN_CAL.GO.on v) (fun s => s.stageWr w (.synCal ((o - 0x400) / 0x80) h)))
  else if (regInfo a).delayed != 0 then s.writeAt a w
  else if (regInfo a).w1c != 0 then s.clearNow a v
  else if (regInfo a).rw != 0 then s.putNow a v
  else s

/-- A write of a calibration register (R423). -/
def State.writeCalReg (s : State) (a : Nat) (w : Wr) : State :=
  let v := w.val
  if a = A.CAL_CMD then
    let go := F.CAL_CMD.GO.on v
    let stop := F.CAL_CMD.STOP.on v
    s.writeThen a w (fun s => s.cond (go || stop) (fun s => s.stageWr w (.cal go stop)))
  else if a = A.CAL_INFO then (s.putNow a v).refreshInfo
  else if (regInfo a).delayed != 0 then s.writeAt a w
  else if (regInfo a).w1c != 0 then s.clearNow a v
  else if (regInfo a).rw != 0 then s.putNow a v
  else s

/-- The register whose GO, STOP and other write-only fields an effect carries out. -/
def cmdReg : Eff → Option Nat
  | .seq b _ _ _ _ _ _ => some (A.SEQ_START b)
  | .pmc b k _ _ _ => some (A.PMC_CMD b k)
  | .play n _ _ => some (srcPlay n)
  | .ae e _ _ => some (aeCtl e)
  | .aeTrig e => some (aeTrigReg e)
  | .pop e => some (A.AE_RECPOP (e / 2) (e % 2))
  | .txStop p => some (A.RF_TXCMD p)
  | .cal _ _ => some A.CAL_CMD
  | .reload _ => some A.ALMANAC_CTL
  | .synCal y _ => some (A.SYN_CAL y)
  | .deep => some A.WAKE_CTL
  | .season _ => some A.SEASON_CTL
  | _ => none

/-- The effect waits in place of a host's or sequencer's write, not of a router action or another event. -/
def writtenBy : Writer → Bool
  | .host _ => true
  | .seq _ => true
  | _ => false

/-- An earlier write of the register that is due at the same boundary leaves no trace (R7): what its GO, STOP and other
write-only fields would do goes with it. -/
def State.supersede (s : State) (a due : Nat) : State :=
  s.updStaged (fun l => l.filter (fun t => !(t.due == due && writtenBy t.who && cmdReg t.eff == some a)))

/-- What a write that reaches CORE does by its address (R9). A store word is written whole; capture memory and unmapped
addresses ignore writes. -/
def State.writeAddr (s : State) (a : Nat) (w : Wr) : State :=
  match placeOf a with
  | .global a => s.writeGlobal a w
  | .bankReg b o => s.writeBankReg a b o w
  | .chanReg c o => s.writeChanReg a c o w
  | .router _ => s.writeRouterReg a w
  | .rf o => s.writeRfReg a o w
  | .cal a => s.writeCalReg a w
  | .store i => (s.storeWrite i w.val).1
  | .vmem b _ _ => s.vmWrite b a w.val
  | .resp _ _ => s.gated a (fun s => s.memWr a w.val)
  | .capt _ _ => s
  | .none => s

/-- A write reaches CORE (R7, R427): a write that does not prevail over a pending one leaves no trace, and one that does
leaves none of the pending one. -/
def State.writeReg (s : State) (a : Nat) (w : Wr) : State :=
  if (regInfo a).delayed = 0 ∨ s.reloading a ∨ !accepts a w.val then s.writeAddr a w
  else
    let s := s.hideTimed a
    if s.outranked a (s.dueAt w.cyc) w.who then s
    else (s.supersede a (s.dueAt w.cyc)).writeAddr a w

/-- A written word counts as ignored (R395, STATUS 1). -/
def State.writeIgnored (s : State) (a : Nat) (v : Word) : Bool :=
  match placeOf a with
  | .none => true
  | .capt _ _ => true
  | .store i => (s.storeWrite i v).2
  | .vmem b _ _ => s.reloading a || s.vmBusy b
  | .resp _ _ => s.reloading a
  | .chanReg c 0x8 => s.reloading a || s.eon (A.CH_MODE c) F.CH_MODE.LATCH_CLR
  | _ => (regInfo a).writable == 0 || !accepts a v || s.reloading a

/-- One word of a host's write: its effect, and its STATUS of 0, 1 or 2 (R48, R395). -/
def State.hostWrite (s : State) (h : Side) (cyc a : Nat) (v : Word) : State × Nat :=
  let full := s.fget A.TICK_BUDGET F.TICK_BUDGET.LEDGER_FULL
  let ign := s.writeIgnored a v
  let t := (s.fset A.TICK_BUDGET F.TICK_BUDGET.LEDGER_FULL 0).writeReg a ⟨.host h, v, cyc⟩
  let lost := t.fget A.TICK_BUDGET F.TICK_BUDGET.LEDGER_FULL
  (t.fset A.TICK_BUDGET F.TICK_BUDGET.LEDGER_FULL (satAdd F.TICK_BUDGET.LEDGER_FULL full lost),
    if lost != 0 then 2 else bit01 ign)

/-! ### Reads (R7, R9, R429, R430) -/

/-- The second words of the latched pairs (R430). -/
def isSecond (a : Nat) : Bool :=
  match placeOf a with
  | .global a => a == A.TICK_COUNT_HI
  | .chanReg _ o => o == 0xe || o == 0x1e || o == 0x28
  | _ => false

/-- What a host's latch holds. -/
def State.latched2 (s : State) (h : Side) (a : Nat) : Word :=
  Tab.get resetWord (match h with | .a => s.latA | .b => s.latB) a

/-- RC fields return and clear (R429). -/
def State.readClear (s : State) (a : Nat) : State × Word :=
  let v := s.timedView a (s.rd a)
  let m := (regInfo a).rc
  (if v &&& m = 0 then s else s.wr a (s.rd a &&& ~~~m), v)

/-- A read of one word by a host at a CORE cycle; a word of the battery store as it stands (R355). -/
def State.readWord (s : State) (h : Side) (cyc a : Nat) : State × Word :=
  if isSecond a then (s, s.latched2 h a)
  else match placeOf a with
  | .none => (s, 0)
  | .vmem .. => (s, s.memRd a)
  | .resp .. => (s, s.memRd a)
  | .capt e o => (s, s.captRead e o)
  | .store i => (s, s.bsRd i)
  | .global 0x20 => s.readCount h cyc
  | .global 0x63 => s.nvmData none
  | .chanReg c 0xd => s.popEdge c h
  | .chanReg c 0x1d => (s.latch h (A.CH_VIGIL_TS_HI c) (s.ch c).vTs1, s.rd a)
  | .chanReg c 0x27 => (s.readPmuRes c h, s.rd a)
  | _ => s.readClear a

/-! ### WREG (R150, R151) -/

/-- WREG_COMMIT: the writes of an admitted line reach CORE together, and line L + 2 starts at the boundary at which they take
effect. Those of `CH_MODE` that the ledger has admitted are not replaced (R78). -/
def State.wregCommit (s : State) (b : Nat) : State :=
  let k := s.bk b
  match k.wait with
  | .wreg (some c) =>
    if !k.wregReady || decide (s.now < c) then s
    else
      let s := (s.wregWrites b k.line).foldl (fun s p => s.writeReg p.1 ⟨.seq b, p.2, 0⟩) s
      let mine (t : Staged) : Bool := t.due == s.now + 1 && t.who == .seq b
        && (match t.eff.reg with | some a => k.wregAdm.contains a | none => false)
      (s.updStaged (fun l => l.map (fun t => if mine t then { t with adm := true } else t))).updBk b (fun k => { k with
        wait := .target ((k.line + 2) % 2 ^ 18) (some (s.now + 1)), wregAsked := false, wregReady := false, wregAdm := [] })
  | _ => s

/-! ### The commands -/

/-- REGISTER_WRITE (R6, R7, R9, R427): a write of the given address by the given writer. -/
def execRegisterWrite (addr : Nat) (w : Wr) (s : State) : Host.Outcome State Fault Refusal := .next (s.writeReg addr w)

/-- POWER_CAP_WRITE (R40): it takes effect at the boundary of R46. -/
def execPowerCapWrite (w : Wr) (s : State) : Host.Outcome State Fault Refusal := .next (s.writeAt A.POWER_CAP w)

/-- POWER_DIE_CAP_WRITE (R33, R40). -/
def execPowerDieCapWrite (half : Fin 2) (w : Wr) (s : State) : Host.Outcome State Fault Refusal :=
  .next (s.writeAt (A.POWER_DIE_CAP half) w)

/-- HELD_BACK_ENQUEUE (R49). -/
def execHeldBackEnqueue (s : State) : Host.Outcome State Fault Refusal := .next s.placeHeld

/-- LEDGER_REQUEST_AGED (R36). -/
def execLedgerRequestAged (id : Nat) (s : State) : Host.Outcome State Fault Refusal := .next (s.ageRequest id)

/-- WREG_COMMIT (R151). -/
def execWregCommit (b : Fin 12) (s : State) : Host.Outcome State Fault Refusal := .next (s.wregCommit b)

/-- RING_ERR_READ (R429): SYM_ERR, CRC_ERR and TTL_DROP clear together. -/
def execRingErrRead (inp : Side) (s : State) : Host.Outcome State Fault Refusal :=
  .next (s.wr (match inp with | .a => A.RING_ERR_A | .b => A.RING_ERR_B) 0)

end Sys2Proof.Machine
end

