-- ==== Sys2Proof/Machine/Ring.lean ====
section
/-! DEFINITION. The Kelay ring (R382 to R408): packets, their arrival and forwarding, the requests of the hosts, timed writes,
interrupts and notices, enumeration, inputs and wrap-around. -/

namespace Sys2Proof.Machine

/-! ### Packets (R390, R392, R394) -/

/-- One bit into the CRC-16 of R390. -/
def crc16Bit (r : Nat) (b : Bool) : Nat :=
  let t := r * 2 % 2 ^ 16
  if r.testBit 15 != b then t ^^^ 0x1021 else t

/-- The CRC-16 of a list of words, bit 35 first. -/
def crc16 (ws : List Word) : Nat := ((ws.map (fun w => bitsDown w 36 0)).flatten).foldl crc16Bit (2 ^ 16 - 1)

/-- Header word H0 (R390). -/
def pktH0 (p : Pkt) : Word :=
  BitVec.ofNat 36 (p.ptype * 2 ^ 32 + p.dst * 2 ^ 26 + p.dsth * 2 ^ 24 + p.src * 2 ^ 18 + p.srch * 2 ^ 16 + p.tag * 2 ^ 8
    + bit01 p.timed * 2 ^ 7 + p.payload.length)

/-- The ring bit of H1. -/
def sideBit : Side → Nat
  | .a => 0
  | .b => 1

/-- Header word H1 with TTL taken as 0 (R390). -/
def pktH1 (p : Pkt) : Word := BitVec.ofNat 36 (sideBit p.ring * 2 ^ 28 + p.addr % 2 ^ 28)

/-- The CRC that a packet should carry. -/
def pktCrc (p : Pkt) : Nat := crc16 (pktH0 p :: pktH1 p :: p.payload)

/-- A packet with its CRC computed anew. -/
def pktSeal (p : Pkt) : Pkt := { p with crc := pktCrc p }

/-- The packet is bad (R394). -/
def pktBad (p : Pkt) : Bool := p.bad || p.viol || p.crc != pktCrc p

/-- The payload behind the AT word. -/
def pktArgs (p : Pkt) : List Word := p.payload.drop (bit01 p.timed)

/-- COUNT of a READ. -/
def pktCount (p : Pkt) : Nat := (Fld.mk 0 6).get ((pktArgs p).headD 0)

/-- Packet types (R392). -/
def ptRead : Nat := 1
@[inherit_doc ptRead] def ptWrite : Nat := 2
@[inherit_doc ptRead] def ptWriteNr : Nat := 3
@[inherit_doc ptRead] def ptResponse : Nat := 4
@[inherit_doc ptRead] def ptCommand : Nat := 5
@[inherit_doc ptRead] def ptInterrupt : Nat := 6
@[inherit_doc ptRead] def ptNotice : Nat := 7
@[inherit_doc ptRead] def ptEnum : Nat := 8

/-- Broadcast (R390). -/
def pktBroadcast (p : Pkt) : Bool := p.dst == 63 && p.dsth == 0

/-- The packet is malformed (R392). -/
def pktMalformed (p : Pkt) : Bool :=
  let n := (pktArgs p).length
  let lenOk :=
    if p.ptype = ptRead then n == 1 && decide (1 ≤ pktCount p) && decide (pktCount p ≤ 32) && !pktBroadcast p
    else if p.ptype = ptWrite then decide (1 ≤ n) && decide (n ≤ 32) && !pktBroadcast p
    else if p.ptype = ptWriteNr then decide (1 ≤ n) && decide (n ≤ 32)
    else if p.ptype = ptResponse then decide (p.payload.length ≤ 32)
    else if p.ptype = ptCommand then n == 1
    else if p.ptype = ptInterrupt ∨ p.ptype = ptNotice then p.payload.length == 4
    else if p.ptype = ptEnum then p.payload.length == 1
    else false
  !lenOk || p.dsth == 3 || p.srch == 3

/-! ### This unit on the ring -/

/-- The error register of an input. -/
def ringErr : Side → Nat
  | .a => A.RING_ERR_A
  | .b => A.RING_ERR_B

/-- One of the three counts of an input raised. -/
def State.ringCount (s : State) (inp : Side) (f : Fld) : State := s.inc (ringErr inp) f 1

/-- The unit has an address (R399). -/
def State.assigned (s : State) : Bool := s.fon A.UNIT_ADDR F.UNIT_ADDR.VALID

/-- The unit's address in force. -/
def State.ringAddr (s : State) : Nat := s.fget A.UNIT_ADDR F.UNIT_ADDR.ADDR

/-- An address takes effect (R400). -/
def State.setAddr (s : State) (c : Nat) : State :=
  (s.wr A.UNIT_ADDR (F.UNIT_ADDR.VALID.put (F.UNIT_ADDR.ADDR.put 0 c) 1)).updRing (fun r => { r with newAddr := none })

/-- One of the sides is wrapped (R402). -/
def State.wrapped (s : State) : Bool :=
  s.fon A.RING_STATUS F.RING_STATUS.WRAP_HI || s.fon A.RING_STATUS F.RING_STATUS.WRAP_LO

/-- What leaves on a ring direction goes out on that output, or around the wrap on the other one (R402). -/
def State.emit (s : State) (dir : Side) (p : Pkt) : State :=
  let out : Side := match dir with
    | .a => if s.fon A.RING_STATUS F.RING_STATUS.WRAP_HI then .b else .a
    | .b => if s.fon A.RING_STATUS F.RING_STATUS.WRAP_LO then .a else .b
  s.updRing (fun r => match out with
    | .a => { r with lastA := some p }
    | .b => { r with lastB := some p })

/-- Own packets waiting for a host. -/
def State.outQ (s : State) : Side → List Pkt
  | .a => s.ring.outA
  | .b => s.ring.outB

/-- The own packets of a host replaced. -/
def State.setOut (s : State) (h : Side) (l : List Pkt) : State :=
  s.updRing (fun r => match h with
    | .a => { r with outA := l }
    | .b => { r with outB := l })

/-- The ring that reaches a host: ring B for host A, ring A for host B (R383). -/
def ringTo : Side → Side
  | .a => .b
  | .b => .a

/-- An own packet to a host (R390, R395, R398). -/
def State.ownPkt (s : State) (h : Side) (ptype tag addr status : Nat) (ws : List Word) : Pkt :=
  pktSeal { ptype, dst := 0, dsth := (match h with | .a => 1 | .b => 2), src := s.ringAddr, srch := 0, tag, timed := false, ttl := 127
            ring := ringTo h, addr, payload := ws, bad := false, status, crc := 0, viol := false }

/-- A RESPONSE waits to be sent (R395). -/
def State.respond (s : State) (h : Side) (p : Pkt) (status : Nat) (ws : List Word) : State :=
  s.setOut h (s.outQ h ++ [s.ownPkt h ptResponse p.tag p.addr status ws])

/-! ### Requests (R395 to R397) -/

/-- The requests held for a host. -/
def State.requests (s : State) : Side → List Pkt
  | .a => s.ring.rqA
  | .b => s.ring.rqB

/-- What has been done of the request at the head. -/
def State.serving (s : State) : Side → Serve
  | .a => s.ring.srvA
  | .b => s.ring.srvB

/-- The requests of a host and the progress of the first replaced. -/
def State.setRequests (s : State) (h : Side) (l : List Pkt) (k : Serve) : State :=
  s.updRing (fun r => match h with
    | .a => { r with rqA := l, srvA := k }
    | .b => { r with rqB := l, srvB := k })

/-- Words that a request reads or writes. -/
def pktOps (p : Pkt) : Nat :=
  if p.ptype = ptRead then pktCount p else if p.ptype = ptCommand then 0 else (pktArgs p).length

/-- The address of word `i` of a request. -/
def pktAddr (p : Pkt) (i : Nat) : Nat :=
  if p.ptype = ptRead ∧ (Fld.mk 6 1).on ((pktArgs p).headD 0) then p.addr % 2 ^ 28 else (p.addr + i) % 2 ^ 28

/-- A write packet. -/
def pktWrites (p : Pkt) : Bool := p.ptype == ptWrite || p.ptype == ptWriteNr

/-- The next word of the first request of a host is a word of the battery store: it waits for the store port (R355). -/
def State.storeNext (s : State) (h : Side) : Option Nat :=
  match s.requests h with
  | [] => none
  | p :: _ =>
    let i := (s.serving h).words.length
    if (pktWrites p && p.timed) || decide (pktOps p ≤ i) then none
    else match placeOf (pktAddr p i) with
      | .store w => some w
      | _ => none

/-- One word of the first request done, with the word and the STATUS that it gives. -/
def State.wordDone (s : State) (h : Side) (w : Word) (status : Nat) : State :=
  s.setRequests h (s.requests h)
    { words := (s.serving h).words ++ [w], status := max (s.serving h).status status }

/-- Ticks from the current count to AT, modulo 2^36. -/
def State.ticksTo (s : State) (at_ : Nat) : Nat := (at_ + 2 ^ 36 - s.clk.count % 2 ^ 36) % 2 ^ 36

/-- A timed write comes too late (R396). -/
def State.timedLate (s : State) (at_ cyc : Nat) : Bool :=
  let d := s.ticksTo at_
  decide (2 ^ 35 ≤ d) || d == 0 || (d == 1 && decide (Config.lastWriteCycle < cyc))

/-- `RING_STATUS.TQ_LEVEL` follows the held timed writes. -/
def State.showTimed (s : State) : State := s.fset A.RING_STATUS F.RING_STATUS.TQ_LEVEL s.ring.timed.length

/-- A timed write is held, or refused for want of room (R396): the STATUS of a WRITE. -/
def State.holdTimed (s : State) (h : Side) (p : Pkt) (at_ : Nat) : State × Nat :=
  if Config.timedDepth ≤ s.ring.timed.length then
    (s.cond (p.ptype == ptWriteNr) (fun s => s.raiseF A.RING_STATUS F.RING_STATUS.AT_OVF), 4)
  else
    let ign := ((pktArgs p).zipIdx).any (fun x => s.writeIgnored (pktAddr p x.2) x.1)
    ((s.updRing (fun r => { r with
      timed := r.timed ++ [{ at_, addr := p.addr % 2 ^ 28, words := pktArgs p, h }] })).showTimed, bit01 ign)

/-- An untimed write of an AT register reaches CORE after a timed one that is due at the same boundary: the timed word leaves
no trace (R7, R407). -/
def State.displaceTimed (s : State) (cyc a : Nat) : State :=
  if (regInfo a).atM = 0 then s
  else s.updRing (fun r => { r with timed := r.timed.map (fun t =>
    if s.ticksTo t.at_ = s.dueAt cyc - s.now ∧ t.addr ≤ a ∧ a < t.addr + t.words.length then
      { t with lost := (a - t.addr) :: t.lost }
    else t) })

/-- One step of service for a host: a word, or the end of the first request; none where nothing is held or the next word
waits for the store. -/
def State.serveStep (s : State) (h : Side) (cyc : Nat) : Option State :=
  match s.requests h with
  | [] => none
  | p :: rest =>
    let k := s.serving h
    let i := k.words.length
    let at_ := (p.payload.headD 0).toNat
    if pktWrites p && p.timed then
      if s.timedLate at_ cyc then
        some ((s.raiseF A.RING_STATUS F.RING_STATUS.AT_LATE).setRequests h
          ({ p with timed := false, payload := pktArgs p } :: rest) k)
      else
        let (s, status) := (s.setRequests h rest {}).holdTimed h p at_
        some (s.cond (p.ptype == ptWrite) (fun s => s.respond h p status []))
    else if p.ptype = ptCommand then
      some ((s.setRequests h rest {}).ringCommand ((Fld.mk 0 4).get ((pktArgs p).headD 0))
        (if p.timed then some at_ else none) cyc)
    else if i < pktOps p then
      if (s.storeNext h).isSome then none
      else if p.ptype = ptRead then
        let (s, w) := s.readWord h cyc (pktAddr p i)
        some (s.wordDone h w 0)
      else
        let w := (pktArgs p).getD i 0
        let (s, st) := s.hostWrite h cyc (pktAddr p i) w
        some ((s.cond (st == 0) (fun s => s.displaceTimed cyc (pktAddr p i))).wordDone h w st)
    else
      let s := s.setRequests h rest {}
      some (if p.ptype = ptRead then s.respond h p k.status k.words
        else s.cond (p.ptype == ptWrite) (fun s => s.respond h p k.status []))

/-- Service goes on as long as it can. -/
def State.serve (h : Side) (cyc : Nat) : Nat → State → State
  | 0, s => s
  | n + 1, s => match s.serveStep h cyc with
    | some s => State.serve h cyc n s
    | none => s

/-- Steps that serve everything a host may hold: 16 requests of up to 32 words, each with its end and a late AT. -/
def serveFuel : Nat := 16 * 34

/-- A request for this unit reaches CORE (R395): it is queued and served in order, or finds the queue full. -/
def State.takeRequest (s : State) (p : Pkt) (cyc : Nat) : State :=
  let h : Side := if p.srch = 1 then .a else .b
  if p.srch ≠ 1 ∧ p.srch ≠ 2 then s
  else if Config.requestDepth ≤ (s.requests h).length then
    (s.raiseF A.RING_STATUS F.RING_STATUS.RQ_OVF).cond (p.ptype == ptRead || p.ptype == ptWrite) (fun s =>
      s.respond h p 3 [])
  else State.serve h cyc serveFuel (s.setRequests h (s.requests h ++ [p]) (s.serving h))

/-- Before phase 3: host accesses that wait ask for the store port, once the store is ready (R282, R355). -/
def State.storeAsk (s : State) : State :=
  [Side.a, Side.b].foldl (fun s h =>
    let tag := classIndex (.host h)
    s.cond ((s.storeNext h).isSome && s.fon A.BS_STATUS F.BS_STATUS.READY
        && !s.rt.arbs.any (fun a => a.res == .store && a.cls == .host && a.tag == tag)) (fun s =>
      s.arbRequest .store .host tag (.host h) s.now tag)) s

/-- A held timed write whose window has come (R396): its words take effect at the tick instant with count AT. -/
def State.timedDue (s : State) (at_ : Nat) : State :=
  match s.ring.timed.find? (fun t => t.at_ == at_) with
  | none => s
  | some t =>
    if s.ticksTo at_ ≠ 1 then s
    else
      let s := (s.updRing (fun r => { r with timed := r.timed.erase t })).showTimed
      (t.words.zipIdx.filter (fun p => !t.lost.contains p.2)).foldl (fun s p => s.writeReg ((t.addr + p.2) % 2 ^ 28) ⟨.host t.h, p.1, 0⟩) s

/-! ### Enumeration (R399 to R401) -/

/-- Fields of an ENUM payload word. -/
def enMode : Fld := ⟨15, 1⟩
@[inherit_doc enMode] def enOvf : Fld := ⟨14, 1⟩
@[inherit_doc enMode] def enConflict : Fld := ⟨13, 1⟩
@[inherit_doc enMode] def enGap : Fld := ⟨12, 1⟩
@[inherit_doc enMode] def enCount : Fld := ⟨0, 6⟩

/-- The address that an ENUM found or gave last. -/
def State.enumAddr (s : State) : Nat := s.ring.newAddr.getD s.ringAddr

/-- A given address: it takes effect in the next window (R400), at once while no tick runs. -/
def State.giveAddr (s : State) (c : Nat) : State :=
  let w := s.bsRd bsAddr
  let own := s.enumAddr
  let s := s.raiseIf (fldAddrValid.on w && fldAddr.get w != c) A.RING_STATUS F.RING_STATUS.PREF_MISMATCH
  let s := s.raiseIf (own != 0 && own != c) A.RING_STATUS F.RING_STATUS.ADDR_CHANGED
  let s := if s.clk.running then s.updRing (fun r => { r with newAddr := some c }) else s.setAddr c
  s.enumerated

/-- The unit acts on an ENUM (R399): its state, and the payload word that it forwards. -/
def State.actEnum (s : State) (w : Word) : State × Word :=
  let c := enCount.get w
  let own := s.enumAddr
  if c = 0 then (s, w)
  else if c = 63 then (s.raiseF A.RING_STATUS F.RING_STATUS.ENUM_OVF, enOvf.put w 1)
  else if !enMode.on w || own = 0 then (s.giveAddr c, enCount.put w (c + 1))
  else
    let (s, w) := if own < c then (s.raiseF A.RING_STATUS F.RING_STATUS.ENUM_CONFLICT, enConflict.put w 1) else (s, w)
    let (s, w) := if c < own then (s.raiseF A.RING_STATUS F.RING_STATUS.ENUM_GAP, enGap.put w 1) else (s, w)
    (s, enCount.put w (own + 1))

/-! ### Arrival (R391 to R394, R403) -/

/-- The packet goes on (R391, R394): TTL is decremented, and a packet first found bad here is marked and counted. A unit that
has not sent READY forwards nothing (R405). -/
def State.forward (s : State) (inp : Side) (p : Pkt) : State :=
  if !s.ring.ready then s
  else
    let bad := pktBad p
    (s.cond (bad && !p.bad) (fun s => s.ringCount inp F.RING_ERR_A.CRC_ERR)).emit inp { p with ttl := p.ttl - 1, bad := bad }

/-- A packet that this unit consumes (R392, R394). -/
def State.consume (s : State) (inp : Side) (p : Pkt) (cyc : Nat) : State :=
  if p.bad then s
  else if pktMalformed p || pktBad p then s.ringCount inp F.RING_ERR_A.CRC_ERR
  else if p.ptype = ptRead ∨ p.ptype = ptWrite ∨ p.ptype = ptWriteNr ∨ p.ptype = ptCommand then s.takeRequest p cyc
  else s

/-- A broadcast packet in its direction of arrival (R393, R399): copied, and forwarded; an ENUM goes on rewritten. -/
def State.copyPkt (s : State) (inp : Side) (p : Pkt) (cyc : Nat) : State :=
  if pktBad p then s.forward inp p
  else if pktMalformed p then (s.ringCount inp F.RING_ERR_A.CRC_ERR).forward inp p
  else if p.ptype = ptWriteNr ∨ p.ptype = ptCommand then (s.forward inp p).takeRequest p cyc
  else if p.ptype = ptEnum ∧ p.ring = .a then
    let (t, w) := s.actEnum (p.payload.headD 0)
    t.forward inp (pktSeal { p with payload := [w] })
  else s.forward inp p

/-- A packet arrives on an input: removed, consumed, copied or forwarded. One with TTL 0 is discarded by an unassigned unit
too (assumption 75). -/
def State.arrive (s : State) (inp : Side) (p : Pkt) (cyc : Nat) : State :=
  if !s.unit.ringOut then s
  else
    let s := s.cond p.viol (fun s => s.ringCount inp F.RING_ERR_A.SYM_ERR)
    let here := s.wrapped || inp == p.ring
    if p.ttl = 0 then s.ringCount inp F.RING_ERR_A.TTL_DROP
    else if s.assigned && p.srch == 0 && p.src == s.ringAddr && here then
      s.cond (!pktBroadcast p) (fun s => s.raiseF A.RING_STATUS F.RING_STATUS.UNDELIV)
    else if s.assigned && p.dsth == 0 && p.dst == s.ringAddr then s.consume inp p cyc
    else if pktBroadcast p && here then s.copyPkt inp p cyc
    else s.forward inp p

/-! ### Own packets (R391, R398) -/

/-- A router packet built for a host (R398). -/
def State.notePkt (s : State) (h : Side) (tag : Nat) (k : Note) : Pkt :=
  s.ownPkt h (if k.intr then ptInterrupt else ptNotice) tag 0 0
    [BitVec.ofNat 36 (k.idx % 128), k.st.word0, k.st.word1, k.info]

/-- The note is still to be sent to a host. -/
def noteFor (h : Side) (k : Note) : Bool :=
  match h with
  | .a => k.toA
  | .b => k.toB

/-- The first note that a predicate accepts, replaced. -/
def replaceFirst (p : Note → Bool) (f : Note → Note) : List Note → List Note
  | [] => []
  | k :: t => if p k then f k :: t else k :: replaceFirst p f t

/-- The notes after the first one for a host has been sent to it; a note sent to all its hosts leaves the queue. -/
def sentNotes (h : Side) (l : List Note) : List Note :=
  (replaceFirst (noteFor h) (fun k => match h with
    | .a => { k with toA := false }
    | .b => { k with toB := false }) l).filter (fun k => k.toA || k.toB)

/-- PACKET_SEND (R391, R398): the oldest response for the host, else the oldest interrupt or notice. An unassigned unit sends
none. -/
def State.sendPacket (s : State) (h : Side) : State :=
  if !s.assigned || !s.unit.ringOut || !s.ring.ready then s
  else match s.outQ h with
    | p :: rest => (s.setOut h rest).emit (ringTo h) p
    | [] => match s.rt.notes.find? (noteFor h) with
      | none => s
      | some k =>
        let tag := match h with | .a => s.ring.tagA | .b => s.ring.tagB
        let s := (s.emit (ringTo h) (s.notePkt h tag k)).updRt (fun r => { r with notes := sentNotes h r.notes })
        s.updRing (fun r => match h with
          | .a => { r with tagA := (r.tagA + 1) % 256 }
          | .b => { r with tagB := (r.tagB + 1) % 256 })

/-! ### Inputs, ALIVE and wrap-around (R387, R388, R402 to R405) -/

/-- The lock bit of an input. -/
def lockFld : Side → Fld
  | .a => F.CLK_STATUS.LINK_A_LOCK
  | .b => F.CLK_STATUS.LINK_B_LOCK

/-- The up bit of an input. -/
def upFld : Side → Fld
  | .a => F.RING_STATUS.IN_A_UP
  | .b => F.RING_STATUS.IN_B_UP

/-- The wrap that a missing input makes: RB_IN down wraps the ring A output side. -/
def wrapFld : Side → Fld
  | .a => F.RING_STATUS.WRAP_LO
  | .b => F.RING_STATUS.WRAP_HI

/-- An ALIVE has arrived on the input within the last 1 ms. -/
def State.isFresh (s : State) : Side → Bool
  | .a => s.ring.freshA
  | .b => s.ring.freshB

/-- Freshness and READY of an input. -/
def State.setFresh (s : State) (inp : Side) (fresh ready : Bool) : State :=
  s.updRing (fun r => match inp with
    | .a => { r with freshA := fresh, readyA := ready }
    | .b => { r with freshB := fresh, readyB := ready })

/-- READY of the last ALIVE on an input. -/
def State.lastReady (s : State) : Side → Bool
  | .a => s.ring.readyA
  | .b => s.ring.readyB

/-- The input is up (R402). -/
def State.showInput (s : State) (inp : Side) : State :=
  s.fbit A.RING_STATUS (upFld inp) (s.fon A.CLK_STATUS (lockFld inp) && s.isFresh inp)

/-- ALIVE (R388, R402): it counts whatever its sender. -/
def State.aliveIn (s : State) (inp : Side) (ready : Bool) : State :=
  if !s.fon A.CLK_STATUS (lockFld inp) then s else (s.setFresh inp true ready).showInput inp

/-- INPUT_DOWN (R402): the unit wraps the input's side. -/
def State.inputDown (s : State) (inp : Side) : State :=
  let s := (s.setFresh inp false (s.lastReady inp)).showInput inp
  if s.fon A.RING_STATUS (wrapFld inp) then s
  else (s.fset A.RING_STATUS (wrapFld inp) 1).raiseF A.RING_STATUS F.RING_STATUS.WRAP_EV

/-- UNWRAP (R405): the input is up and its last ALIVE carried READY. -/
def State.unwrapSide (s : State) (inp : Side) : State :=
  s.cond (s.fon A.RING_STATUS (upFld inp) && s.lastReady inp) (fun s => s.fset A.RING_STATUS (wrapFld inp) 0)

/-! ### The commands -/

/-- READ (R392 to R395). -/
def execRead (inp : Side) (p : Pkt) (cyc : Nat) (s : State) : Host.Outcome State Fault Refusal :=
  if p.ptype = ptRead then .next (s.arrive inp p cyc) else ok s

/-- WRITE (R392 to R396). -/
def execWrite (inp : Side) (p : Pkt) (cyc : Nat) (s : State) : Host.Outcome State Fault Refusal :=
  if p.ptype = ptWrite then .next (s.arrive inp p cyc) else ok s

/-- WRITE_NR (R392 to R397). -/
def execWriteNr (inp : Side) (p : Pkt) (cyc : Nat) (s : State) : Host.Outcome State Fault Refusal :=
  if p.ptype = ptWriteNr then .next (s.arrive inp p cyc) else ok s

/-- COMMAND (R275, R392 to R396). -/
def execCommand (inp : Side) (p : Pkt) (cyc : Nat) (s : State) : Host.Outcome State Fault Refusal :=
  if p.ptype = ptCommand then .next (s.arrive inp p cyc) else ok s

/-- ENUM (R399 to R401). -/
def execEnum (inp : Side) (p : Pkt) (s : State) : Host.Outcome State Fault Refusal :=
  if p.ptype = ptEnum then .next (s.arrive inp p 0) else ok s

/-- TRANSIT_PACKET (R391 to R394, R403): a packet that is not for this unit. -/
def execTransitPacket (inp : Side) (p : Pkt) (s : State) : Host.Outcome State Fault Refusal := .next (s.arrive inp p 0)

/-- PACKET_SEND (R391, R398). -/
def execPacketSend (h : Side) (s : State) : Host.Outcome State Fault Refusal := .next (s.sendPacket h)

/-- TIMED_WRITE_DUE (R396). -/
def execTimedWriteDue (at_ : Nat) (s : State) : Host.Outcome State Fault Refusal := .next (s.timedDue at_)

/-- ALIVE (R388, R402, R405). -/
def execAlive (inp : Side) (ready _ : Bool) (_ : Nat) (s : State) : Host.Outcome State Fault Refusal :=
  .next (s.aliveIn inp ready)

/-- ALIVE_SEND (R388, R405): one on each output. -/
def execAliveSend (s : State) : Host.Outcome State Fault Refusal :=
  if !s.unit.ringOut then ok s
  else
    let x := some (s.ring.ready, s.wrapped, s.ringAddr)
    .next (s.updRing (fun r => { r with aliveA := x, aliveB := x }))

/-- WORD_ALIGNMENT (R387). -/
def execWordAlignment (inp : Side) (s : State) : Host.Outcome State Fault Refusal :=
  .next ((s.fset A.CLK_STATUS (lockFld inp) 1).showInput inp)

/-- ALIGNMENT_LOSS (R387, R402): the violation that takes the alignment is counted. -/
def execAlignmentLoss (inp : Side) (s : State) : Host.Outcome State Fault Refusal :=
  .next (((s.ringCount inp F.RING_ERR_A.SYM_ERR).fset A.CLK_STATUS (lockFld inp) 0).showInput inp)

/-- INPUT_DOWN (R402, R404). -/
def execInputDown (inp : Side) (s : State) : Host.Outcome State Fault Refusal := .next (s.inputDown inp)

/-- UNWRAP (R405). -/
def execUnwrap (inp : Side) (s : State) : Host.Outcome State Fault Refusal := .next (s.unwrapSide inp)

/-- STORE_WINDOW_READ (R355): a host's read of a store word. The request of the host that holds the port goes on with it. -/
def execStoreWindowRead (h : Side) (i : Fin 65536) (s : State) : Host.Outcome State Fault Refusal :=
  if !s.fon A.BS_STATUS F.BS_STATUS.READY then ok s
  else match s.requests h with
    | [] => ok s
    | p :: _ =>
      if s.ring.port == some h && s.storeNext h == some i.val && p.ptype == ptRead then
        .next (State.serve h 0 serveFuel ((s.updRing (fun r => { r with port := none })).wordDone h (s.bsRd i) 0))
      else ok s

/-- STORE_WINDOW_WRITE (R352, R355): a host's write of a store word. The request of the host that holds the port goes on with
it. -/
def execStoreWindowWrite (i : Fin 65536) (val : Word) (s : State) : Host.Outcome State Fault Refusal :=
  if !s.fon A.BS_STATUS F.BS_STATUS.READY then ok s
  else
    let (t, ign) := s.storeWrite i val
    match s.ring.port with
    | none => .next t
    | some h => match s.requests h with
      | [] => .next t
      | p :: _ =>
        if s.storeNext h == some i.val && pktWrites p && (pktArgs p).getD (s.serving h).words.length 0 == val then
          .next (State.serve h 0 serveFuel ((t.updRing (fun r => { r with port := none })).wordDone h val (bit01 ign)))
        else .next t

end Sys2Proof.Machine
end

