-- ==== Sys2Proof/Machine/Boundary.lean ====
section
/-! DEFINITION. The tick boundary (R45): what was staged in the window that ends takes effect, in one fixed order, and the
dies take their step of the tick that begins. -/

namespace Sys2Proof.Machine

/-! ### Taking what is due -/

/-- The staged effects due by now that `p` accepts, in order. Each leaves the list before it acts, so that one of them may
withdraw another. -/
def State.takeDue (s : State) (p : Staged → Bool) (f : State → Staged → State) : State :=
  (s.staged.filter (fun t => decide (t.due ≤ s.now) && p t)).foldl
    (fun s t => if s.staged.contains t then f (s.updStaged (fun l => l.erase t)) t else s) s

/-- Those that `p` accepts are withdrawn. -/
def State.dropDue (s : State) (p : Eff → Bool) : State :=
  s.updStaged (fun l => l.filter (fun t => !(decide (t.due ≤ s.now) && p t.eff)))

/-- One of them is due. -/
def State.anyDue (s : State) (p : Eff → Bool) : Bool := s.staged.any (fun t => decide (t.due ≤ s.now) && p t.eff)

/-! ### The tick that begins (R43, R54, R64, R389) -/

/-- The count and the clocks of the tick, and what belonged to the tick that ended. -/
def State.clockStep (s : State) : State :=
  let s := s.seasonWait.countHeld
  let meas := s.fon A.EPACT_CTL F.EPACT_CTL.BUSY && s.clk.measLeft != 0
  let count := s.clk.adoptTo.getD ((s.clk.count + 1) % 2 ^ 48)
  let s := s.updRt (fun r => { r with
    flagsPrev := (List.range 12).map (fun b => (b, s.eget (A.SEQ_FLAGS b) F.SEQ_FLAGS.F)), laneHold := 0
    -- a lane that the calibration engine holds stays asserted (R278)
    laneReq := r.grants.foldl (fun m g => match g with | (.lane k, .cal) => m ||| 2 ^ k | _ => m) 0 })
  let loc := s.isLocal
  let s := s.updClk (fun c => { c with
    seq := c.seq + 1, count, adoptTo := none, start := c.start + c.tickLen, prevLen := c.tickLen, prevCount := c.count
    prevLocal := loc, tickLen := Config.tickFine, measLeft := if meas then c.measLeft - 1 else c.measLeft })
  let s := s.updRing (fun r => { r with marker := if meas then some (count % 2 ^ 16) else none })
  let s := s.updSea (fun k => { k with due := 0, len := k.len + 1 })
  let s := s.updUnit (fun u => { u with
    retries := List.replicate 7 0, runTicks := if u.st == .running then u.runTicks + 1 else u.runTicks })
  (s.updLed (fun l => { l with heldCounted := false })).countHeld

/-- The engines' part of the tick that ended: samples and records, dead time, and the trigger conditions (R241, R248, R252). -/
def State.aeEndTick (s : State) (inp : BoundaryIn) : State := s.upTo 24 (fun s e => s.aeEndOne inp.samples e)

/-! ### What is due -/

/-- W1C bits that clear at a boundary (R83, R279, R416); a bit that an event set in the window that ended stays (R428). -/
def State.clearsDue (s : State) : State :=
  let s := s.takeDue (fun t => match t.eff with | .clear _ _ => true | _ => false) (fun s t => match t.eff with
    | .clear a m =>
      if a = A.FAULT_STATUS then s.clearFaults m
      else match placeOf a with
        | .chanReg c _ => (s.w1c a m).setDrive c
        | _ => s.w1c a m
    | _ => s)
  s.noSetBits

/-- The end of a reload, a season boundary, and deep vigil (R67, R126, R374, R415). -/
def State.stagesDue (s : State) : State :=
  s.takeDue (fun t => match t.eff with | .reloadEnd _ | .season _ | .deep | .deepDown => true | _ => false)
    (fun s t => match t.eff with
      | .reloadEnd x => s.reloadOver x
      | .season m => s.seasonAt m
      | .deep =>
        if s.fon A.CLK_STATUS F.CLK_STATUS.XT32_OK then s.updUnit (fun u => { u with deepReq := true })
        else s.raiseF A.FAULT_STATUS F.FAULT_STATUS.XT32
      | .deepDown => s.deepDown
      | _ => s)

/-- The new value of a register without a rule of its own: its AT and AS fields come into force (R6). -/
def State.forceWord (s : State) (a : Nat) (v : Word) : State :=
  let m := (regInfo a).delayed
  s.setEff a ((s.eff a &&& ~~~m) ||| (v &&& m))

/-- A value of a bank register comes into force; flags have their own order (R154). -/
def State.forceBankReg (s : State) (a b o : Nat) (v : Word) : State :=
  if o = 0xb then s.applyVecPeriod b v
  else if 0x20 ≤ o ∧ o ≤ 0x23 then s.applyResp a b v
  else if o = 0x90 ∨ o = 0x98 then s.applySrcCtl (elemOf b ((o - 0x90) / 8)) v
  else if o = 0x91 ∨ o = 0x99 then s.applySrcCode a (elemOf b ((o - 0x91) / 8)) v
  else if o = 0xa0 ∨ o = 0xd0 then s.applyAeCtl (elemOf b ((o - 0xa0) / 0x30)) v
  else if o = 0xa1 ∨ o = 0xd1 then s.applyAeOfs a (elemOf b ((o - 0xa1) / 0x30)) v
  else s.forceWord a v

/-- A value of a channel register comes into force. -/
def State.forceChanReg (s : State) (mons : List Monitor) (a c o : Nat) (v : Word) : State :=
  if o = 0x4 ∨ o = 0x5 then s.applyThreshold a c v
  else if o = 0x6 then s.applyFilter c v
  else if o = 0xb then (s.setEff a v).refreshTest c
  else if o = 0x18 ∨ o = 0x19 then s.applyVigil a c v
  else if o = 0x20 then s.applyPmuCtl mons c v
  else s.forceWord a v

/-- A value of an RF register comes into force. -/
def State.forceRf (s : State) (a o : Nat) (v : Word) : State :=
  if o < 0x400 ∧ o % 0x80 = 0 then
    (s.setEff a (F.RF_CTL.RL_MIN.put (s.eff a) (F.RF_CTL.RL_MIN.get v))).synSelect (o / 0x80) (F.RF_CTL.SYN.get v)
  else if o < 0x400 ∧ o % 0x80 = 0xc then s.applyRxCtl (o / 0x80) v
  else if 0x400 ≤ o ∧ o < 0x500 ∧ o % 0x80 = 1 then s.synFreq ((o - 0x400) / 0x80) (F.SYN_FREQ.FREQ.get v)
  else s.forceWord a v

/-- A value of any register but `CH_MODE` and `SEQ_FLAGS` comes into force (R6, R46). -/
def State.force (s : State) (mons : List Monitor) (a : Nat) (v : Word) : State :=
  match placeOf a with
  | .bankReg b o => s.forceBankReg a b o v
  | .chanReg c o => s.forceChanReg mons a c o v
  | .router _ => s.applyRouter a v
  | .rf o => s.forceRf a o v
  | _ => s.forceWord a v

/-- `CH_MODE` of a channel, by its address. -/
def modeChan (a : Nat) : Option Nat := match placeOf a with | .chanReg c 0 => some c | _ => none

/-- `SEQ_FLAGS` of a bank, by its address. -/
def flagsBank (a : Nat) : Option Nat := match placeOf a with | .bankReg b 6 => some b | _ => none

/-- The values of AT registers, but for channel functions and flags. -/
def State.forcesDue (s : State) (mons : List Monitor) : State :=
  s.takeDue (fun t => match t.eff with
      | .force a _ => !isSeasonReg a && (modeChan a).isNone && (flagsBank a).isNone
      | _ => false)
    (fun s t => match t.eff with
      | .force a v => s.force mons a v
      | _ => s)

/-- Die faults, error halts and aborts (R17, R156, R158): before any request of a bank's power state (R155). An abort leaves
nothing of a GO or STOP that takes effect with it. -/
def State.haltsDue (s : State) : State :=
  let s := s.takeDue (fun t => match t.eff with | .dieFault _ _ | .errHalt _ _ => true | _ => false)
    (fun s t => match t.eff with
      | .dieFault d c => s.dieFaultNow d c
      | .errHalt b c => s.errHaltNow b c
      | _ => s)
  let s := s.upTo 12 State.errDue
  s.takeDue (fun t => match t.eff with | .abort _ => true | .seq _ _ _ ab _ _ _ => ab | _ => false)
    (fun s t => match t.eff with
      | .abort b | .seq b _ _ _ _ _ _ =>
        (s.dropDue (fun e => match e with | .seq c _ _ _ _ _ _ => c == b | .abort c => c == b | _ => false)).abortNow b
      | _ => s)

/-- Bank power states, then channel functions (R79, R155); a channel that the calibration engine holds keeps a new
`CH_MODE` for its release (R325). -/
def State.modesDue (s : State) (mons : List Monitor) : State :=
  let s := s.takeDue (fun t => match t.eff with | .bank _ _ => true | _ => false)
    (fun s t => match t.eff with | .bank b req => s.applyBank b req | _ => s)
  let s := s.upTo 6 State.pllIdle
  s.takeDue (fun t => match t.eff with | .force a _ => (modeChan a).isSome | _ => false)
    (fun s t => match t.eff with
      | .force a v =>
        let c := (modeChan a).getD 0
        if (s.ch c).held then s.updCh c (fun h => { h with modeWait := some (v, t.who) }) else s.applyMode mons c v
      | _ => s)

/-- STOP and GO of the sequencers: of the two STOP acts (R156). -/
def State.seqDue (s : State) : State :=
  s.takeDue (fun t => match t.eff with | .seq .. => true | _ => false)
    (fun s t => match t.eff with
      | .seq b _ stop _ cond flag addr =>
        let others := s.anyDue (fun e => match e with | .seq c _ st _ _ _ _ => c == b && st | _ => false)
        if stop || others then
          (s.dropDue (fun e => match e with | .seq c _ _ _ _ _ _ => c == b | _ => false)).seqStopNow b
        else s.seqGoNow b cond flag addr
      | _ => s)

/-- What ends at the boundary, and what the ledger has admitted (R195, R211, R234, R294, R297, R301, R304, R310, R325). -/
def State.admitsDue (s : State) : State :=
  let s := s.takeDue (fun t => match t.eff with | .txDrop _ _ | .txStop _ | .txCut _ | .synEnd _ => true | _ => false)
    (fun s t => match t.eff with
      | .txDrop p c => s.txDrop p c
      | .txStop p => s.txStop p
      | .txCut p => s.txCut p s.clk.start
      | .synEnd y => s.synFree y
      | _ => s)
  s.takeDue (fun t => match t.eff with
      | .srcOn _ | .aeOn _ | .rxOn _ | .txAdm _ | .pmcBegin _ | .calHold _ | .calNotRun => true
      | _ => false)
    (fun s t => match t.eff with
      | .srcOn n => s.srcAdmitted n
      | .aeOn e => s.aeAdmitted e
      | .rxOn p => s.rxStart p
      | .txAdm p => s.cond (s.txHeld p) (fun s => s.updPt p (fun k => { k with admitted := true }))
      | .pmcBegin n => s.pmcBegin n
      | .calHold _ => s.calAdmitted
      | .calNotRun => s.calAbort F.CAL_STATUS.NOT_RUN
      | _ => s)

/-- GO and STOP of a converter, playback or engine, or of the calibration run, as one command: of the two STOP acts
(R220, R236, R331). -/
def State.goStop (s : State) (go stop : Bool) (goNow stopNow : State → State) : State :=
  if stop then stopNow s else if go then goNow s else s

/-- Commands written with GO, STOP and POP (R192, R196, R218, R220, R235, R236, R255, R291, R322, R331). A granted
synthesiser calibration begins; a written GO of one is its request. -/
def State.commandsDue (s : State) : State :=
  let s := s.takeDue (fun t => match t.eff with | .pmc .. | .play .. | .ae .. | .pop _ | .synCal _ _ | .synBegin _ => true | _ => false)
    (fun s t => match t.eff with
      | .pmc b k go stop who => s.goStop go stop (fun s => s.pmcGo b k who s.now) (fun s => s.pmcStop b k)
      | .play n go stop => s.goStop go stop (fun s => s.playGo n) (fun s => s.playStop n)
      | .ae e go stop => s.goStop go stop (fun s => s.aeGoNow e) (fun s => s.aeStopNow e)
      | .pop e => s.aePop e
      | .synBegin y => s.synCalBegin y
      | .synCal y h => s.synCalGo y h
      | _ => s)
  let isCal (e : Eff) : Bool := match e with | .cal _ _ => true | _ => false
  let stop := s.anyDue (fun e => match e with | .cal _ st => st | _ => false)
  let go := s.anyDue isCal
  (s.dropDue isCal).goStop go stop State.calGoNow State.calStopNow

/-- Some flags of a bank set and others cleared. -/
def State.setFlags (s : State) (b setM clrM : Nat) : State :=
  let a := A.SEQ_FLAGS b
  s.setEff a ((s.eff a &&& ~~~(BitVec.ofNat 36 clrM)) ||| BitVec.ofNat 36 setM)

/-- The flags in force, formed in the order of R154: a written word names all 16, then REARM, the responder and the
router. -/
def State.flagsDue (s : State) : State :=
  let s := s.takeDue (fun t => match t.eff with | .force a _ => (flagsBank a).isSome | _ => false)
    (fun s t => match t.eff with | .force a v => s.forceWord a v | _ => s)
  [2, 1, 0].foldl (fun s rank =>
    s.takeDue (fun t => match t.eff with | .flags _ _ _ => writerRank t.who == rank | _ => false)
      (fun s t => match t.eff with | .flags b m k => s.setFlags b m k | _ => s)) s

/-- The remaining effects of the router and of the host (R245, R269, R270, R278 to R280), then reload requests and the GO
writes of a reloaded segment (R372 to R374). -/
def State.routerDue (s : State) : State :=
  let s := s.takeDue (fun t => match t.eff with
      | .rirq _ | .wake _ | .lanes _ | .count _ | .notice _ _ _ | .aeTrig _ => true
      | _ => false)
    (fun s t => match t.eff with
      | .rirq m => s.raise A.INT_STATUS (BitVec.ofNat 36 (m * 2 ^ F.INT_STATUS.RIRQ.lo))
      | .wake on => s.toC9 (.wake on)
      | .lanes m => s.updRt (fun r => { r with laneReq := r.laneReq ||| m })
      | .count k => s.inc (A.RT_CNT k) ⟨0, 36⟩ 1
      | .notice n st sel => s.notice n st sel
      | .aeTrig e => s.aeTrigger e
      | _ => s)
  s.takeDue (fun t => match t.eff with | .reload _ | .reloadGo _ => true | _ => false)
    (fun s t => match t.eff with
      | .reload x => s.reloadAt x
      | .reloadGo x => s.goAll (· == x)
      | _ => s)

/-- Everything due at the boundary, in order. -/
def State.applyDue (s : State) (mons : List Monitor) : State :=
  (((((((((s.clearsDue.stagesDue).forcesDue mons).haltsDue).modesDue mons).seqDue).admitsDue).commandsDue).flagsDue).routerDue)

/-! ### The dies at the boundary -/

/-- A miss with MISS_FAULT in the tick that ended (R170): the die makes the bank's pins safe, and CORE is told. -/
def State.missTick (s : State) (b : Nat) : State :=
  if (s.bk b).missNow then
    let s := (s.handEnd b s.clk.start).pinsSafe b
    ((s.raiseF (A.RESP_STAT b) F.RESP_STAT.MISS_FLT).bankFault b 2 0).updBk b (fun k => { k with missNow := false })
  else s

/-- The channel has a driver that can limit its current: it drives, or could, and is not held off (R83). -/
def State.canLimit (s : State) (c : Nat) : Bool :=
  (s.funcEff c == fnPattern || s.funcEff c == fnStatic) && !s.fon (A.CH_STATUS c) F.CH_STATUS.DRV_FAULT

/-- Drivers that limited their current in the tick that ended (R83), and how many ticks in a row each has. -/
def State.driverLimits (s : State) (l : List (Fin 768)) : State :=
  let lim := (l.map Fin.val).filter s.canLimit
  let s := s.each (s.chan.map (·.1)) (fun s c => s.cond ((s.ch c).limTicks != 0 && !lim.contains c)
    (fun s => s.updCh c (fun h => { h with limTicks := 0 })))
  s.each lim (fun s c => (s.raiseF (A.CH_STATUS c) F.CH_STATUS.DRV_LIMIT).updCh c (fun h => { h with limTicks := h.limTicks + 1 }))

/-- The channels: moves out of vigil, forced values, light-vigil samples (R107, R128, R187). -/
def State.chanTick (s : State) (inp : BoundaryIn) : State :=
  let keys := s.chan.map (·.1)
  let s := s.each keys (fun s c => s.leaveVigil inp.monitors c)
  let s := s.each keys (fun s c => s.cond (s.ch c).pmuOn (fun s => s.pmuTick c))
  inp.pins.foldl (fun s p => s.cond (s.funcEff p.1 == fnLight) (fun s => s.vigilSample p.1 p.2 0)) s

/-- The light-vigil samples of channels that were in light vigil before the boundary: the first one of a channel that enters it
is that of the next tick instant (R128). -/
def State.chipsOf (s : State) (inp : BoundaryIn) : BoundaryIn :=
  { inp with pins := inp.pins.filter (fun p => s.funcEff p.1 == fnLight) }

/-- The banks and their elements: entry into ACTIVE, misses, converters, sources, engines and sequencer checks (R141, R153,
R155, R170, R194, R209, R231, R246). -/
def State.bankTick (s : State) : State :=
  let s := ((s.upTo 12 State.pllEntry).upTo 6 State.lockEntry).upTo 12 State.missTick
  let s := s.each (s.pmc.map (·.1)) State.pmcTick
  let s := (s.upTo 24 State.srcTick).upTo 24 State.aeTick
  s.upTo 12 State.seqCheck

/-- `RT_FLAGSb` of every bank. -/
def State.refreshFlags (s : State) : State :=
  s.upTo 12 (fun s b => s.fset (A.RT_FLAGS b) F.RT_FLAGS.F (s.eget (A.SEQ_FLAGS b) F.SEQ_FLAGS.F))

/-- Reports that follow the state of the tick: flags, interrupts, lanes, INT_N and the unit's status (R99, R277, R279). -/
def State.refreshReports (s : State) : State :=
  ((((((s.refreshInfo).refreshFlags).refreshChanInt).refreshLanes).refreshInt).refreshUnit)

/-- A tick boundary while the tick runs (R45). What a boundary's own events set stays clearable in the window it opens. -/
def State.boundary (s : State) (inp : BoundaryIn) : State :=
  if !s.clk.running then s
  else
    let inp := s.chipsOf inp
    let s := (((((s.clockStep).seqTick).driverLimits inp.limits).clampTick inp.monitors).aeEndTick inp).applyDue inp.monitors
    let s := ((s.chanTick inp).bankTick).rfTick inp.rfgnt
    let s := (((s.calApply).calCheck).refreshReports).updLed (fun l => { l with credited := [] })
    s.noSetBits

/-- TICK_BOUNDARY (R45). -/
def execTickBoundary (inp : BoundaryIn) (s : State) : Host.Outcome State Fault Refusal := .next (s.boundary inp)

end Sys2Proof.Machine
end

