-- ==== Sys2Proof/Machine/Window.lean ====
section
/-! DEFINITION. The control window (R44): its seven phases in order, on the events of the tick before. -/

namespace Sys2Proof.Machine

/-- The events of the tick before, which this window evaluates (R24, R44). -/
def State.intake (s : State) : List Ev := s.rt.events.filter (fun e => e.tick + 1 == s.now)

/-- Nothing from the dies and the pins: what CORE knows before the boundary (R35). -/
def State.quiet : BoundaryIn :=
  { rfgnt := false, monitors := [], pins := [], samples := [], limits := [] }

/-- The unit as the effects staged so far and the dies' own steps leave it at the next boundary: what CORE knows of its releases
(R35). -/
def State.foreseen (s : State) : State :=
  let t := (s.updClk (fun c => { c with seq := c.seq + 1, start := c.start + c.tickLen })).updLed
    (fun l => { l with releases := [], credited := [] })
  ((((t.applyDue []).chanTick State.quiet)).bankTick).rfTick s.unit.rfgnt

/-- Phase 1 and what is handled with it: the phase error of the tick, an address given by an enumeration, and faults that
reached CORE (R59, R400, R417). -/
def State.phase1 (s : State) (edge : Option Int) : State :=
  let s := s.phaseMeasure edge
  let s := match s.ring.newAddr with
    | some a => s.setAddr a
    | none => s
  s.recordFaults

/-- Phase 3 with the requests that are made for it (R283, R323, R325, R355). -/
def State.phase3 (s : State) : State := ((((s.storeAsk).calAsk).arbitrate).calRequest)

/-- The requests to the ledger that become due, and phase 4 (R35, R151, R412): the ledger runs only in RUNNING (R41). -/
def State.ledgerPhase (s : State) : State :=
  if s.unit.st != .running then s
  else
    let s := (s.upTo 12 State.wregAsk).upTo 12 State.submitWaiting
    let f := s.foreseen
    (s.credit f.led.releases f.led.committed).phase4

/-- Refusals and rejections of the window, after the season latch (R42). -/
def State.countRefusals (s : State) : State :=
  let l := s.led
  let s := (s.inc A.POWER_REFUSE F.POWER_REFUSE.REFUSED l.winRef).inc A.POWER_REFUSE F.POWER_REFUSE.IMPOSSIBLE l.winImp
  s.updLed (fun l => { l with winRef := 0, winImp := 0 })

/-- Phase 5 (R69, R93 to R96, R114, R255, R258): the statistics with the events of the tick before, then the season latch. -/
def State.phase5 (s : State) (evs : List Ev) : State :=
  let s := s.cond (s.sea.open_ && evs.any (fun e => e.st.loc)) (fun s => s.updSea (fun k => { k with local_ := true }))
  let s := ((s.latchEvents evs).vigilEvents evs).aeEvents evs
  (((s.seasonLatch).countLosses).countRefusals).wakeLevel

/-- The seven phases in order (R44); what they stage is in force at the next boundary (R45). -/
def State.phases (s : State) (inp : WindowIn) : State :=
  let evs := s.intake
  let s := (((s.routerPhase evs).phase3).ledgerPhase).rfWindow inp.rf
  (s.phase5 evs).calPhase

/-- A control window, while the tick runs. -/
def State.window (s : State) (inp : WindowIn) : State :=
  if !s.clk.running then s
  else
    let s := s.phase1 inp.edge
    let s := s.cond s.coreRuns (fun s => s.phases inp)
    s.updRt (fun r => { r with events := r.events.filter (fun e => decide (s.now ≤ e.tick)) })

/-- CONTROL_WINDOW (R44). -/
def execControlWindow (inp : WindowIn) (s : State) : Host.Outcome State Fault Refusal := .next (s.window inp)

end Sys2Proof.Machine
end

