-- ==== Sys2Proof/Machine/Dispatch.lean ====
section
/-! DEFINITION. One arm per command: a direct call of its meaning. -/

namespace Sys2Proof.Machine

def exec (i : Instr) (s : State) : Host.Outcome State Fault Refusal :=
  match i with
  | .vaonRise => Sys2Proof.Machine.execVaonRise s
  | .resetNLow => Sys2Proof.Machine.execResetNLow s
  | .startUp temps trained flash => Sys2Proof.Machine.execStartUp temps trained flash s
  | .enumerationWaitTimeout => Sys2Proof.Machine.execEnumerationWaitTimeout s
  | .firstTickAlignment decoded => Sys2Proof.Machine.execFirstTickAlignment decoded s
  | .freeRunStart => Sys2Proof.Machine.execFreeRunStart s
  | .supplyGood rail => Sys2Proof.Machine.execSupplyGood rail s
  | .mainSupplyFall rail => Sys2Proof.Machine.execMainSupplyFall rail s
  | .dieRailFall rail => Sys2Proof.Machine.execDieRailFall rail s
  | .dieRailRetrain die => Sys2Proof.Machine.execDieRailRetrain die s
  | .watchdog => Sys2Proof.Machine.execWatchdog s
  | .corePllLossOfLock => Sys2Proof.Machine.execCorePllLossOfLock s
  | .convPllLossOfLock die => Sys2Proof.Machine.execConvPllLossOfLock die s
  | .convPllLock die => Sys2Proof.Machine.execConvPllLock die s
  | .flitRetry die => Sys2Proof.Machine.execFlitRetry die s
  | .linkFault die => Sys2Proof.Machine.execLinkFault die s
  | .linkRetrainSuccess die => Sys2Proof.Machine.execLinkRetrainSuccess die s
  | .linkRetrainSet die => Sys2Proof.Machine.execLinkRetrainSet die s
  | .tickBoundary inp => Sys2Proof.Machine.execTickBoundary inp s
  | .controlWindow inp => Sys2Proof.Machine.execControlWindow inp s
  | .heldBackEnqueue => Sys2Proof.Machine.execHeldBackEnqueue s
  | .ledgerRequestAged id => Sys2Proof.Machine.execLedgerRequestAged id s
  | .powerCapWrite w => Sys2Proof.Machine.execPowerCapWrite w s
  | .powerDieCapWrite half w => Sys2Proof.Machine.execPowerDieCapWrite half w s
  | .tickFrame widths => Sys2Proof.Machine.execTickFrame widths s
  | .tickLost => Sys2Proof.Machine.execTickLost s
  | .leapSchedule => Sys2Proof.Machine.execLeapSchedule s
  | .leapTick => Sys2Proof.Machine.execLeapTick s
  | .leapJump w => Sys2Proof.Machine.execLeapJump w s
  | .adopt w => Sys2Proof.Machine.execAdopt w s
  | .epactWrite w => Sys2Proof.Machine.execEpactWrite w s
  | .epactSlewEnd => Sys2Proof.Machine.execEpactSlewEnd s
  | .epactStart => Sys2Proof.Machine.execEpactStart s
  | .marker ring count arrival offset => Sys2Proof.Machine.execMarker ring count arrival offset s
  | .epactMeasurementEnd => Sys2Proof.Machine.execEpactMeasurementEnd s
  | .tickCountLoRead h cyc => Sys2Proof.Machine.execTickCountLoRead h cyc s
  | .seasonBoundaryRequest who cyc => Sys2Proof.Machine.execSeasonBoundaryRequest who cyc s
  | .seasonInterval => Sys2Proof.Machine.execSeasonInterval s
  | .traceabilityRecordWrite readBackOk => Sys2Proof.Machine.execTraceabilityRecordWrite readBackOk s
  | .seasonsCounterWrite readBackOk => Sys2Proof.Machine.execSeasonsCounterWrite readBackOk s
  | .poweredHoursIncrement => Sys2Proof.Machine.execPoweredHoursIncrement s
  | .temperatureSample die t => Sys2Proof.Machine.execTemperatureSample die t s
  | .chModeWrite c w => Sys2Proof.Machine.execChModeWrite c w s
  | .driverFault c => Sys2Proof.Machine.execDriverFault c s
  | .drvFaultClear c cyc => Sys2Proof.Machine.execDrvFaultClear c cyc s
  | .rawCrossing c level fine discarded => Sys2Proof.Machine.execRawCrossing c level fine discarded s
  | .filteredTransition c decision discarded => Sys2Proof.Machine.execFilteredTransition c decision discarded s
  | .chLatchWrite c val => Sys2Proof.Machine.execChLatchWrite c val s
  | .chEdgeLoRead c h => Sys2Proof.Machine.execChEdgeLoRead c h s
  | .chEdgeStatRead c h => Sys2Proof.Machine.execChEdgeStatRead c h s
  | .vigilMatch c level cyc => Sys2Proof.Machine.execVigilMatch c level cyc s
  | .deepMatchToCore c => Sys2Proof.Machine.execDeepMatchToCore c s
  | .c9TransferDone n => Sys2Proof.Machine.execC9TransferDone n s
  | .wakeStatusClear val => Sys2Proof.Machine.execWakeStatusClear val s
  | .enelleMatch unit bcast => Sys2Proof.Machine.execEnelleMatch unit bcast s
  | .deepVigilRequest cyc => Sys2Proof.Machine.execDeepVigilRequest cyc s
  | .deepPendingEntry => Sys2Proof.Machine.execDeepPendingEntry s
  | .deepReadyEntry => Sys2Proof.Machine.execDeepReadyEntry s
  | .wakeFromDeep => Sys2Proof.Machine.execWakeFromDeep s
  | .wakingAlignment decoded => Sys2Proof.Machine.execWakingAlignment decoded s
  | .wakingFrameTimeout => Sys2Proof.Machine.execWakingFrameTimeout s
  | .xt32Failure => Sys2Proof.Machine.execXt32Failure s
  | .vectorMemoryWrite b line w val => Sys2Proof.Machine.execVectorMemoryWrite b line w val s
  | .next b v => Sys2Proof.Machine.execNext b v s
  | .rept b vs => Sys2Proof.Machine.execRept b vs s
  | .jump b v => Sys2Proof.Machine.execJump b v s
  | .lset b v => Sys2Proof.Machine.execLset b v s
  | .loop b v => Sys2Proof.Machine.execLoop b v s
  | .call b v => Sys2Proof.Machine.execCall b v s
  | .ret b v => Sys2Proof.Machine.execRet b v s
  | .wflag b v => Sys2Proof.Machine.execWflag b v s
  | .wtick b v => Sys2Proof.Machine.execWtick b v s
  | .wtickExpiry b => Sys2Proof.Machine.execWtickExpiry b s
  | .season b v => Sys2Proof.Machine.execSeason b v s
  | .mloop b v => Sys2Proof.Machine.execMloop b v s
  | .hand b v => Sys2Proof.Machine.execHand b v s
  | .wreg b v => Sys2Proof.Machine.execWreg b v s
  | .wregCommit b => Sys2Proof.Machine.execWregCommit b s
  | .halt b v => Sys2Proof.Machine.execHalt b v s
  | .illegalOp b => Sys2Proof.Machine.execIllegalOp b s
  | .seqGo b cond flag addr => Sys2Proof.Machine.execSeqGo b cond flag addr s
  | .seqStop b => Sys2Proof.Machine.execSeqStop b s
  | .seqAbort b => Sys2Proof.Machine.execSeqAbort b s
  | .sequencerStart b => Sys2Proof.Machine.execSequencerStart b s
  | .bankModeRequest b w => Sys2Proof.Machine.execBankModeRequest b w s
  | .vecPeriodWrite b w => Sys2Proof.Machine.execVecPeriodWrite b w s
  | .busCycle b fine cut => Sys2Proof.Machine.execBusCycle b fine cut s
  | .dataHoldEnd b fine => Sys2Proof.Machine.execDataHoldEnd b fine s
  | .responderRamWrite b entry val => Sys2Proof.Machine.execResponderRamWrite b entry val s
  | .respHitsRead b => Sys2Proof.Machine.execRespHitsRead b s
  | .respErrsRead b => Sys2Proof.Machine.execRespErrsRead b s
  | .respFirstmissRead b => Sys2Proof.Machine.execRespFirstmissRead b s
  | .pmuCtlWrite c w => Sys2Proof.Machine.execPmuCtlWrite c w s
  | .clampEntry c at_ => Sys2Proof.Machine.execClampEntry c at_ s
  | .pmcGo b k who => Sys2Proof.Machine.execPmcGo b k who s
  | .pmcStop b k => Sys2Proof.Machine.execPmcStop b k s
  | .pmcResult b k sum overRange => Sys2Proof.Machine.execPmcResult b k sum overRange s
  | .chPmuResRead c h => Sys2Proof.Machine.execChPmuResRead c h s
  | .pmcStatRead b k => Sys2Proof.Machine.execPmcStatRead b k s
  | .sourceEnable b j who => Sys2Proof.Machine.execSourceEnable b j who s
  | .sourceRangeChange b j range load => Sys2Proof.Machine.execSourceRangeChange b j range load s
  | .sourcePlayGo b j => Sys2Proof.Machine.execSourcePlayGo b j s
  | .sourcePlayStop b j => Sys2Proof.Machine.execSourcePlayStop b j s
  | .playbackStart b j => Sys2Proof.Machine.execPlaybackStart b j s
  | .playbackEnd b j => Sys2Proof.Machine.execPlaybackEnd b j s
  | .sourceLimit b j at_ => Sys2Proof.Machine.execSourceLimit b j at_ s
  | .sourceFault b j => Sys2Proof.Machine.execSourceFault b j s
  | .sourceFaultClear b j => Sys2Proof.Machine.execSourceFaultClear b j s
  | .aeEnable b j who => Sys2Proof.Machine.execAeEnable b j who s
  | .aeGo b j => Sys2Proof.Machine.execAeGo b j s
  | .aeStop b j => Sys2Proof.Machine.execAeStop b j s
  | .aeForce b j => Sys2Proof.Machine.execAeForce b j s
  | .triggerTransition b j cond at_ level => Sys2Proof.Machine.execTriggerTransition b j cond at_ level s
  | .recordComplete b j => Sys2Proof.Machine.execRecordComplete b j s
  | .segmentRearm b j => Sys2Proof.Machine.execSegmentRearm b j s
  | .recordPop b j => Sys2Proof.Machine.execRecordPop b j s
  | .aeStatusRead b j => Sys2Proof.Machine.execAeStatusRead b j s
  | .ruleWrite n word w => Sys2Proof.Machine.execRuleWrite n word w s
  | .routerTimer k => Sys2Proof.Machine.execRouterTimer k s
  | .timedCommandDue code at_ => Sys2Proof.Machine.execTimedCommandDue code at_ s
  | .intStatusClear val cyc => Sys2Proof.Machine.execIntStatusClear val cyc s
  | .rtStatusWakeClear => Sys2Proof.Machine.execRtStatusWakeClear s
  | .rtStatusRead => Sys2Proof.Machine.execRtStatusRead s
  | .arbitrationRequestAged id => Sys2Proof.Machine.execArbitrationRequestAged id s
  | .rfTxGo p who => Sys2Proof.Machine.execRfTxGo p who s
  | .rfTxStop p => Sys2Proof.Machine.execRfTxStop p s
  | .transmitStart p => Sys2Proof.Machine.execTransmitStart p s
  | .transmitEnd p => Sys2Proof.Machine.execTransmitEnd p s
  | .transmitTimeout p => Sys2Proof.Machine.execTransmitTimeout p s
  | .coexWaitExpiry p => Sys2Proof.Machine.execCoexWaitExpiry p s
  | .rfreqTailEnd => Sys2Proof.Machine.execRfreqTailEnd s
  | .rfSynSelect p y => Sys2Proof.Machine.execRfSynSelect p y s
  | .synFreqChange y hz => Sys2Proof.Machine.execSynFreqChange y hz s
  | .synLockGained y at_ => Sys2Proof.Machine.execSynLockGained y at_ s
  | .synLockLost y at_ => Sys2Proof.Machine.execSynLockLost y at_ s
  | .synCalGo y h => Sys2Proof.Machine.execSynCalGo y h s
  | .synAutoCal y => Sys2Proof.Machine.execSynAutoCal y s
  | .synCalComplete y at_ => Sys2Proof.Machine.execSynCalComplete y at_ s
  | .synCalFail y => Sys2Proof.Machine.execSynCalFail y s
  | .rxEnable p who => Sys2Proof.Machine.execRxEnable p who s
  | .rxIntervalEnd p pwr => Sys2Proof.Machine.execRxIntervalEnd p pwr s
  | .calGo => Sys2Proof.Machine.execCalGo s
  | .calStop => Sys2Proof.Machine.execCalStop s
  | .calGroupHold => Sys2Proof.Machine.execCalGroupHold s
  | .calPassDone runs => Sys2Proof.Machine.execCalPassDone runs s
  | .calCommit readBackOk => Sys2Proof.Machine.execCalCommit readBackOk s
  | .calCommitComplete readBackOk => Sys2Proof.Machine.execCalCommitComplete readBackOk s
  | .tslotInvalidation => Sys2Proof.Machine.execTslotInvalidation s
  | .storeWindowRead h at_ => Sys2Proof.Machine.execStoreWindowRead h at_ s
  | .storeWindowWrite at_ val => Sys2Proof.Machine.execStoreWindowWrite at_ val s
  | .reloadRequest target => Sys2Proof.Machine.execReloadRequest target s
  | .reloadStart flash => Sys2Proof.Machine.execReloadStart flash s
  | .reloadEnd => Sys2Proof.Machine.execReloadEnd s
  | .nvmRead => Sys2Proof.Machine.execNvmRead s
  | .nvmProgram => Sys2Proof.Machine.execNvmProgram s
  | .nvmErase => Sys2Proof.Machine.execNvmErase s
  | .nvmVerify => Sys2Proof.Machine.execNvmVerify s
  | .nvmActivate actReload => Sys2Proof.Machine.execNvmActivate actReload s
  | .nvmCancel => Sys2Proof.Machine.execNvmCancel s
  | .nvmOperationComplete reportedOk => Sys2Proof.Machine.execNvmOperationComplete reportedOk s
  | .nvmDataAccess val => Sys2Proof.Machine.execNvmDataAccess val s
  | .nvmAddrWrite val => Sys2Proof.Machine.execNvmAddrWrite val s
  | .slotActivation => Sys2Proof.Machine.execSlotActivation s
  | .actseqProgram => Sys2Proof.Machine.execActseqProgram s
  | .read inp p cyc => Sys2Proof.Machine.execRead inp p cyc s
  | .write inp p cyc => Sys2Proof.Machine.execWrite inp p cyc s
  | .writeNr inp p cyc => Sys2Proof.Machine.execWriteNr inp p cyc s
  | .command inp p cyc => Sys2Proof.Machine.execCommand inp p cyc s
  | .enum inp p => Sys2Proof.Machine.execEnum inp p s
  | .transitPacket inp p => Sys2Proof.Machine.execTransitPacket inp p s
  | .packetSend h => Sys2Proof.Machine.execPacketSend h s
  | .timedWriteDue at_ => Sys2Proof.Machine.execTimedWriteDue at_ s
  | .alive inp ready wrapped sender => Sys2Proof.Machine.execAlive inp ready wrapped sender s
  | .aliveSend => Sys2Proof.Machine.execAliveSend s
  | .wordAlignment inp => Sys2Proof.Machine.execWordAlignment inp s
  | .alignmentLoss inp => Sys2Proof.Machine.execAlignmentLoss inp s
  | .inputDown inp => Sys2Proof.Machine.execInputDown inp s
  | .unwrap inp => Sys2Proof.Machine.execUnwrap inp s
  | .dieLinkStatusRead => Sys2Proof.Machine.execDieLinkStatusRead s
  | .tickStatusRead => Sys2Proof.Machine.execTickStatusRead s
  | .tickBudgetRead => Sys2Proof.Machine.execTickBudgetRead s
  | .ringErrRead inp => Sys2Proof.Machine.execRingErrRead inp s
  | .chVigilTsLoRead c h => Sys2Proof.Machine.execChVigilTsLoRead c h s
  | .faultStatusClear val => Sys2Proof.Machine.execFaultStatusClear val s
  | .registerWrite addr w => Sys2Proof.Machine.execRegisterWrite addr w s
  | .vigilClockEdge wakein cyc pins => Sys2Proof.Machine.execVigilClockEdge wakein cyc pins s
  | .oscillatorRestart => Sys2Proof.Machine.execOscillatorRestart s
  | .enelleWakeEvent unit bcast => Sys2Proof.Machine.execEnelleWakeEvent unit bcast s

end Sys2Proof.Machine
end

