-- ==== Sys2Proof/Safety.lean ====
section
/-! DEFINITION. The canonical form of the state's tables: keys strictly rise, and no entry holds what an unlisted key reads as.
It holds at reset, and every command keeps it. And the parts of the state, with the parts that each command may change. -/

namespace Sys2Proof.Machine

/-- The tables of the almanac loader: the flash, the NVM buffer and the pending values of a reload. -/
def Alm.wf (k : Alm) : Bool :=
  Tab.wf (fun _ => (0xff : Byte)) k.flash && Tab.wf (fun _ => (0 : Byte)) k.buf && Tab.wf resetWord k.fill

/-- The tables of the calibration engine: coefficients in force and their targets. -/
def Cal.wf (c : Cal) : Bool := Tab.wf (fun _ => (0 : Int)) c.coef && Tab.wf (fun _ => (0 : Int)) c.target

/-- The table of the router: the starts of its relative timers. -/
def Router.wf (r : Router) : Bool := Tab.wf (fun _ => (0 : Nat)) r.tmr

/-- The registers, as they read and as they are in force, and the words latched for a host. -/
def State.regsWf (s : State) : Bool :=
  Tab.wf resetWord s.reg && Tab.wf resetWord s.frc && Tab.wf (fun _ => (0 : Word)) s.setBits && Tab.wf resetWord s.latA
    && Tab.wf resetWord s.latB

/-- The memories: vector memory, responder RAM and capture memory, and the battery store. -/
def State.memWf (s : State) : Bool := Tab.wf (fun _ => (0 : Word)) s.mem && Tab.wf (storeDflt s.bsFill) s.bs

/-- The hidden records of the resources. -/
def State.recsWf (s : State) : Bool :=
  Tab.wf (fun _ => ({} : Chan)) s.chan && Tab.wf (fun _ => ({} : Bank)) s.bank && Tab.wf (fun _ => ({} : Pmc)) s.pmc
    && Tab.wf (fun _ => ({} : Src)) s.src && Tab.wf (fun _ => ({} : Ae)) s.ae && Tab.wf (fun _ => ({} : Port)) s.port
    && Tab.wf (fun _ => ({} : Syn)) s.syn

/-- Every table of the state is in its canonical form. -/
def State.wf (s : State) : Bool := s.regsWf && s.memWf && s.recsWf && s.alm.wf && s.cal.wf && s.rt.wf

/-! ### The parts of the state, and what a command may change -/

/-- The parts of the state: the register words as they read, with the record of bits set in the window; the values in force; the
words latched for a host; the memories; the battery store; the flash; what waits for a boundary; the ledger; the records of
channels, banks, converters, sources, engines, RF ports and synthesisers; the island; the tick; the season; the unit, and its
unit state alone; the calibration; the loader but for the flash; the ring; the router; the mark of an RF reload; the counter of
the free values. -/
inductive Part where
  | regs | frc | lat | mem | store | flash | staged | led | chan | bank | pmc | src | ae | port | syn | isl | clk | sea
  | unit | unitState | cal | alm | ring | rt | rfReload | free
  deriving DecidableEq, Repr

/-- The part of `t` is that of `s`. The queue is in no part: a command never changes it. -/
def Part.same (p : Part) (s t : State) : Prop :=
  match p with
  | .regs => t.reg = s.reg ∧ t.setBits = s.setBits
  | .frc => t.frc = s.frc
  | .lat => t.latA = s.latA ∧ t.latB = s.latB
  | .mem => t.mem = s.mem
  | .store => t.bs = s.bs ∧ t.bsFill = s.bsFill
  | .flash => t.alm.flash = s.alm.flash
  | .staged => t.staged = s.staged
  | .led => t.led = s.led
  | .chan => t.chan = s.chan
  | .bank => t.bank = s.bank
  | .pmc => t.pmc = s.pmc
  | .src => t.src = s.src
  | .ae => t.ae = s.ae
  | .port => t.port = s.port
  | .syn => t.syn = s.syn
  | .isl => t.isl = s.isl
  | .clk => t.clk = s.clk
  | .sea => t.sea = s.sea
  | .unit => t.unit = s.unit
  | .unitState => t.unit.st = s.unit.st
  | .cal => t.cal = s.cal
  | .alm => { t.alm with flash := s.alm.flash } = s.alm
  | .ring => t.ring = s.ring
  | .rt => t.rt = s.rt
  | .rfReload => t.rfReload = s.rfReload
  | .free => t.free = s.free

/-- The memories read as they did: vector memory, responder RAM and capture memory, the battery store and the flash. -/
def MemKept (s t : State) : Prop :=
  (∀ a, t.memRd a = s.memRd a) ∧ (∀ i, t.bsRd i = s.bsRd i) ∧ ∀ a, t.fByte a = s.fByte a

/-- The bits that a list of registers and masks names in register `a`. -/
def maskAt (l : List (Nat × Word)) (a : Nat) : Word := (l.filter (fun p => p.1 == a)).foldl (fun m p => m ||| p.2) 0

/-- Every bit of every register reads as it did, but for those that the list names. -/
def RegBits (l : List (Nat × Word)) (s t : State) : Prop := ∀ a, t.rd a &&& ~~~maskAt l a = s.rd a &&& ~~~maskAt l a

/-- Every bit of a register. -/
abbrev wholeReg (a : Nat) : Nat × Word := (a, ~~~0)

/-- The bits of some fields of a register. -/
abbrev bitsOf (a : Nat) (fs : List Fld) : Nat × Word := (a, fs.foldl (fun m f => m ||| f.mask) 0)

/-- Every part of the state. -/
def Part.all : List Part :=
  [.regs, .frc, .lat, .mem, .store, .flash, .staged, .led, .chan, .bank, .pmc, .src, .ae, .port, .syn, .isl, .clk, .sea,
   .unit, .unitState, .cal, .alm, .ring, .rt, .rfReload, .free]

/-- Every part but those listed. -/
def Part.allBut (l : List Part) : List Part := Part.all.filter (fun p => !l.contains p)

/-- The parts of the state that a command may change; it leaves every other as it is. -/
def touches : Instr → List Part
  | .vaonRise | .resetNLow | .watchdog | .corePllLossOfLock | .wakeFromDeep => Part.allBut [.store]
  | .startUp _ _ _ => Part.allBut [.lat, .flash, .port, .syn, .rfReload, .free]
  | .enumerationWaitTimeout => [.regs, .store, .led, .bank, .src, .ae, .isl, .sea, .unit, .unitState, .alm, .rt]
  | .firstTickAlignment _ | .freeRunStart => [.regs, .store, .led, .bank, .src, .ae, .isl, .clk, .sea, .unit,
    .unitState, .alm, .rt]
  | .supplyGood _ | .dieRailRetrain _ | .convPllLock _ | .linkRetrainSuccess _ | .linkRetrainSet _ | .rfreqTailEnd =>
    [.regs, .unit]
  | .mainSupplyFall _ => Part.all
  | .dieRailFall _ => [.regs, .chan, .bank, .unit]
  | .convPllLossOfLock _ | .flitRetry _ | .linkFault _ => [.regs, .bank, .unit]
  | .tickBoundary _ | .controlWindow _ => Part.allBut [.flash, .unitState]
  | .heldBackEnqueue => [.regs, .led]
  | .ledgerRequestAged _ => [.led]
  | .powerCapWrite _ | .powerDieCapWrite _ _ | .drvFaultClear _ _ | .ruleWrite _ _ _ => [.regs, .staged]
  | .tickFrame _ | .leapSchedule | .epactSlewEnd | .epactStart => [.regs, .clk]
  | .tickLost | .clampEntry _ _ | .pmcGo _ _ _ | .synCalGo _ _ => [.regs, .rt]
  | .leapTick => [.regs, .clk, .sea, .rt]
  | .leapJump _ | .adopt _ | .epactWrite _ => [.regs, .clk, .sea]
  | .marker _ _ _ _ => [.clk]
  | .epactMeasurementEnd => [.regs, .free]
  | .tickCountLoRead _ _ => [.lat, .sea]
  | .seasonBoundaryRequest _ _ | .deepVigilRequest _ | .intStatusClear _ _ | .faultStatusClear _ => [.staged]
  | .seasonInterval => [.regs, .frc, .staged, .led, .chan, .pmc, .src, .ae, .sea, .cal, .rt]
  | .traceabilityRecordWrite _ | .seasonsCounterWrite _ => [.regs, .store, .sea, .free]
  | .poweredHoursIncrement => [.store, .unit]
  | .temperatureSample _ _ => [.regs, .bank, .sea, .unit, .cal, .rt]
  | .chModeWrite _ _ => [.regs, .staged, .led, .chan]
  | .driverFault _ => [.regs, .chan, .rt]
  | .rawCrossing _ _ _ _ => [.regs, .frc, .staged, .led, .chan, .bank, .pmc, .ae, .sea, .rt]
  | .filteredTransition _ _ _ => [.regs, .chan, .ae, .sea, .rt]
  | .chLatchWrite _ _ => [.regs, .chan]
  | .chEdgeLoRead _ _ => [.regs, .lat, .chan]
  | .chEdgeStatRead _ _ | .respHitsRead _ | .respErrsRead _ | .respFirstmissRead _ | .pmcStatRead _ _
    | .sourcePlayGo _ _ | .aeStatusRead _ _ | .rtStatusRead | .wordAlignment _ | .alignmentLoss _ | .unwrap _
    | .dieLinkStatusRead | .tickStatusRead | .tickBudgetRead | .ringErrRead _ => [.regs]
  | .vigilMatch _ _ _ | .vigilClockEdge _ _ _ => [.regs, .store, .chan, .isl, .rt]
  | .deepMatchToCore _ => [.chan, .rt]
  | .c9TransferDone _ => [.regs, .store, .chan, .isl]
  | .wakeStatusClear _ | .rtStatusWakeClear => [.isl]
  | .enelleMatch _ _ => [.regs, .store, .isl]
  | .deepPendingEntry => [.regs, .staged, .unit, .unitState]
  | .deepReadyEntry => [.regs, .port, .syn, .clk, .unit, .unitState]
  | .wakingAlignment _ | .wakingFrameTimeout => [.regs, .store, .staged, .led, .isl, .clk, .unit, .unitState, .rt]
  | .xt32Failure | .oscillatorRestart => [.regs, .isl]
  | .vectorMemoryWrite _ _ _ _ | .responderRamWrite _ _ _ => [.regs, .mem]
  | .next _ _ | .rept _ _ | .jump _ _ | .lset _ _ | .loop _ _ | .call _ _ | .ret _ _ | .wflag _ _ | .wtick _ _
    | .season _ _ | .mloop _ _ | .hand _ _ | .wreg _ _ | .halt _ _ | .illegalOp _ => [.regs, .frc, .staged, .led,
    .chan, .bank, .pmc, .rt]
  | .wtickExpiry _ | .seqGo _ _ _ _ | .sequencerStart _ => [.regs, .bank]
  | .wregCommit _ | .timedWriteDue _ | .registerWrite _ _ => Part.allBut [.lat, .flash, .pmc, .syn, .unitState, .cal,
    .rfReload, .free]
  | .seqStop _ => [.regs, .frc, .staged, .led, .bank, .pmc, .rt]
  | .seqAbort _ => [.regs, .frc, .mem, .staged, .led, .chan, .bank, .pmc, .src, .ae, .isl, .sea, .unit, .rt, .free]
  | .bankModeRequest _ _ => [.regs, .staged, .led, .bank]
  | .vecPeriodWrite _ _ | .pmuCtlWrite _ _ | .sourceFaultClear _ _ | .rxEnable _ _ => [.regs, .staged, .led]
  | .busCycle _ _ _ => [.regs, .staged, .chan, .bank, .rt]
  | .dataHoldEnd _ _ => [.regs, .chan, .bank]
  | .pmcStop _ _ => [.regs, .staged, .led, .pmc, .rt]
  | .pmcResult _ _ _ _ => [.regs, .chan, .pmc, .rt]
  | .chPmuResRead _ _ => [.lat, .chan]
  | .sourceEnable _ _ _ => [.regs, .staged, .led, .src]
  | .sourceRangeChange _ _ _ _ => [.regs, .frc, .src]
  | .sourcePlayStop _ _ | .playbackStart _ _ | .playbackEnd _ _ => [.regs, .src]
  | .sourceLimit _ _ _ => [.regs, .src, .rt]
  | .sourceFault _ _ => [.regs, .staged, .led, .chan, .bank, .src, .rt]
  | .aeEnable _ _ _ => [.regs, .staged, .led, .ae]
  | .aeGo _ _ | .segmentRearm _ _ | .recordPop _ _ => [.regs, .ae]
  | .aeStop _ _ => [.regs, .mem, .ae, .rt]
  | .aeForce _ _ => [.ae]
  | .triggerTransition _ _ _ _ _ | .recordComplete _ _ => [.regs, .ae, .rt]
  | .routerTimer _ | .timedCommandDue _ _ | .arbitrationRequestAged _ => [.rt]
  | .rfTxGo _ _ => [.regs, .staged, .led, .port, .rt]
  | .rfTxStop _ | .transmitEnd _ | .transmitTimeout _ | .coexWaitExpiry _ | .synLockLost _ _ => [.regs, .frc, .staged,
    .led, .port, .syn, .unit, .rt]
  | .transmitStart _ | .rxIntervalEnd _ _ => [.regs, .port, .rt]
  | .rfSynSelect _ _ => [.regs, .frc, .staged, .led, .port]
  | .synFreqChange _ _ => [.regs, .frc, .port, .syn]
  | .synLockGained _ _ => [.regs, .port, .syn, .rt]
  | .synAutoCal _ => [.regs, .staged, .rt]
  | .synCalComplete _ _ => [.regs, .frc, .port, .syn, .rt, .free]
  | .synCalFail _ => [.regs, .frc, .port, .syn, .rt]
  | .calGo => [.regs, .cal]
  | .calStop | .calPassDone _ => [.regs, .staged, .led, .chan, .pmc, .src, .ae, .cal, .rt]
  | .calGroupHold => [.regs, .mem, .chan, .src, .ae, .cal, .rt]
  | .calCommit _ | .calCommitComplete _ => [.regs, .store, .staged, .led, .chan, .pmc, .src, .ae, .sea, .cal, .rt,
    .free]
  | .tslotInvalidation => [.regs, .store, .cal]
  | .storeWindowRead _ _ | .storeWindowWrite _ _ => Part.allBut [.flash, .pmc, .syn, .unitState, .cal, .rfReload,
    .free]
  | .reloadRequest _ | .slotActivation => Part.allBut [.lat, .store, .flash, .clk, .unitState, .ring]
  | .reloadStart _ | .nvmOperationComplete _ => [.regs, .flash, .alm, .free]
  | .reloadEnd => [.regs, .staged, .led, .bank, .src, .ae, .alm]
  | .nvmRead | .nvmProgram | .nvmErase | .nvmVerify | .nvmActivate _ | .nvmCancel => [.regs, .alm]
  | .nvmDataAccess _ => [.alm]
  | .nvmAddrWrite _ => [.regs, .frc, .alm]
  | .actseqProgram => [.regs, .flash, .alm]
  | .read _ _ _ | .write _ _ _ | .writeNr _ _ _ | .command _ _ _ | .enum _ _ | .transitPacket _ _ => Part.allBut
    [.flash, .pmc, .syn, .cal, .rfReload, .free]
  | .packetSend _ => [.ring, .rt]
  | .alive _ _ _ _ | .inputDown _ => [.regs, .ring]
  | .aliveSend => [.ring]
  | .chVigilTsLoRead _ _ => [.lat]
  | .enelleWakeEvent _ _ => [.isl, .rt]

end Sys2Proof.Machine
end

