-- ==== Sys2Proof/Certificates/Slice0/Obligations.lean ====
section
/-! DEFINITION. What is stated of the block for the provers. -/

open Sys2Proof Sys2Proof.Machine

/-! ### The block as a whole -/

/-- A step runs the command at the front of the queue on the state with the queue's rest; on an empty queue the block idles
(assumption 1: the model's choice). -/
def Obligations.StepRunsTheFrontCommand : Prop :=
  (∀ (c : Instr) (rest : List Instr) (s : State), step { s with pending := c :: rest } = exec c { s with pending := rest })
    ∧ ∀ s : State, s.pending = [] → step s = .next s

/-- R426, R421, R420, R119: what reset leaves. Every register reads its reset value and has it in force, vector memory and
responder RAM are all zeros, every bank is OFF and every channel function OFF, the unit is STARTING and no command waits. The
words of the store and of capture memory and the hidden records are the model's choice (assumptions 6, 7 and 11): nothing is
said of them here. -/
def Obligations.ResetLeavesResetValues : Prop :=
  (∀ a, State.reset.rd a = resetWord a ∧ State.reset.eff a = resetWord a)
    ∧ (∀ a, a < 0x4000000 → State.reset.memRd a = 0)
    ∧ (∀ b, b < 12 → State.reset.bankState b = bankOff ∧ State.reset.seqState b = sqIdle)
    ∧ (∀ c, c < 768 → State.reset.funcEff c = fnOff)
    ∧ State.reset.unit.st = .starting ∧ State.reset.staged = [] ∧ State.reset.pending = []

/-- The tables of the reset state are in their canonical form. -/
def Obligations.ResetTablesAreCanonical : Prop := State.reset.wf = true

/-- Every command completes with a next state, in every state; it leaves the queue as it is, never gives a free value a second
time, and keeps the canonical form of every table of registers, memories, flash and records. Every step does the same, and takes
exactly the front command off the queue. -/
def Obligations.EveryStepKeepsTheTablesCanonical : Prop :=
  (∀ (c : Instr) (s : State), ∃ t, exec c s = .next t ∧ t.pending = s.pending ∧ s.free ≤ t.free ∧ (s.wf = true → t.wf = true))
    ∧ ∀ s : State, ∃ t, step s = .next t ∧ t.pending = s.pending.tail ∧ s.free ≤ t.free ∧ (s.wf = true → t.wf = true)

/-- The frame of every command, by the parts of the state: what `touches` does not list for a command, the command leaves as it
is. In particular the memories, the battery store and the flash read as before after every command that does not list them. -/
def Obligations.CommandsChangeOnlyWhatTheyTouch : Prop :=
  ∀ (c : Instr) (s t : State), exec c s = .next t →
    (∀ p, p ∉ touches c → p.same s t)
      ∧ (.mem ∉ touches c → .store ∉ touches c → .flash ∉ touches c → MemKept s t)

/-! ### The tick (R51 to R66) -/

/-- R52, R54: TICK_FRAME. A frame that does not decode sets FRAME_ERR and changes nothing else. A frame that decodes to n, while
the tick runs, is compared with the count as n + 64: a count that differs sets COUNT_MISMATCH and the TICK fault. That a frame that
agrees sets COUNT_SET and clears FREE is the model's choice (assumption 49). R55, R262: TICK_LOST after the fourth missing edge in
a row sets TICK_LOST and the TICK fault, clears LOCKED, and is the event of class UNIT and kind 5; the tick goes on. -/
def Obligations.TickFramesAndLostTicks : Prop :=
  (∀ (s : State) (ws : List (Option Nat)), ∃ t, exec (.tickFrame ws) s = .next t ∧
    (frameCount ws = none → t.fon A.TICK_STATUS F.TICK_STATUS.FRAME_ERR = true ∧ t.clk = s.clk
      ∧ RegBits [bitsOf A.TICK_STATUS [F.TICK_STATUS.FRAME_ERR]] s t)
    ∧ ∀ n, frameCount ws = some n → s.clk.running = true → s.clk.count < 2 ^ 48 →
      t.clk = { s.clk with cardDiff := some ((n + 64 + 2 ^ 48 - s.clk.count) % 2 ^ 48) }
      ∧ (s.clk.count = (n + 64) % 2 ^ 48 → t.fon A.TICK_STATUS F.TICK_STATUS.COUNT_SET = true
        ∧ t.fon A.TICK_STATUS F.TICK_STATUS.FREE = false
        ∧ RegBits [bitsOf A.TICK_STATUS [F.TICK_STATUS.COUNT_SET, F.TICK_STATUS.FREE]] s t)
      ∧ (s.clk.count ≠ (n + 64) % 2 ^ 48 → t.fon A.TICK_STATUS F.TICK_STATUS.COUNT_MISMATCH = true
        ∧ t.fon A.FAULT_STATUS F.FAULT_STATUS.TICK = true
        ∧ RegBits [bitsOf A.TICK_STATUS [F.TICK_STATUS.COUNT_MISMATCH], bitsOf A.FAULT_STATUS [F.FAULT_STATUS.TICK]] s t))
  ∧ (∀ s : State, 4 ≤ s.clk.missing → ∃ t, exec .tickLost s = .next t ∧ t.clk = s.clk
    ∧ t.fon A.TICK_STATUS F.TICK_STATUS.TICK_LOST = true ∧ t.fon A.TICK_STATUS F.TICK_STATUS.LOCKED = false
    ∧ t.fon A.FAULT_STATUS F.FAULT_STATUS.TICK = true
    ∧ (∃ e, t.rt.events = s.rt.events ++ [e] ∧ e.cls = evUnit ∧ e.idx = 0 ∧ e.kind = 5 ∧ e.tick = s.now)
    ∧ RegBits [bitsOf A.TICK_STATUS [F.TICK_STATUS.TICK_LOST, F.TICK_STATUS.LOCKED], bitsOf A.FAULT_STATUS [F.FAULT_STATUS.TICK]] s t)

/-- R59 to R62: LEAP_SCHEDULE with leap ticks enabled after 64 ticks at the threshold sets a leap at least two ticks ahead and
4,096 ticks after the one before. LEAP_TICK in a tick that has had no leap, with leaps enabled: at the tick of a scheduled leap it
is one leap tick of at most MAX whole steps of the phase error, counted in LEAPS, and ends what was pending; of a jump, from the
tick after its write, it takes at most five of the steps left, and the last of them clears JUMP and slews the rest of the error.
With leaps disabled, or in a tick that has had its leap, it does nothing. That a scheduled leap is taken whatever has become of
the error is the model's choice (assumption 51). -/
def Obligations.LeapTicksAreScheduledAndTaken : Prop :=
  (∀ s : State, 64 ≤ s.clk.persist → s.fon A.LEAP_CTL F.LEAP_CTL.EN = true → s.clk.leapDue = none → s.clk.jump = 0 →
    ∃ t due, exec .leapSchedule s = .next t ∧ t.clk = { s.clk with leapDue := some due } ∧ s.now + 2 ≤ due
      ∧ (∀ l, s.clk.lastLeap = some l → l + 4096 ≤ due) ∧ t.fon A.TICK_STATUS F.TICK_STATUS.LEAP_PENDING = true
      ∧ RegBits [bitsOf A.TICK_STATUS [F.TICK_STATUS.LEAP_PENDING]] s t)
  ∧ (∀ (s : State) (due : Nat), s.canLeap = true → s.clk.jump = 0 → s.clk.leapDue = some due → due ≤ s.now → ∃ t, ∃ n : Int,
    exec .leapTick s = .next t
      ∧ n = clampInt (-(s.fget A.LEAP_CTL F.LEAP_CTL.MAX : Int)) (s.fget A.LEAP_CTL F.LEAP_CTL.MAX) (wholeSteps s.clk.phase)
      ∧ t.clk = { s.clk with leapDue := none, tickLen := (Config.tickFine + n * Config.stepFine).toNat, lastLeap := some s.now, persist := 0 }
      ∧ t.fon A.TICK_STATUS F.TICK_STATUS.LEAP_PENDING = false
      ∧ t.fget A.TICK_STATUS F.TICK_STATUS.LEAPS
        = min (s.fget A.TICK_STATUS F.TICK_STATUS.LEAPS + 1) F.TICK_STATUS.LEAPS.max
      ∧ (∃ e, t.rt.events = s.rt.events ++ [e] ∧ e.cls = evUnit ∧ e.idx = 0 ∧ e.kind = 4 ∧ e.tick = s.now)
      ∧ RegBits [bitsOf A.TICK_STATUS [F.TICK_STATUS.LEAP_PENDING, F.TICK_STATUS.LEAPS]] s t)
  ∧ (∀ s : State, s.canLeap = true → s.clk.jump ≠ 0 → s.clk.jumpFrom ≤ s.now → ∃ t, ∃ n : Int,
    exec .leapTick s = .next t ∧ n = clampInt (-5) 5 s.clk.jump
      ∧ t.clk.jump = s.clk.jump - n ∧ t.clk.tickLen = (Config.tickFine + n * Config.stepFine).toNat ∧ t.clk.lastLeap = some s.now
      ∧ t.fget A.TICK_STATUS F.TICK_STATUS.LEAPS
        = min (s.fget A.TICK_STATUS F.TICK_STATUS.LEAPS + 1) F.TICK_STATUS.LEAPS.max
      ∧ (s.clk.jump = n → t.fon A.LEAP_CTL F.LEAP_CTL.JUMP = false ∧ t.clk.slew = s.clk.slew + phaseRest s.clk.jumpErr)
      ∧ (s.clk.jump ≠ n → t.rd A.LEAP_CTL = s.rd A.LEAP_CTL ∧ t.clk.slew = s.clk.slew)
      ∧ RegBits [bitsOf A.TICK_STATUS [F.TICK_STATUS.LEAPS, F.TICK_STATUS.SLEWING], bitsOf A.LEAP_CTL [F.LEAP_CTL.JUMP]] s t)
  ∧ ∀ s : State, s.fon A.LEAP_CTL F.LEAP_CTL.EN = false ∨ s.clk.lastLeap = some s.now → exec .leapTick s = .next s

/-- R54, R62, R66: the two writes of LEAP_CTL. A word whose MAX or THRESH is out of range is ignored. An accepted word reads back;
with ADOPT it lets the next season boundary take a count that is behind; with EN clear it drops a scheduled leap; with JUMP clear it
ends a jump; with JUMP and EN set, no jump under way and at least one whole step of phase error, it starts a jump of all the whole
steps from the next tick on, in place of a scheduled leap, and with less than one step JUMP clears at once and the error is slewed.
That a word with JUMP clear ends a jump, that one with less than one step to remove ends at once, and that EN clear drops a
scheduled leap, are the model's choices and reading (assumptions 17, 52 and 66). -/
def Obligations.LeapControlWrites : Prop :=
  ∀ (s : State) (w : Wr) (c : Instr), c = .leapJump w ∨ c = .adopt w → ∃ t, exec c s = .next t
    ∧ t.staged = s.staged
    ∧ (accepts A.LEAP_CTL w.val = false → t = s)
    ∧ (accepts A.LEAP_CTL w.val = true → F.LEAP_CTL.ADOPT.on w.val = true → t.clk.adopt = true)
    ∧ (accepts A.LEAP_CTL w.val = true → F.LEAP_CTL.EN.on w.val = false →
      t.clk.leapDue = none ∧ t.fon A.TICK_STATUS F.TICK_STATUS.LEAP_PENDING = false)
    ∧ (accepts A.LEAP_CTL w.val = true → F.LEAP_CTL.JUMP.on w.val = false →
      t.clk.jump = 0 ∧ t.rd A.LEAP_CTL = s.overlay A.LEAP_CTL w.val
        ∧ RegBits [wholeReg A.LEAP_CTL, bitsOf A.TICK_STATUS [F.TICK_STATUS.LEAP_PENDING]] s t)
    ∧ (accepts A.LEAP_CTL w.val = true → F.LEAP_CTL.JUMP.on w.val = true → F.LEAP_CTL.EN.on w.val = true → s.clk.jump = 0 →
      wholeSteps s.clk.phase ≠ 0 → t.clk.jump = wholeSteps s.clk.phase ∧ t.clk.jumpFrom = s.now + 1 ∧ t.clk.jumpErr = s.clk.phase
        ∧ t.clk.leapDue = none ∧ t.rd A.LEAP_CTL = s.overlay A.LEAP_CTL w.val
        ∧ RegBits [wholeReg A.LEAP_CTL, bitsOf A.TICK_STATUS [F.TICK_STATUS.LEAP_PENDING]] s t)
    ∧ (accepts A.LEAP_CTL w.val = true → F.LEAP_CTL.JUMP.on w.val = true → F.LEAP_CTL.EN.on w.val = true → s.clk.jump = 0 →
      wholeSteps s.clk.phase = 0 → t.clk.jump = 0 ∧ t.fon A.LEAP_CTL F.LEAP_CTL.JUMP = false
        ∧ t.clk.slew = s.clk.slew + s.clk.phase
        ∧ RegBits [wholeReg A.LEAP_CTL, bitsOf A.TICK_STATUS [F.TICK_STATUS.SLEWING]] s t)

/-- R63, R64, R65, R389: EPACT_WRITE takes an epact in range at once and slews what is not whole steps; EPACT_SLEW_END ends the slew;
EPACT_START begins a measurement of 4,096 ticks, and is ignored while one runs. A MARKER counts in the mean of its ring while a
measurement runs, from the unit's own tick instant of the count that it carries and less the offset of the sender; at other times it
does nothing. EPACT_MEASUREMENT_END after the last tick sets DONE and gives both means, each with VALID from 3,584 markers on and
NO_PEER with none. The rounding of a mean is the model's choice (assumption 53); the mean of no markers is a free value
(assumption 9). -/
def Obligations.EpactCommands : Prop :=
  (∀ (s : State) (w : Wr), accepts A.EPACT w.val = true → s.clk.running = true →
    ∃ t, exec (.epactWrite w) s = .next t ∧ t.rd A.EPACT = s.overlay A.EPACT w.val
      ∧ t.clk.epact = twos 25 (F.EPACT.EPACT.get w.val)
      ∧ t.clk.slew = s.clk.slew + Int.tmod (twos 25 (F.EPACT.EPACT.get w.val) - s.clk.epact) 3072
      ∧ (Int.tmod (twos 25 (F.EPACT.EPACT.get w.val) - s.clk.epact) 3072 ≠ 0 → t.fon A.TICK_STATUS F.TICK_STATUS.SLEWING = true)
      ∧ RegBits [wholeReg A.EPACT, bitsOf A.TICK_STATUS [F.TICK_STATUS.SLEWING]] s t)
  ∧ (∀ s : State, ∃ t, exec .epactSlewEnd s = .next t ∧ t.clk = { s.clk with slew := 0 }
      ∧ t.fon A.TICK_STATUS F.TICK_STATUS.SLEWING = false ∧ RegBits [bitsOf A.TICK_STATUS [F.TICK_STATUS.SLEWING]] s t)
  ∧ (∀ s : State, s.fon A.EPACT_CTL F.EPACT_CTL.BUSY = false → ∃ t, exec .epactStart s = .next t
      ∧ t.clk = { s.clk with measLeft := 4096, sumA := 0, cntA := 0, sumB := 0, cntB := 0 }
      ∧ t.fon A.EPACT_CTL F.EPACT_CTL.BUSY = true ∧ t.fon A.EPACT_CTL F.EPACT_CTL.DONE = false
      ∧ RegBits [bitsOf A.EPACT_CTL [F.EPACT_CTL.BUSY, F.EPACT_CTL.DONE]] s t)
  ∧ (∀ s : State, s.fon A.EPACT_CTL F.EPACT_CTL.BUSY = true → exec .epactStart s = .next s)
  ∧ (∀ (s : State) (count arrival offset : Nat), s.fon A.EPACT_CTL F.EPACT_CTL.BUSY = true →
      (∃ t, exec (.marker .a count arrival offset) s = .next t ∧ t.reg = s.reg
        ∧ t.clk = { s.clk with sumA := s.clk.sumA + (arrival + 16 * (s.ownTick count - offset)), cntA := s.clk.cntA + 1 })
      ∧ ∃ t, exec (.marker .b count arrival offset) s = .next t ∧ t.reg = s.reg
        ∧ t.clk = { s.clk with sumB := s.clk.sumB + (arrival + 16 * (s.ownTick count - offset)), cntB := s.clk.cntB + 1 })
  ∧ (∀ s : State, s.ownTick (s.clk.count % 2 ^ 16) = 0 ∧ s.ownTick ((s.clk.count + 2 ^ 16 - 1) % 2 ^ 16) = s.clk.prevLen
      ∧ s.ownTick ((s.clk.count + 1) % 2 ^ 16) = -(s.clk.tickLen : Int))
  ∧ (∀ (s : State) (r : Side) (count arrival offset : Nat), s.fon A.EPACT_CTL F.EPACT_CTL.BUSY = false →
      exec (.marker r count arrival offset) s = .next s)
  ∧ ∀ s : State, s.fon A.EPACT_CTL F.EPACT_CTL.BUSY = true → s.clk.measLeft = 0 →
      ∃ t, exec .epactMeasurementEnd s = .next t ∧ t.clk = s.clk
        ∧ t.fon A.EPACT_CTL F.EPACT_CTL.BUSY = false ∧ t.fon A.EPACT_CTL F.EPACT_CTL.DONE = true
        ∧ (t.fon A.EPACT_MEAS_A F.EPACT_MEAS_A.VALID = decide (3584 ≤ s.clk.cntA))
        ∧ (t.fon A.EPACT_MEAS_B F.EPACT_MEAS_B.VALID = decide (3584 ≤ s.clk.cntB))
        ∧ (t.fon A.EPACT_MEAS_A F.EPACT_MEAS_A.NO_PEER = (s.clk.cntA == 0))
        ∧ (t.fon A.EPACT_MEAS_B F.EPACT_MEAS_B.NO_PEER = (s.clk.cntB == 0))
        ∧ (s.clk.cntA ≠ 0 → t.fget A.EPACT_MEAS_A F.EPACT_MEAS_A.MEAN = untwos 29 (roundAway s.clk.sumA s.clk.cntA))
        ∧ (s.clk.cntB ≠ 0 → t.fget A.EPACT_MEAS_B F.EPACT_MEAS_B.MEAN = untwos 29 (roundAway s.clk.sumB s.clk.cntB))
        ∧ RegBits [wholeReg A.EPACT_MEAS_A, wholeReg A.EPACT_MEAS_B, bitsOf A.EPACT_CTL [F.EPACT_CTL.BUSY, F.EPACT_CTL.DONE]] s t

/-! ### The unit: resets, supplies, links, start-up, deep vigil (R15, R21, R22, R30, R53, R121, R126, R127, R342, R367, R411 to R416, R464) -/

/-- The bits of `PWR_STATUS` that report the supplies. -/
def Sys2Proof.Machine.powerBits : Nat × Word :=
  bitsOf A.PWR_STATUS [F.PWR_STATUS.VDDC_GOOD, F.PWR_STATUS.VDDIO_GOOD, F.PWR_STATUS.VDDA_GOOD, F.PWR_STATUS.VAON_GOOD,
    F.PWR_STATUS.VRF_GOOD, F.PWR_STATUS.VBAK_GOOD, F.PWR_STATUS.VPOS_GOOD, F.PWR_STATUS.VNEG_GOOD]

/-- `PWR_STATUS` reports every supply; VPOS and VNEG are good only at all six pin dies. -/
def Sys2Proof.Machine.PowerShown (t : State) : Prop :=
  t.fon A.PWR_STATUS F.PWR_STATUS.VDDC_GOOD = t.unit.vddc ∧ t.fon A.PWR_STATUS F.PWR_STATUS.VDDIO_GOOD = t.unit.vddio
    ∧ t.fon A.PWR_STATUS F.PWR_STATUS.VDDA_GOOD = t.unit.vdda ∧ t.fon A.PWR_STATUS F.PWR_STATUS.VAON_GOOD = t.unit.vaon
    ∧ t.fon A.PWR_STATUS F.PWR_STATUS.VRF_GOOD = t.unit.vrf ∧ t.fon A.PWR_STATUS F.PWR_STATUS.VBAK_GOOD = t.unit.vbak
    ∧ t.fon A.PWR_STATUS F.PWR_STATUS.VPOS_GOOD = (t.unit.vpos == 63)
    ∧ t.fon A.PWR_STATUS F.PWR_STATUS.VNEG_GOOD = (t.unit.vneg == 63)

/-- The bits that report state which a core reset keeps: the supplies, the start-up cause, the oscillator and the wake latch; and
FAULT_LOW, which follows FAULT_N. -/
def Sys2Proof.Machine.keptBits : List (Nat × Word) :=
  [powerBits, bitsOf A.FAULT_STATUS [F.FAULT_STATUS.START_CAUSE], bitsOf A.CLK_STATUS [F.CLK_STATUS.XT32_OK],
    bitsOf A.RT_STATUS [F.RT_STATUS.WAKE], bitsOf A.UNIT_STATUS [F.UNIT_STATUS.FAULT_LOW]]

/-- What is left of a state by a reset of the core: the unit starts, nothing waits, every register but those of the island and the
fuses has its reset value in force and reads it, but for the bits that report kept state; vector memory and responder RAM are
zeros; capture memory, the battery store and the fuses stand, and so does the flash unless an operation on it breaks off. -/
def Sys2Proof.Machine.CoreReset (s t : State) : Prop :=
  t.unit.st = .starting ∧ t.clk = {} ∧ t.led = {} ∧ t.staged = [] ∧ t.chan = [] ∧ t.bank = [] ∧ t.pmc = [] ∧ t.src = [] ∧ t.ae = []
    ∧ t.port = [] ∧ t.syn = [] ∧ t.sea = {} ∧ t.cal = {} ∧ t.ring = {} ∧ t.rt = {} ∧ t.setBits = [] ∧ t.latA = [] ∧ t.latB = []
    ∧ (∀ a, (regInfo a).ev ≠ .vaon → (regInfo a).ev ≠ .fuses →
        t.eff a = resetWord a ∧ t.rd a &&& ~~~maskAt keptBits a = resetWord a &&& ~~~maskAt keptBits a)
    ∧ (∀ a, (regInfo a).ev = .fuses → t.rd a = s.rd a)
    ∧ PowerShown t ∧ t.fon A.UNIT_STATUS F.UNIT_STATUS.FAULT_LOW = t.unit.faultN
    ∧ (∀ a, a < 0x4000000 → t.memRd a = 0) ∧ (∀ a, 0x4000000 ≤ a → t.memRd a = s.memRd a)
    ∧ (∀ i, t.bsRd i = s.bsRd i) ∧ (s.alm.op = none → ∀ a, t.fByte a = s.fByte a)

/-- What a core reset keeps of the island with VAON up: its registers, its state but for what is crossing C8 and C9, and the bits
of the core's registers that report it. -/
def Sys2Proof.Machine.IslandKept (s t : State) : Prop :=
  t.isl = { s.isl with c9 := [], enelle := [] } ∧ (∀ a, (regInfo a).ev = .vaon → t.rd a = s.rd a)
    ∧ t.fget A.FAULT_STATUS F.FAULT_STATUS.START_CAUSE = s.fget A.FAULT_STATUS F.FAULT_STATUS.START_CAUSE
    ∧ t.fon A.CLK_STATUS F.CLK_STATUS.XT32_OK = s.fon A.CLK_STATUS F.CLK_STATUS.XT32_OK
    ∧ t.fon A.RT_STATUS F.RT_STATUS.WAKE = s.isl.rtWake

/-- R413, R414, R424, R444: RESET_N_LOW in every state, and WATCHDOG and CORE_PLL_LOSS_OF_LOCK outside DEEP_READY, reset the core,
keep the island and the supplies, and add their cause to those of the next full start-up; the watchdog pulls FAULT_N, RESET_N_LOW
leaves it released. In DEEP_READY the watchdog and a loss of CORE lock do nothing. The model's choices are that a core reset leaves
the store and capture memory as they stand (assumption 6), that transfers across C9 are lost (assumption 57), and that nothing
happens in DEEP_READY (assumption 74). -/
def Obligations.CoreResets : Prop :=
  (∀ s : State, ∃ t, exec .resetNLow s = .next t ∧ CoreReset s t ∧ IslandKept s t ∧ t.unit.causes = s.unit.causes ||| 2
      ∧ t.unit.faultN = false ∧ t.unit.watchdog = false ∧ ∀ r, t.unit.railGood r = s.unit.railGood r)
  ∧ (∀ (s : State) (c : Instr), c = .watchdog ∨ c = .corePllLossOfLock → s.unit.st ≠ .deepReady → ∃ t, exec c s = .next t
      ∧ CoreReset s t ∧ IslandKept s t ∧ t.unit.causes = s.unit.causes ||| 4 ∧ t.unit.watchdog = true ∧ t.unit.faultN = true
      ∧ ∀ r, t.unit.railGood r = s.unit.railGood r)
  ∧ ∀ (s : State) (c : Instr), c = .watchdog ∨ c = .corePllLossOfLock → s.unit.st = .deepReady → exec c s = .next s

/-- The supplies after rail `r` has become good or has fallen. -/
def Sys2Proof.Machine.RailSet (r : Rail) (good : Bool) (s t : State) : Prop :=
  t.unit.railGood r = good ∧ ∀ q, q ≠ r → t.unit.railGood q = s.unit.railGood q

/-- R30, R121, R127, R342, R414: VAON_RISE resets the core and gives the island its reset values, with cause 0 alone for the next
start-up. A fall of VDDC, VDDIO or VDDA with VAON up resets the core with cause 3, but in DEEP_READY it is only remembered, the fall
of VDDC apart from the others. A fall of VAON resets the core in every state, with cause 0, and the store stands while VBAK is good.
A fall of VBAK with VAON good does nothing but show in PWR_STATUS. A fall of a rail that is not good does nothing.
R17, R28, R30, R292, R412, R435: SUPPLY_GOOD makes a supply good, which PWR_STATUS reports, and at the rise of VRF no synthesiser
is calibrated. DIE_RAIL_FALL of a good rail outside DEEP_READY leaves the unit in its state, takes the die's link down and ends its
attempts to retrain, reports die fault 5 for the boundary, and makes the pins of the banks of a pin die high-impedance or clears the
lock of the RF die's PLL; in DEEP_READY it is only remembered, that of VRF not even so. DIE_RAIL_RETRAIN of a die with good rails and
a link that is down starts a set of attempts to retrain it, and else does nothing.
That a rail that falls takes the link down at once is the model's reading (assumption 28). -/
def Obligations.Supplies : Prop :=
  ((∀ s : State, ∃ t, exec .vaonRise s = .next t ∧ CoreReset s t ∧ t.unit.causes = 1 ∧ t.isl = {}
      ∧ (∀ a, (regInfo a).ev = .vaon → t.rd a = resetWord a) ∧ t.fget A.FAULT_STATUS F.FAULT_STATUS.START_CAUSE = 0
      ∧ t.fon A.CLK_STATUS F.CLK_STATUS.XT32_OK = false ∧ t.fon A.RT_STATUS F.RT_STATUS.WAKE = false
      ∧ ∀ r, t.unit.railGood r = s.unit.railGood r)
  ∧ (∀ (s : State) (r : Rail), r ∈ [Rail.vddc, .vddio, .vdda] → s.unit.railGood r = true → s.unit.vaon = true →
      s.unit.st ≠ .deepReady → ∃ t, exec (.mainSupplyFall r) s = .next t ∧ CoreReset s t ∧ IslandKept s t ∧ RailSet r false s t
        ∧ t.unit.causes = s.unit.causes ||| 8)
  ∧ (∀ (s : State) (r : Rail), r ∈ [Rail.vddc, .vddio, .vdda] → s.unit.railGood r = true → s.unit.vaon = true →
      s.unit.st = .deepReady → ∃ t, exec (.mainSupplyFall r) s = .next t ∧ t.unit.st = .deepReady ∧ RailSet r false s t
        ∧ (t.unit.vddcFell = (s.unit.vddcFell || r == .vddc)) ∧ (t.unit.otherFell = (s.unit.otherFell || r != .vddc))
        ∧ PowerShown t ∧ RegBits [powerBits] s t ∧ t.isl = s.isl ∧ t.chan = s.chan ∧ t.mem = s.mem ∧ t.bs = s.bs)
  ∧ (∀ s : State, s.unit.vaon = true → s.unit.vbak = true → ∃ t, exec (.mainSupplyFall .vaon) s = .next t ∧ CoreReset s t
      ∧ IslandKept s t ∧ RailSet .vaon false s t ∧ t.unit.causes = s.unit.causes ||| 1)
  ∧ (∀ s : State, s.unit.vaon = true → s.unit.vbak = true → ∃ t, exec (.mainSupplyFall .vbak) s = .next t
      ∧ t.unit = { s.unit with vbak := false } ∧ t.fon A.PWR_STATUS F.PWR_STATUS.VBAK_GOOD = false ∧ RegBits [powerBits] s t
      ∧ t.bs = s.bs ∧ t.bsFill = s.bsFill ∧ t.isl = s.isl)
  ∧ ∀ (s : State) (r : Rail), s.unit.railGood r = false → exec (.mainSupplyFall r) s = .next s ∧ exec (.dieRailFall r) s = .next s)
  ∧ ((∀ (s : State) (r : Rail), ∃ t, exec (.supplyGood r) s = .next t ∧ RailSet r true s t ∧ PowerShown t ∧ t.unit.st = s.unit.st
      ∧ (r = .vrf → s.unit.vrf = false → ∀ y, y < 2 → t.fon (A.SYN_CAL y) F.SYN_CAL.VALID = false
        ∧ t.fon (A.SYN_CAL y) F.SYN_CAL.DUE = true)
      ∧ (r ≠ .vrf ∨ s.unit.vrf = true → RegBits [powerBits] s t)
      ∧ RegBits [powerBits, bitsOf (A.SYN_CAL 0) [F.SYN_CAL.VALID, F.SYN_CAL.DUE],
          bitsOf (A.SYN_CAL 1) [F.SYN_CAL.VALID, F.SYN_CAL.DUE]] s t)
  ∧ (∀ (s : State) (r : Rail) (d : Nat), railDie r = some d → s.unit.railGood r = true → s.unit.st ≠ .deepReady →
      ∃ t, exec (.dieRailFall r) s = .next t ∧ RailSet r false s t ∧ PowerShown t ∧ t.unit.st = s.unit.st
        ∧ t.linkUp d = false ∧ t.unit.retrain.testBit d = false ∧ (d, 5) ∈ t.unit.dieFaults
        ∧ (∀ c, c < 768 → dieOfBank (bankOf c) = d → (t.ch c).drive = .hiz ∧ (t.ch c).load = false)
        ∧ (∀ c, c < 768 → dieOfBank (bankOf c) ≠ d → t.ch c = s.ch c)
        ∧ (d = 6 → t.pllLocked 6 = false)
        ∧ RegBits [powerBits, bitsOf A.DIE_LINK_STATUS [F.DIE_LINK_STATUS.LINK_UP.bit d],
            (A.CLK_STATUS, if d = 6 then (F.CLK_STATUS.CONV_LOCK.bit 6).mask else 0)] s t)
  ∧ (∀ (s : State) (r : Rail) (d : Nat), railDie r = some d → s.unit.railGood r = true → s.unit.st = .deepReady →
      ∃ t, exec (.dieRailFall r) s = .next t ∧ RailSet r false s t ∧ PowerShown t ∧ t.unit.st = .deepReady
        ∧ (t.unit.otherFell = (s.unit.otherFell || d != 6)) ∧ RegBits [powerBits] s t ∧ t.chan = s.chan)
  ∧ (∀ (s : State) (r : Rail), railDie r = none → exec (.dieRailFall r) s = .next s)
  ∧ (∀ (s : State) (d : Fin 7), s.dieRails d.val = true → s.linkUp d.val = false →
      ∃ t, exec (.dieRailRetrain d) s = .next t ∧ t.unit = { s.unit with retrain := s.unit.retrain ||| 2 ^ d.val }
        ∧ t.linkUp d.val = false ∧ RegBits [bitsOf A.DIE_LINK_STATUS [F.DIE_LINK_STATUS.LINK_UP.bit d.val]] s t)
  ∧ ∀ (s : State) (d : Fin 7), s.dieRails d.val = false ∨ s.linkUp d.val = true → exec (.dieRailRetrain d) s = .next s)

/-- What a link fault of die `d` does to a link that is up. -/
def Sys2Proof.Machine.LinkFell (d : Nat) (s t : State) : Prop :=
  t.linkUp d = false ∧ t.fon A.DIE_LINK_STATUS (F.DIE_LINK_STATUS.LINK_FAULT.bit d) = true
    ∧ t.unit.retrain = s.unit.retrain ||| 2 ^ d ∧ t.unit.dieFaults = s.unit.dieFaults ++ [(d, 4)]

/-- R15, R21, R22, R411: the loss of lock of a running CONV PLL that is locked clears its lock, is latched in CONV_LOST and is die
fault 3; a started one that locks sets CONV_LOCK, that of the RF die only with VRF good. Each FLIT_RETRY of a die is counted in RETRY
and among the retries of the tick; the fifth of a tick on is a link fault as well. A LINK_FAULT of a link that is up is latched, takes
it down, starts retraining and is die fault 4. LINK_RETRAIN_SUCCESS during retraining brings the link up; LINK_RETRAIN_SET starts
further attempts while the unit is RUNNING, the link down and the rails good. Each does nothing else, and nothing at all otherwise. -/
def Obligations.DieClocksAndLinks : Prop :=
  ((∀ (s : State) (d : Fin 7), s.unit.pllOn.testBit d.val = true → s.pllLocked d.val = true →
      ∃ t, exec (.convPllLossOfLock d) s = .next t ∧ t.pllLocked d.val = false
        ∧ t.fon A.CLK_STATUS (F.CLK_STATUS.CONV_LOST.bit d.val) = true
        ∧ t.unit = { s.unit with pllLost := s.unit.pllLost ||| 2 ^ d.val, dieFaults := s.unit.dieFaults ++ [(d.val, 3)] }
        ∧ RegBits [bitsOf A.CLK_STATUS [F.CLK_STATUS.CONV_LOCK.bit d.val, F.CLK_STATUS.CONV_LOST.bit d.val]] s t)
  ∧ (∀ (s : State) (d : Fin 7), s.unit.pllOn.testBit d.val = false ∨ s.pllLocked d.val = false →
      exec (.convPllLossOfLock d) s = .next s)
  ∧ (∀ (s : State) (d : Fin 7), s.unit.pllOn.testBit d.val = true → (d.val = 6 → s.unit.vrf = true) →
      ∃ t, exec (.convPllLock d) s = .next t ∧ t.pllLocked d.val = true
        ∧ t.unit.pllLost.testBit d.val = false ∧ RegBits [bitsOf A.CLK_STATUS [F.CLK_STATUS.CONV_LOCK.bit d.val]] s t)
  ∧ ∀ (s : State) (d : Fin 7), s.unit.pllOn.testBit d.val = false ∨ (d.val = 6 ∧ s.unit.vrf = false) →
      exec (.convPllLock d) s = .next s)
  ∧ ((∀ (s : State) (d : Fin 7), ∃ t, exec (.flitRetry d) s = .next t
        ∧ t.unit.retries = s.unit.retries.set d.val (s.unit.retries.getD d.val 0 + 1)
        ∧ t.fget A.DIE_LINK_STATUS F.DIE_LINK_STATUS.RETRY
          = min (s.fget A.DIE_LINK_STATUS F.DIE_LINK_STATUS.RETRY + 1) F.DIE_LINK_STATUS.RETRY.max
        ∧ (s.unit.retries.getD d.val 0 < 4 ∨ s.linkUp d.val = false →
          RegBits [bitsOf A.DIE_LINK_STATUS [F.DIE_LINK_STATUS.RETRY]] s t ∧ t.bank = s.bank)
        ∧ (4 ≤ s.unit.retries.getD d.val 0 → s.linkUp d.val = true → LinkFell d.val s t))
  ∧ (∀ (s : State) (d : Fin 7), s.linkUp d.val = true → ∃ t, exec (.linkFault d) s = .next t ∧ LinkFell d.val s t
        ∧ RegBits [bitsOf A.DIE_LINK_STATUS [F.DIE_LINK_STATUS.LINK_UP.bit d.val, F.DIE_LINK_STATUS.LINK_FAULT.bit d.val]] s t)
  ∧ (∀ (s : State) (d : Fin 7), s.linkUp d.val = false → exec (.linkFault d) s = .next s)
  ∧ (∀ (s : State) (d : Fin 7), s.unit.retrain.testBit d.val = true → ∃ t, exec (.linkRetrainSuccess d) s = .next t
        ∧ t.linkUp d.val = true ∧ t.unit.retrain.testBit d.val = false
        ∧ RegBits [bitsOf A.DIE_LINK_STATUS [F.DIE_LINK_STATUS.LINK_UP.bit d.val]] s t)
  ∧ (∀ (s : State) (d : Fin 7), s.unit.retrain.testBit d.val = false → exec (.linkRetrainSuccess d) s = .next s)
  ∧ (∀ (s : State) (d : Fin 7), s.unit.st = .running → s.linkUp d.val = false → s.dieRails d.val = true →
      ∃ t, exec (.linkRetrainSet d) s = .next t ∧ t.unit = { s.unit with retrain := s.unit.retrain ||| 2 ^ d.val }
        ∧ t.linkUp d.val = false ∧ RegBits [bitsOf A.DIE_LINK_STATUS [F.DIE_LINK_STATUS.LINK_UP.bit d.val]] s t)
  ∧ ∀ (s : State) (d : Fin 7), s.unit.st ≠ .running ∨ s.linkUp d.val = true ∨ s.dieRails d.val = false →
      exec (.linkRetrainSet d) s = .next s)

/-- R367, R414: START_UP in STARTING, before step 1, with the main supplies good, carries out steps 1 to 6: START_CAUSE takes the
lowest cause that waits and none waits any more, FAULT_N's watchdog ends, the ring outputs drive, the CORE PLL is locked, the link of
every die that trains comes up and one that does not sets its bit of FAULT_STATUS, and with a flash whose SFDP cannot be read no slot
is in force. STEP then reads 6, the unit is STARTING, and READY is sent. In any other state, and without a main supply, it does
nothing.
R367, R401: ENUMERATION_WAIT_TIMEOUT in STARTING after step 6 completes step 7, which STEP reports; in a unit whose tick runs
already, it enters RUNNING with step 9 and leaves the tick as it is. At any other time it does nothing. -/
def Obligations.StartUpSteps : Prop :=
  ((∀ (s : State) (temps : List Int) (trained : List Bool) (flash : FlashIn), s.unit.st = .starting → s.step_ = 0 →
      s.mainGood = true → ∃ t, exec (.startUp temps trained flash) s = .next t ∧ t.step_ = 6 ∧ t.unit.st = .starting
        ∧ (∀ c, c < 5 → s.unit.causes.testBit c = true → (∀ d, d < c → s.unit.causes.testBit d = false) →
          t.fget A.FAULT_STATUS F.FAULT_STATUS.START_CAUSE = c)
        ∧ t.unit.causes = 0 ∧ t.unit.watchdog = false ∧ t.unit.ringOut = true
        ∧ t.fon A.CLK_STATUS F.CLK_STATUS.REF_OK = true ∧ t.fon A.CLK_STATUS F.CLK_STATUS.CORE_LOCK = true
        ∧ (∀ d, d < 7 → (d = 6 → s.unit.vrf = true) → trained.getD d false = true → t.linkUp d = true)
        ∧ (∀ d, d < 7 → (d = 6 → s.unit.vrf = true) → trained.getD d false = false →
          t.linkUp d = s.linkUp d ∧ t.fon A.FAULT_STATUS (F.FAULT_STATUS.DIE.bit d) = true)
        ∧ (flash.sfdp = false → t.fon A.ALMANAC_STATUS F.ALMANAC_STATUS.NONE = true)
        ∧ t.fget A.UNIT_STATUS F.UNIT_STATUS.UNIT_STATE = 1 ∧ t.fget A.PWR_STATUS F.PWR_STATUS.UNIT_STATE = 1
        ∧ t.fon A.BS_STATUS F.BS_STATUS.READY = true ∧ t.ring.ready = true)
  ∧ ∀ (s : State) (temps : List Int) (trained : List Bool) (flash : FlashIn),
      s.unit.st ≠ .starting ∨ s.step_ ≠ 0 ∨ s.mainGood = false → exec (.startUp temps trained flash) s = .next s)
  ∧ ((∀ s : State, s.unit.st = .starting → s.step_ = 6 → s.clk.running = false →
      ∃ t, exec .enumerationWaitTimeout s = .next t ∧ t.step_ = 7 ∧ t.unit = s.unit ∧ t.clk = s.clk
        ∧ RegBits [bitsOf A.ALMANAC_STATUS [F.ALMANAC_STATUS.STEP]] s t)
  ∧ (∀ s : State, s.unit.st = .starting → s.step_ = 6 → s.clk.running = true →
      ∃ t, exec .enumerationWaitTimeout s = .next t ∧ t.step_ = 9 ∧ t.unit.st = .running ∧ t.clk = s.clk
        ∧ t.rd A.TICK_STATUS = s.rd A.TICK_STATUS)
  ∧ ∀ s : State, s.unit.st ≠ .starting ∨ s.step_ ≠ 6 → exec .enumerationWaitTimeout s = .next s)

/-- The tick has begun from `count`, in a tick of the ordinary length, and the unit is in RUNNING. A count that a card frame gives is
COUNT_SET and LOCKED and not FREE, one of the unit's own is the reverse; the other bits of `TICK_STATUS` stand. -/
def Sys2Proof.Machine.TickBegun (count : Nat) (free : Bool) (s t : State) : Prop :=
  t.unit.st = .running ∧ t.clk.running = true ∧ t.clk.count = count % 2 ^ 48 ∧ t.clk.tickLen = Config.tickFine
    ∧ t.clk.seq = s.clk.seq ∧ t.mem = s.mem
    ∧ t.fon A.TICK_STATUS F.TICK_STATUS.FREE = free ∧ t.fon A.TICK_STATUS F.TICK_STATUS.LOCKED = !free
    ∧ t.fon A.TICK_STATUS F.TICK_STATUS.COUNT_SET = !free
    ∧ (let m := (bitsOf A.TICK_STATUS [F.TICK_STATUS.FREE, F.TICK_STATUS.LOCKED, F.TICK_STATUS.COUNT_SET]).2
      t.rd A.TICK_STATUS &&& ~~~m = s.rd A.TICK_STATUS &&& ~~~m)

/-- R53, R367: FIRST_TICK_ALIGNMENT in STARTING with step 7 complete and no tick yet begins the tick at the decoded count plus 64 and
enters RUNNING. FREE_RUN_START in STARTING from step 1 on, with no tick yet, begins it at 0, running free, and enters RUNNING if step
7 is complete. At any other time they do nothing. That LOCKED is set by the alignment, and that COUNT_SET is clear while a unit runs
free, are the model's reading (assumption 49).
R464: WAKING_ALIGNMENT in WAKING with the CONV PLLs relocked begins the tick at the decoded count plus 64, and
WAKING_FRAME_TIMEOUT at the count that the counter held, running free; both enter RUNNING. At any other time they do nothing. What
the status bits then read is the model's reading (assumption 49). -/
def Obligations.TheTickStarts : Prop :=
  ((∀ (s : State) (n : Nat), s.unit.st = .starting → s.step_ = 7 → s.clk.running = false →
      ∃ t, exec (.firstTickAlignment n) s = .next t ∧ TickBegun (n + 64) false s t ∧ t.step_ = 9)
  ∧ (∀ (s : State) (n : Nat), s.unit.st ≠ .starting ∨ s.step_ ≠ 7 ∨ s.clk.running = true →
      exec (.firstTickAlignment n) s = .next s)
  ∧ (∀ s : State, s.unit.st = .starting → s.step_ = 7 → s.clk.running = false →
      ∃ t, exec .freeRunStart s = .next t ∧ TickBegun 0 true s t ∧ t.step_ = 9)
  ∧ (∀ s : State, s.unit.st = .starting → s.step_ ≠ 0 → s.step_ ≠ 7 → s.clk.running = false →
      ∃ t, exec .freeRunStart s = .next t ∧ t.unit = s.unit ∧ t.clk.running = true ∧ t.clk.count = 0
        ∧ t.fon A.TICK_STATUS F.TICK_STATUS.FREE = true ∧ t.fon A.TICK_STATUS F.TICK_STATUS.LOCKED = false
        ∧ t.fon A.TICK_STATUS F.TICK_STATUS.COUNT_SET = false
        ∧ RegBits [bitsOf A.TICK_STATUS [F.TICK_STATUS.FREE, F.TICK_STATUS.LOCKED, F.TICK_STATUS.COUNT_SET]] s t)
  ∧ ∀ s : State, s.unit.st ≠ .starting ∨ s.step_ = 0 ∨ s.clk.running = true → exec .freeRunStart s = .next s)
  ∧ ((∀ (s : State) (n : Nat), s.unit.st = .waking → s.relocked = true →
      ∃ t, exec (.wakingAlignment n) s = .next t ∧ TickBegun (n + 64) false s t)
  ∧ (∀ s : State, s.unit.st = .waking → s.relocked = true →
      ∃ t, exec .wakingFrameTimeout s = .next t ∧ TickBegun s.clk.count true s t)
  ∧ ∀ s : State, s.unit.st ≠ .waking ∨ s.relocked = false →
      (∀ n, exec (.wakingAlignment n) s = .next s) ∧ exec .wakingFrameTimeout s = .next s)

/-- Nothing keeps a unit in DEEP_PENDING (R126): what the next boundary of it does is done, no transfer crosses C9, and nothing is on
its way into the store. -/
def Sys2Proof.Machine.DeepQuiet (s : State) : Prop :=
  (∀ x ∈ s.staged, x.eff ≠ .deepDown ∧ ∀ m, x.eff ≠ .season m) ∧ s.sea.due = 0 ∧ s.isl.c9 = [] ∧ s.sea.recs = []
    ∧ s.sea.seasonDue = false ∧ (s.cal.tslotDue = 0 ∨ s.bsFailed = true) ∧ s.cal.commit ≠ 2

/-- R126: DEEP_VIGIL_REQUEST in RUNNING is a request for the boundary of R46, and in any other state is ignored.
DEEP_PENDING_ENTRY with a request in force and no bank under reload enters DEEP_PENDING, with a season boundary of cause bit 4 and
the banks' moves due at the next boundary, and else does nothing. DEEP_READY_ENTRY in DEEP_PENDING, with nothing left to do, stops
the tick, every CONV PLL, the ring outputs and INT_N, and leaves the island as it is; before that it does nothing.
R127: WAKE_FROM_DEEP in DEEP_READY. After VDDC has fallen, with every supply good again, it is a full start-up with cause 4. After
another of them has fallen, with every supply good again, or with none fallen and WAKE_N pulled, the unit enters WAKING, with the
CONV PLLs of the banks that are not OFF started and the ring outputs driven. Else, and in any other state, it does nothing.
That the falls are told apart by what fell since DEEP_READY began is the model's reading (assumption 27). -/
def Obligations.DeepVigil : Prop :=
  ((∀ (s : State) (cyc : Nat), s.unit.st = .running → ∃ t, exec (.deepVigilRequest cyc) s = .next t
      ∧ t.staged = s.staged ++ [⟨s.dueAt cyc, .host .a, .deep, false⟩] ∧ t.reg = s.reg)
  ∧ (∀ (s : State) (cyc : Nat), s.unit.st ≠ .running → exec (.deepVigilRequest cyc) s = .next s)
  ∧ (∀ s : State, s.unit.st = .running → s.unit.deepReq = true → s.bankReloads = false →
      ∃ t, exec .deepPendingEntry s = .next t ∧ t.unit = { s.unit with st := .deepPending, deepReq := false }
        ∧ (∃ u v, t.staged = s.staged ++ [⟨s.now + 1, u, .season 16, false⟩, ⟨s.now + 1, v, .deepDown, false⟩])
        ∧ t.fget A.PWR_STATUS F.PWR_STATUS.UNIT_STATE = 3 ∧ t.fget A.UNIT_STATUS F.UNIT_STATUS.UNIT_STATE = 3
        ∧ RegBits [bitsOf A.PWR_STATUS [F.PWR_STATUS.UNIT_STATE], bitsOf A.UNIT_STATUS [F.UNIT_STATUS.UNIT_STATE]] s t)
  ∧ (∀ s : State, s.unit.st ≠ .running ∨ s.unit.deepReq = false ∨ s.bankReloads = true →
      exec .deepPendingEntry s = .next s)
  ∧ (∀ s : State, s.unit.st = .deepPending → DeepQuiet s →
      ∃ t, exec .deepReadyEntry s = .next t ∧ t.unit.st = .deepReady ∧ t.clk = { s.clk with running := false }
        ∧ t.unit.ringOut = false ∧ t.unit.intN = false ∧ (∀ d, d < 7 → t.unit.pllOn.testBit d = false ∧ t.pllLocked d = false)
        ∧ t.unit.rfreq = false ∧ t.fget A.PWR_STATUS F.PWR_STATUS.UNIT_STATE = 4 ∧ t.isl = s.isl ∧ t.mem = s.mem)
  ∧ ∀ s : State, s.unit.st ≠ .deepPending ∨ ¬ DeepQuiet s → exec .deepReadyEntry s = .next s)
  ∧ ((∀ s : State, s.unit.st = .deepReady → s.unit.vddcFell = true → s.mainGood = true → s.unit.vpos = 63 → s.unit.vneg = 63 →
      ∃ t, exec .wakeFromDeep s = .next t ∧ CoreReset s t ∧ IslandKept s t ∧ t.unit.causes = s.unit.causes ||| 16)
  ∧ (∀ s : State, s.unit.st = .deepReady → s.unit.vddcFell = false →
      (s.unit.otherFell = true ∧ s.mainGood = true ∧ s.unit.vpos = 63 ∧ s.unit.vneg = 63)
        ∨ (s.unit.otherFell = false ∧ s.isl.wakeN = true) →
      ∃ t, exec .wakeFromDeep s = .next t ∧ t.unit.st = .waking ∧ t.unit.pllOn = s.pllsWanted ∧ t.unit.ringOut = true
        ∧ t.unit.otherFell = false ∧ t.fget A.PWR_STATUS F.PWR_STATUS.UNIT_STATE = 5 ∧ t.clk = s.clk ∧ t.isl = s.isl
        ∧ t.chan = s.chan ∧ t.mem = s.mem)
  ∧ (∀ s : State, s.unit.st = .deepReady → s.unit.otherFell = true ∨ s.unit.vddcFell = true →
      s.mainGood = false ∨ s.unit.vpos ≠ 63 ∨ s.unit.vneg ≠ 63 → exec .wakeFromDeep s = .next s)
  ∧ (∀ s : State, s.unit.vddcFell = false → s.unit.otherFell = false → s.isl.wakeN = false → exec .wakeFromDeep s = .next s)
  ∧ ∀ s : State, s.unit.st ≠ .deepReady → exec .wakeFromDeep s = .next s)
/-! ### The boundary, the window and the ledger (R34 to R49) -/

/-- R43, R45, R54, R64: TICK_BOUNDARY, while the tick runs, begins one tick: one more boundary has passed, the instant is the last one
plus the length of the tick that ended, the new tick has the ordinary length until it leaps, the count is the adopted one if there is
one and else one more than it was, modulo 2 ^ 48, one tick fewer of an epact measurement is left, the season is one tick longer, and
no bit counts as set in the new window. While the tick does not run nothing happens.
R6, R46: of what is due, an AT value of the power caps that waits alone comes into force in the fields that are AT, and waits no more.
That an adopted count comes in at the boundary is the model's reading (assumption 16). -/
def Obligations.BoundaryBeginsTheTick : Prop :=
  (∀ (s : State) (inp : BoundaryIn), s.clk.running = true → ∃ t, exec (.tickBoundary inp) s = .next t
      ∧ t.clk = { s.clk with
          seq := s.clk.seq + 1, count := s.clk.adoptTo.getD ((s.clk.count + 1) % 2 ^ 48), adoptTo := none
          start := s.clk.start + s.clk.tickLen, prevLen := s.clk.tickLen, prevCount := s.clk.count, prevLocal := s.isLocal
          tickLen := Config.tickFine
          measLeft := if s.fon A.EPACT_CTL F.EPACT_CTL.BUSY = true then s.clk.measLeft - 1 else s.clk.measLeft }
      ∧ t.sea.len = s.sea.len + 1 ∧ t.setBits = [] ∧ t.unit.st = s.unit.st)
  ∧ (∀ (s : State) (inp : BoundaryIn), s.clk.running = false → exec (.tickBoundary inp) s = .next s)
  ∧ ∀ (s : State) (mons : List Monitor) (due a : Nat) (who : Writer) (v : Word) (adm : Bool),
      s.staged = [⟨due, who, .force a v, adm⟩] → due ≤ s.now → a ∈ [A.POWER_CAP, A.POWER_DIE_CAP 0, A.POWER_DIE_CAP 1] →
      (s.applyDue mons).staged = [] ∧ (s.applyDue mons).eff a
        = (s.eff a &&& ~~~(regInfo a).delayed) ||| (v &&& (regInfo a).delayed)

/-- R24, R43, R44, R59: CONTROL_WINDOW, while the tick runs, passes no boundary and leaves only events of the tick it stands in. It
takes the card edge: an edge gives the phase error and ends a row of missing ones, PHASE_ERR shows it in whole CORE cycles and LOCKED
says whether it lies below the threshold; no edge is one more missing and a frame error, but not in a unit that runs free. Where CORE
does not run, its first phase is all that happens: no other phase does anything. While the tick does not run nothing happens.
The rounding of PHASE_ERR is the model's choice (assumption 50). -/
def Obligations.WindowTakesTheEventsOfTheTickBefore : Prop :=
  (∀ (s : State) (inp : WindowIn), s.clk.running = true → ∃ t, exec (.controlWindow inp) s = .next t
      ∧ t.clk.seq = s.clk.seq ∧ t.clk.count = s.clk.count ∧ (∀ e ∈ t.rt.events, t.now ≤ e.tick)
      ∧ (∀ x, inp.edge = some x → t.clk.phase = s.phaseError x ∧ t.clk.missing = 0
        ∧ t.clk.persist = (if phaseFar (s.phaseError x) s.thresh = true then s.clk.persist + 1 else 0)
        ∧ t.fget A.TICK_STATUS F.TICK_STATUS.PHASE_ERR = untwos 8 (clampInt (-128) 127 (phaseCycles (s.phaseError x)))
        ∧ t.fon A.TICK_STATUS F.TICK_STATUS.LOCKED = !phaseFar (s.phaseError x) s.thresh)
      ∧ (inp.edge = none → s.fon A.TICK_STATUS F.TICK_STATUS.FREE = false → t.clk.phase = s.clk.phase
        ∧ t.clk.missing = s.clk.missing + 1 ∧ t.clk.persist = 0 ∧ t.fon A.TICK_STATUS F.TICK_STATUS.FRAME_ERR = true)
      ∧ (inp.edge = none → s.fon A.TICK_STATUS F.TICK_STATUS.FREE = true → t.clk.phase = s.clk.phase
        ∧ t.clk.missing = s.clk.missing ∧ t.clk.persist = s.clk.persist)
      ∧ (s.coreRuns = false → t = (s.phase1 inp.edge).updRt (fun r => { r with
          events := r.events.filter (fun e => decide (s.now ≤ e.tick)) })))
  ∧ ∀ (s : State) (inp : WindowIn), s.clk.running = false → exec (.controlWindow inp) s = .next s

/-- R35: whatever waits, phase 4 commits nothing above the cap in force: the committed total afterwards is within the cap, or no
more than it was. The cap is as it was. -/
def Obligations.PhaseFourStaysUnderTheCap : Prop :=
  ∀ s : State, totalOf s.phase4.led.committed ≤ max (totalOf s.led.committed) s.cap ∧ s.phase4.cap = s.cap

/-- R36, R49, R284: HELD_BACK_ENQUEUE gives the request that is held back the entry that is free for it, and counts the window
once in HELD, and does nothing with none held back; LEDGER_REQUEST_AGED and ARBITRATION_REQUEST_AGED mark a request that has
waited 64 ticks, and no other. When HELD counts is the model's reading (assumption 19). -/
def Obligations.RequestsAgeAndTakeEntries : Prop :=
  (∀ (s : State) (r : Req), s.led.queue.filter (fun q => q.slot == .held) = [r] → ∃ t, exec .heldBackEnqueue s = .next t
      ∧ t.led.queue = s.led.queue.map (fun q => if q.id = r.id then { q with slot := s.slotFor r.cls r.idx r.key } else q)
      ∧ t.led.committed = s.led.committed
      ∧ t.fget A.TICK_BUDGET F.TICK_BUDGET.HELD = (if s.led.heldCounted then s.fget A.TICK_BUDGET F.TICK_BUDGET.HELD
          else min (s.fget A.TICK_BUDGET F.TICK_BUDGET.HELD + 1) F.TICK_BUDGET.HELD.max)
      ∧ RegBits [bitsOf A.TICK_BUDGET [F.TICK_BUDGET.HELD]] s t)
  ∧ (∀ s : State, s.led.queue.filter (fun q => q.slot == .held) = [] → exec .heldBackEnqueue s = .next s)
  ∧ (∀ (s : State) (id : Nat), ∃ t, exec (.ledgerRequestAged id) s = .next t ∧ t.led.queue.length = s.led.queue.length
      ∧ t.led.committed = s.led.committed
      ∧ ∀ r ∈ s.led.queue, (r.id = id → 64 ≤ r.age → { r with aged := true } ∈ t.led.queue)
          ∧ (r.id ≠ id ∨ r.age < 64 → r ∈ t.led.queue))
  ∧ ∀ (s : State) (id : Nat), ∃ t, exec (.arbitrationRequestAged id) s = .next t ∧ t.rt.arbs.length = s.rt.arbs.length
      ∧ t.rt.grants = s.rt.grants
      ∧ ∀ a ∈ s.rt.arbs, (a.id = id → 64 ≤ a.age → { a with aged := true } ∈ t.rt.arbs)
          ∧ (a.id ≠ id ∨ a.age < 64 → a ∈ t.rt.arbs)

/-! ### Writes and reads of registers (R5 to R9, R427 to R430) -/

/-- What an accepted write of an AT register does when it reaches CORE: its writable fields read back at once, the value waits for
the boundary of R46, and no value in force and no other register changes. -/
def Sys2Proof.Machine.AtWrite (a : Nat) (w : Wr) (s t : State) : Prop :=
  t.rd a = s.overlay a w.val ∧ ⟨s.dueAt w.cyc, w.who, .force a (s.overlay a w.val), false⟩ ∈ t.staged ∧ t.frc = s.frc
    ∧ RegBits [wholeReg a] s t

/-- The writer prevails over every value of the register that is due at the boundary of its write (R7, R427). -/
def Sys2Proof.Machine.Prevails (a : Nat) (w : Wr) (s : State) : Prop :=
  ∀ x ∈ s.staged, x.due = s.dueAt w.cyc → x.eff.reg = some a → writerPrevails w.who x.who = true

/-- A write that a reload ignores: WR_IGN sets and nothing else of a register changes, nor anything that waits. -/
def Sys2Proof.Machine.WriteIgnored (s t : State) : Prop :=
  t.staged = s.staged ∧ t.fon A.ALMANAC_STATUS F.ALMANAC_STATUS.WR_IGN = true
    ∧ RegBits [bitsOf A.ALMANAC_STATUS [F.ALMANAC_STATUS.WR_IGN]] s t

/-- R6, R7, R46, R373, R427: POWER_CAP_WRITE, POWER_DIE_CAP_WRITE, RULE_WRITE and a REGISTER_WRITE of a channel register that has AT
fields and no rule of its own are AT writes. A write of a value that the register does not take, or by a writer that a value
already due outranks, changes no register, no value in force and nothing that waits; a write of a register under reload sets WR_IGN
and does nothing else; and a write of an unmapped address or of capture memory does nothing. -/
def Obligations.DelayedWritesReadBackAndWait : Prop :=
  (∀ (s : State) (w : Wr) (c : Instr) (a : Nat),
      (c = .powerCapWrite w ∧ a = A.POWER_CAP ∨ ∃ h : Fin 2, c = .powerDieCapWrite h w ∧ a = A.POWER_DIE_CAP h.val) →
      ∃ t, exec c s = .next t
        ∧ (accepts a w.val = true → Prevails a w s → AtWrite a w s t)
        ∧ (accepts a w.val = false ∨ s.outranked a (s.dueAt w.cyc) w.who = true → t = s))
  ∧ (∀ (s : State) (n : Fin 64) (k : Fin 4) (w : Wr), ∃ t, exec (.ruleWrite n k w) s = .next t
      ∧ (s.rt.reload = false → accepts (A.RULE_SRC n + k) w.val = true → Prevails (A.RULE_SRC n + k) w s →
        AtWrite (A.RULE_SRC n + k) w s t)
      ∧ (s.rt.reload = false → accepts (A.RULE_SRC n + k) w.val = false
        ∨ s.outranked (A.RULE_SRC n + k) (s.dueAt w.cyc) w.who = true → t = s)
      ∧ (s.rt.reload = true → WriteIgnored s t))
  ∧ (∀ (s : State) (c : Fin 768) (o : Nat) (w : Wr), o ∈ [1, 2, 3, 4, 5, 6, 7] →
      ∃ t, exec (.registerWrite (A.CH_MODE c + o) w) s = .next t
      ∧ ((s.bk (bankOf c)).reload = false → accepts (A.CH_MODE c + o) w.val = true → Prevails (A.CH_MODE c + o) w s →
        AtWrite (A.CH_MODE c + o) w s t)
      ∧ ((s.bk (bankOf c)).reload = false → accepts (A.CH_MODE c + o) w.val = false
        ∨ s.outranked (A.CH_MODE c + o) (s.dueAt w.cyc) w.who = true → t.reg = s.reg ∧ t.frc = s.frc ∧ t.staged = s.staged)
      ∧ ((s.bk (bankOf c)).reload = true → WriteIgnored s t))
  ∧ ∀ (s : State) (a : Nat) (w : Wr), (placeOf a = .none ∨ ∃ e o, placeOf a = .capt e o) → exec (.registerWrite a w) s = .next s

/-- R46, R67, R83, R279, R416, R26: SEASON_BOUNDARY_REQUEST, INT_STATUS_CLEAR, DRV_FAULT_CLEAR and FAULT_STATUS_CLEAR change no
register when they reach CORE: they wait for a boundary, as a season boundary of cause bit 2 and as clears of the W1C bits written; in
a bank under reload DRV_FAULT_CLEAR is ignored.
WAKE_STATUS_CLEAR and RT_STATUS_WAKE_CLEAR wait to cross C9. That FAULT_STATUS_CLEAR waits for the next boundary is the model's reading
(assumption 14). -/
def Obligations.ClearsAndRequestsWait : Prop :=
  (∀ (s : State) (who : Writer) (cyc : Nat), ∃ t, exec (.seasonBoundaryRequest who cyc) s = .next t
      ∧ t.staged = s.staged ++ [⟨s.dueAt cyc, who, .season 4, false⟩] ∧ t.reg = s.reg)
  ∧ (∀ (s : State) (v : Word) (cyc : Nat), ∃ t, exec (.intStatusClear v cyc) s = .next t
      ∧ t.staged = s.staged ++ [⟨s.dueAt cyc, .host .a, .clear A.INT_STATUS (v &&& F.INT_STATUS.RIRQ.mask), false⟩] ∧ t.reg = s.reg)
  ∧ (∀ (s : State) (c : Fin 768) (cyc : Nat), (s.bk (bankOf c)).reload = false → ∃ t, exec (.drvFaultClear c cyc) s = .next t
      ∧ t.staged = s.staged ++ [⟨s.dueAt cyc, .host .a, .clear (A.CH_STATUS c) F.CH_STATUS.DRV_FAULT.mask, false⟩] ∧ t.reg = s.reg)
  ∧ (∀ (s : State) (c : Fin 768) (cyc : Nat), (s.bk (bankOf c)).reload = true → ∃ t, exec (.drvFaultClear c cyc) s = .next t
      ∧ WriteIgnored s t)
  ∧ (∀ (s : State) (v : Word), ∃ t, exec (.faultStatusClear v) s = .next t ∧ t.reg = s.reg
      ∧ ∃ who, t.staged = s.staged ++ [⟨s.now + 1, who, .clear A.FAULT_STATUS (v &&& (regInfo A.FAULT_STATUS).w1c), false⟩])
  ∧ (∀ (s : State) (v : Word), ∃ t, exec (.wakeStatusClear v) s = .next t
      ∧ t.isl = { s.isl with c9 := s.isl.c9 ++ [.clear (v &&& 0x3fff)] } ∧ t.reg = s.reg)
  ∧ ∀ s : State, ∃ t, exec .rtStatusWakeClear s = .next t ∧ t.isl = { s.isl with c9 := s.isl.c9 ++ [.wake false] } ∧ t.reg = s.reg

/-- R429: a read of a register with RC fields returns it and clears all of them and leaves every other bit of it and every other
register. -/
def Obligations.ReadsClear : Prop :=
  (∀ s : State, ∃ t, exec .dieLinkStatusRead s = .next t ∧ t.fget A.DIE_LINK_STATUS F.DIE_LINK_STATUS.RETRY = 0
      ∧ RegBits [bitsOf A.DIE_LINK_STATUS [F.DIE_LINK_STATUS.RETRY]] s t)
  ∧ (∀ s : State, ∃ t, exec .tickStatusRead s = .next t ∧ t.fget A.TICK_STATUS F.TICK_STATUS.LEAPS = 0
      ∧ RegBits [bitsOf A.TICK_STATUS [F.TICK_STATUS.LEAPS]] s t)
  ∧ (∀ s : State, ∃ t, exec .tickBudgetRead s = .next t ∧ t.rd A.TICK_BUDGET = 0 ∧ RegBits [wholeReg A.TICK_BUDGET] s t)
  ∧ (∀ s : State, (∃ t, exec (.ringErrRead .a) s = .next t ∧ t.rd A.RING_ERR_A = 0 ∧ RegBits [wholeReg A.RING_ERR_A] s t)
      ∧ ∃ t, exec (.ringErrRead .b) s = .next t ∧ t.rd A.RING_ERR_B = 0 ∧ RegBits [wholeReg A.RING_ERR_B] s t)
  ∧ (∀ (s : State) (b : Fin 12),
      (∃ t, exec (.respHitsRead b) s = .next t ∧ t.rd (A.RESP_HITS b) = 0 ∧ RegBits [wholeReg (A.RESP_HITS b)] s t)
      ∧ (∃ t, exec (.respErrsRead b) s = .next t ∧ t.rd (A.RESP_ERRS b) = 0 ∧ RegBits [wholeReg (A.RESP_ERRS b)] s t)
      ∧ ∃ t, exec (.respFirstmissRead b) s = .next t ∧ t.rd (A.RESP_FIRSTMISS b) = 0
        ∧ RegBits [wholeReg (A.RESP_FIRSTMISS b)] s t)
  ∧ (∀ (s : State) (c : Fin 768) (h : Side), ∃ t, exec (.chEdgeStatRead c h) s = .next t
      ∧ t.fget (A.CH_EDGE_STAT c) F.CH_EDGE_STAT.MISSED = 0 ∧ RegBits [bitsOf (A.CH_EDGE_STAT c) [F.CH_EDGE_STAT.MISSED]] s t)
  ∧ (∀ (s : State) (b : Fin 12) (k : Fin 8), ∃ t, exec (.pmcStatRead b k) s = .next t
      ∧ t.fget (A.PMC_STAT b k) F.PMC_STAT.RESTARTS = 0 ∧ RegBits [bitsOf (A.PMC_STAT b k) [F.PMC_STAT.RESTARTS]] s t)
  ∧ (∀ (s : State) (b : Fin 12) (j : Fin 2), ∃ t, exec (.aeStatusRead b j) s = .next t
      ∧ t.fget (A.AE_STATUS b j) F.AE_STATUS.REC_LOST = 0 ∧ RegBits [bitsOf (A.AE_STATUS b j) [F.AE_STATUS.REC_LOST]] s t)
  ∧ (∀ (s : State) (h : Side) (cyc a : Nat), s.ring.timed = [] →
      a ∈ [A.DIE_LINK_STATUS, A.TICK_STATUS, A.TICK_BUDGET, A.RING_ERR_A, A.RING_ERR_B, A.RT_STATUS] →
      (s.readWord h cyc a).2 = s.rd a ∧ (s.readWord h cyc a).1.rd a = s.rd a &&& ~~~(regInfo a).rc
        ∧ RegBits [(a, (regInfo a).rc)] s (s.readWord h cyc a).1)
  ∧ ∀ s : State, ∃ t, exec .rtStatusRead s = .next t ∧ t.fget A.RT_STATUS F.RT_STATUS.SUPPR = 0
      ∧ t.fget A.RT_STATUS F.RT_STATUS.NOTE_LOST = 0
      ∧ RegBits [bitsOf A.RT_STATUS [F.RT_STATUS.SUPPR, F.RT_STATUS.NOTE_LOST]] s t

/-- R102, R430, R57, R114, R200: a read of the first word of a latched pair latches the second for the host that reads it, and
no word of the other host; a read of the second word returns what that host has latched. Of `TICK_COUNT_LO` both are the
timestamp of the CORE cycle; a read of `CH_EDGE_LO` takes the oldest entry off the FIFO, and finds word 0 zero and word 1
invalid when it is empty. -/
def Obligations.ReadsLatchTheSecondWord : Prop :=
  (∀ (s : State) (h : Side) (cyc : Nat), ∃ t, exec (.tickCountLoRead h cyc) s = .next t
      ∧ t.latched2 h A.TICK_COUNT_HI = (s.stamp (cycleFine cyc) false).word1
      ∧ (s.readWord h cyc A.TICK_COUNT_LO).2 = (s.stamp (cycleFine cyc) false).word0
      ∧ (∀ g a, g ≠ h → t.latched2 g a = s.latched2 g a) ∧ t.reg = s.reg)
  ∧ (∀ (s : State) (c : Fin 768) (h : Side) (e : Edge) (rest : List Edge), (s.ch c).edges = e :: rest → e.kind < 4 →
      rest.length < 32 → ∃ t, exec (.chEdgeLoRead c h) s = .next t ∧ (t.ch c).edges = rest
      ∧ t.latched2 h (A.CH_EDGE_HI c) = e.st.word1 ∧ (s.readWord h 0 (A.CH_EDGE_LO c)).2 = e.st.word0
      ∧ t.fget (A.CH_EDGE_STAT c) F.CH_EDGE_STAT.KIND = e.kind ∧ t.fget (A.CH_EDGE_STAT c) F.CH_EDGE_STAT.LEVEL = rest.length
      ∧ (∀ g a, g ≠ h → t.latched2 g a = s.latched2 g a)
      ∧ RegBits [bitsOf (A.CH_EDGE_STAT c) [F.CH_EDGE_STAT.KIND, F.CH_EDGE_STAT.LEVEL]] s t)
  ∧ (∀ (s : State) (c : Fin 768) (h : Side), (s.ch c).edges = [] → ∃ t, exec (.chEdgeLoRead c h) s = .next t
      ∧ t.latched2 h (A.CH_EDGE_HI c) = 0x80000 ∧ (s.readWord h 0 (A.CH_EDGE_LO c)).2 = 0
      ∧ (∀ g a, g ≠ h → t.latched2 g a = s.latched2 g a) ∧ t.reg = s.reg ∧ t.chan = s.chan)
  ∧ (∀ (s : State) (c : Fin 768) (h : Side), ∃ t, exec (.chPmuResRead c h) s = .next t
      ∧ t.latched2 h (A.CH_PMU_RESINFO c) = (s.ch c).pmuInfo ∧ (s.readWord h 0 (A.CH_PMU_RES c)).2 = s.rd (A.CH_PMU_RES c)
      ∧ (∀ g a, g ≠ h → t.latched2 g a = s.latched2 g a)
      ∧ F.CH_PMU_RESINFO.NEW.on (t.ch c).pmuInfo = false ∧ t.reg = s.reg)
  ∧ (∀ (s : State) (h : Side) (cyc a : Nat), a = A.TICK_COUNT_HI
        ∨ (∃ c : Fin 768, a = A.CH_EDGE_HI c ∨ a = A.CH_VIGIL_TS_HI c ∨ a = A.CH_PMU_RESINFO c) →
      s.readWord h cyc a = (s, s.latched2 h a))
  ∧ ∀ (s : State) (c : Fin 768) (h : Side), ∃ t, exec (.chVigilTsLoRead c h) s = .next t
      ∧ (s.readWord h 0 (A.CH_VIGIL_TS_LO c)).2 = s.rd (A.CH_VIGIL_TS_LO c)
      ∧ t.latched2 h (A.CH_VIGIL_TS_HI c) = (s.ch c).vTs1 ∧ (∀ g a, g ≠ h → t.latched2 g a = s.latched2 g a)
      ∧ t.reg = s.reg ∧ t.chan = s.chan

/-! ### The router (R263, R273, R275) -/

/-- R273, R275: ROUTER_TIMER in a tick in which the timer is due is its event: of an absolute timer where the count is a multiple
of the period, of a relative one a whole number of periods after its start. In any other tick, with EN clear, and in a router under
reload it does nothing. TIMED_COMMAND_DUE in the tick that its command names takes the command off the list and is its event, and does
nothing in any other tick or for a command that does not wait. -/
def Obligations.TimersAndTimedCommands : Prop :=
  (∀ (s : State) (k : Fin 4), F.RT_TMR.EN.on (s.eff (A.RT_TMR k)) = true → F.RT_TMR.PERIOD.get (s.eff (A.RT_TMR k)) ≠ 0 →
      s.rt.reload = false →
      (F.RT_TMR.ABS.on (s.eff (A.RT_TMR k)) = true ∧ F.RT_TMR.PERIOD.get (s.eff (A.RT_TMR k)) ∣ s.clk.count
        ∨ F.RT_TMR.ABS.on (s.eff (A.RT_TMR k)) = false
          ∧ ∃ n, 0 < n ∧ s.now = Tab.get (fun _ => 0) s.rt.tmr k + n * F.RT_TMR.PERIOD.get (s.eff (A.RT_TMR k))) →
      ∃ t, exec (.routerTimer k) s = .next t
        ∧ t.rt.events = s.rt.events ++ [⟨evTimer, k, 0, s.now, s.tickStamp, 0⟩] ∧ t.reg = s.reg)
  ∧ (∀ (s : State) (k : Fin 4), F.RT_TMR.EN.on (s.eff (A.RT_TMR k)) = false ∨ s.rt.reload = true →
      exec (.routerTimer k) s = .next s)
  ∧ (∀ (s : State) (k : Fin 4), F.RT_TMR.ABS.on (s.eff (A.RT_TMR k)) = true →
      ¬ F.RT_TMR.PERIOD.get (s.eff (A.RT_TMR k)) ∣ s.clk.count → exec (.routerTimer k) s = .next s)
  ∧ (∀ (s : State) (k : Fin 4), F.RT_TMR.ABS.on (s.eff (A.RT_TMR k)) = false →
      (¬ ∃ n, 0 < n ∧ s.now = Tab.get (fun _ => 0) s.rt.tmr k + n * F.RT_TMR.PERIOD.get (s.eff (A.RT_TMR k))) →
      exec (.routerTimer k) s = .next s)
  ∧ (∀ (s : State) (code : Fin 16) (at_ : Nat), (code.val, at_) ∉ s.rt.cmds ∨ at_ ≠ s.clk.count % 2 ^ 36 →
      exec (.timedCommandDue code at_) s = .next s)
  ∧ ∀ (s : State) (code : Fin 16) (at_ : Nat), (code.val, at_) ∈ s.rt.cmds → at_ = s.clk.count % 2 ^ 36 →
      ∃ t, exec (.timedCommandDue code at_) s = .next t
        ∧ t.rt.events = s.rt.events ++ [⟨evRing, 0, code, s.now, s.tickStamp, 0⟩]
        ∧ t.rt.cmds = s.rt.cmds.erase (code.val, at_) ∧ t.reg = s.reg

/-! ### Seasons, the battery store's records and die samples (R67 to R76, R333, R351, R354, R412, R431, R459, R461) -/

/-- R67, R75, R350, R351, R353, R459: SEASON_INTERVAL in a season that has reached an interval other than 0, while the tick runs,
makes a season boundary with cause bit 3, and else does nothing; the first cause of a boundary is the season event and brings AS values
that wait into force. TRACEABILITY_RECORD_WRITE writes the 16 words of the oldest record, from its first tick on; SEASONS_COUNTER_WRITE,
from its tick on, and POWERED_HOURS_INCREMENT after an hour in RUNNING write a counter and its complement; before, they do nothing.
A record that is read back wrong, or that a failed store does not take, sets REC_LOST and frees its place; a word read back wrong fails
the store, and no other word changes. -/
def Obligations.SeasonsAndCounters : Prop :=
  (∀ s : State, s.sea.open_ = true → s.clk.running = true → s.eget A.SEASON_CTL F.SEASON_CTL.INTERVAL ≠ 0 →
      s.eget A.SEASON_CTL F.SEASON_CTL.INTERVAL ≤ s.sea.len → ∃ t, exec .seasonInterval s = .next t
        ∧ t.sea.due = s.sea.due ||| 8 ∧ t.clk = s.clk
        ∧ (s.sea.due ≠ 0 → t = { s with sea := { s.sea with due := s.sea.due ||| 8 } })
        ∧ (s.sea.due = 0 → t.sea.oldRef = s.eff A.REF_DECLARE ∧ t.sea.oldChuck = s.eff A.CHUCK_DECLARE
          ∧ (∃ l, t.rt.events = l ++ [⟨evSeason, 0, 0, s.now, s.tickStamp, 0⟩])
          ∧ ∀ due who a v adm, a ∈ [A.REF_DECLARE, A.CHUCK_DECLARE] → s.staged = [⟨due, who, .force a v, adm⟩] → due ≤ s.now →
            t.eff a = v ∧ t.staged = []))
  ∧ (∀ s : State, s.sea.open_ = false ∨ s.clk.running = false ∨ s.eget A.SEASON_CTL F.SEASON_CTL.INTERVAL = 0
      ∨ s.sea.len < s.eget A.SEASON_CTL F.SEASON_CTL.INTERVAL → exec .seasonInterval s = .next s)
  ∧ (∀ (s : State) (w : Nat) (r : List Word) (rest : List (Nat × List Word)), s.sea.recs = (w, r) :: rest → w ≤ s.now →
      r.length = 16 → s.bsFailed = false →
      ∃ t, exec (.traceabilityRecordWrite true) s = .next t ∧ t.sea = { s.sea with recs := rest }
        ∧ (∀ i, i < 16 → t.bsRd (bsRecord (r.headD 0).toNat + i) = r.getD i 0)
        ∧ (∀ i, i < bsRecord (r.headD 0).toNat ∨ bsRecord (r.headD 0).toNat + 16 ≤ i → t.bsRd i = s.bsRd i)
        ∧ (rest = [] → t.fon A.SEASON_STATUS F.SEASON_STATUS.REC_PENDING = false)
        ∧ RegBits [bitsOf A.SEASON_STATUS [F.SEASON_STATUS.REC_PENDING], bitsOf A.BS_STATUS [F.BS_STATUS.BUSY]] s t)
  ∧ (∀ (s : State) (good : Bool) (w : Nat) (r : List Word) (rest : List (Nat × List Word)), s.sea.recs = (w, r) :: rest →
      w ≤ s.now → s.bsFailed = true ∨ good = false →
      ∃ t, exec (.traceabilityRecordWrite good) s = .next t ∧ t.sea = { s.sea with recs := rest }
        ∧ t.fon A.SEASON_STATUS F.SEASON_STATUS.REC_LOST = true ∧ t.fon A.BS_STATUS F.BS_STATUS.FAILED = true
        ∧ (s.bsFailed = false → t.fon A.FAULT_STATUS F.FAULT_STATUS.STORE = true)
        ∧ ∀ i, s.bsFailed = true ∨ i ≠ bsRecord (r.headD 0).toNat → t.bsRd i = s.bsRd i)
  ∧ (∀ (s : State) (good : Bool), (s.sea.recs = [] ∨ ∃ w r rest, s.sea.recs = (w, r) :: rest ∧ s.now < w) →
      exec (.traceabilityRecordWrite good) s = .next s)
  ∧ (∀ s : State, s.sea.seasonDue = true → s.sea.seasonFrom ≤ s.now → s.bsFailed = false →
      ∃ t, exec (.seasonsCounterWrite true) s = .next t
        ∧ t.bsRd bsSeasons = s.rd A.SEASON_COUNT ∧ t.bsRd (bsSeasons + 1) = ~~~(s.rd A.SEASON_COUNT)
        ∧ (∀ i, i ≠ bsSeasons → i ≠ bsSeasons + 1 → t.bsRd i = s.bsRd i) ∧ t.sea = { s.sea with seasonDue := false }
        ∧ t.reg = s.reg)
  ∧ (∀ s : State, s.sea.seasonDue = true → s.sea.seasonFrom ≤ s.now → s.bsFailed = false →
      ∃ t, exec (.seasonsCounterWrite false) s = .next t ∧ t.sea = { s.sea with seasonDue := false }
        ∧ t.fon A.BS_STATUS F.BS_STATUS.FAILED = true ∧ t.fon A.FAULT_STATUS F.FAULT_STATUS.STORE = true
        ∧ ∀ i, i ≠ bsSeasons → t.bsRd i = s.bsRd i)
  ∧ (∀ (s : State) (good : Bool), s.sea.seasonDue = false ∨ s.now < s.sea.seasonFrom →
      exec (.seasonsCounterWrite good) s = .next s)
  ∧ (∀ s : State, hourTicks ≤ s.unit.runTicks → s.bsFailed = false → ∃ t, exec .poweredHoursIncrement s = .next t
        ∧ (t.bsRd bsHours).toNat = min ((s.bsRd bsHours).toNat + 1) (2 ^ 36 - 1) ∧ t.bsRd (bsHours + 1) = ~~~(t.bsRd bsHours)
        ∧ (∀ i, i ≠ bsHours → i ≠ bsHours + 1 → t.bsRd i = s.bsRd i)
        ∧ t.unit = { s.unit with runTicks := s.unit.runTicks - hourTicks } ∧ t.reg = s.reg)
  ∧ ∀ s : State, s.unit.runTicks < hourTicks → exec .poweredHoursIncrement s = .next s

/-- R412, R431, R461: TEMPERATURE_SAMPLE, while CORE runs the tick and in a tick in which the dies are sampled, shows the sample, sets
HOT from 125.0 degrees on and clears it up to 115.0, and enters the sample in the minimum and maximum of a season under way; else it
does nothing. R333, R354: TSLOT_INVALIDATION is one reserved cycle of the sequence that a change of the slots starts: the first writes
`BS_TSLOT`, each of the 58 behind it takes the VALID bit of every changed slot from 16 elements, and the last writes the complement and
ends it; before its tick, beside a commit and in a failed store it does nothing. -/
def Obligations.SamplesAndSlots : Prop :=
  (∀ (s : State) (d : Fin 8) (v : Int), s.coreRuns = true → s.sampleTick = true → ∃ t, exec (.temperatureSample d v) s = .next t
      ∧ t.fget (tempReg d) F.TEMP_CORE.TEMP = untwos 12 v ∧ t.fon (tempReg d) F.TEMP_CORE.VALID = true
      ∧ (2000 ≤ v → t.fon (tempReg d) F.TEMP_CORE.HOT = true) ∧ (v ≤ 1840 → t.fon (tempReg d) F.TEMP_CORE.HOT = false)
      ∧ (1840 < v → v < 2000 → t.fon (tempReg d) F.TEMP_CORE.HOT = s.fon (tempReg d) F.TEMP_CORE.HOT)
      ∧ t.cal.temps = s.cal.temps.set d (some v)
      ∧ (s.sea.open_ = true → t.sea.tmin = limitList min s.sea.tmin d v ∧ t.sea.tmax = limitList max s.sea.tmax d v)
      ∧ RegBits [wholeReg (tempReg d), bitsOf (A.SYN_CAL 0) [F.SYN_CAL.DUE], bitsOf (A.SYN_CAL 1) [F.SYN_CAL.DUE],
          bitsOf A.CAL_EPOCH [F.CAL_EPOCH.SETTLED]] s t)
  ∧ (∀ (s : State) (d : Fin 8) (v : Int), s.coreRuns = false ∨ s.sampleTick = false → exec (.temperatureSample d v) s = .next s)
  ∧ (∀ s : State, s.cal.tslotDue ≠ 0 → s.cal.commit ≠ 2 → s.bsFailed = false → s.cal.tslotAt ≤ s.now →
      ∃ t, exec .tslotInvalidation s = .next t
      ∧ (s.cal.tslotPos = 0 → t.bsRd bsTslot = s.eff A.CAL_TSLOT ∧ (∀ i, i ≠ bsTslot → t.bsRd i = s.bsRd i))
      ∧ (1 ≤ s.cal.tslotPos → s.cal.tslotPos ≤ tslotCycles →
        (∀ e, e < 920 → e / 16 = s.cal.tslotPos - 1 →
          fldValid.get (t.bsRd (bsEpoch e)) = fldValid.get (s.bsRd (bsEpoch e)) &&& (15 - s.cal.tslotDue % 16))
        ∧ ∀ i, (∀ e, e < 920 → e / 16 = s.cal.tslotPos - 1 → i ≠ bsEpoch e) → t.bsRd i = s.bsRd i)
      ∧ (s.cal.tslotPos ≤ tslotCycles → t.reg = s.reg
        ∧ t.cal = { s.cal with tslotAt := s.now + 1, tslotPos := s.cal.tslotPos + 1 })
      ∧ (tslotCycles < s.cal.tslotPos → t.bsRd bsTslotN = ~~~(s.eff A.CAL_TSLOT) ∧ (∀ i, i ≠ bsTslotN → t.bsRd i = s.bsRd i)
        ∧ t.cal = { s.cal with tslotDue := 0, tslotPos := 0, tslotAt := s.now + 1 } ∧ RegBits [bitsOf A.BS_STATUS [F.BS_STATUS.BUSY]] s t))
  ∧ ∀ s : State, s.cal.tslotDue = 0 ∨ s.cal.commit = 2 ∨ s.bsFailed = true ∨ s.now < s.cal.tslotAt →
      exec .tslotInvalidation s = .next s

/-! ### Writes that may ask the ledger (R34, R39, R46, R48, R78, R139, R155, R186) -/

/-- What becomes of a request with one effect: with nothing to charge the effect waits for the boundary of R46, unless one that prevails
does already; else it joins the ledger's queue, as a request of its own, or in the one request of the rule that asks (R48). -/
def Sys2Proof.Machine.Asked (key : ReqKey) (e : Eff) (cyc : Nat) (who : Writer) (x t : State) : Prop :=
  t.led.committed = x.led.committed
    ∧ (x.chargeOf [e] = 0 → (∀ q ∈ x.staged, q.due = x.dueAt cyc → q.eff.sameTarget e = true → writerPrevails who q.who = true) →
        ⟨x.dueAt cyc, who, e, false⟩ ∈ t.staged)
    ∧ (0 < x.chargeOf [e] → t.staged = x.staged
        ∧ (∃ r ∈ t.led.queue, r.key = queueKey key who ∧ e ∈ r.effs)
        ∧ ((∀ n, who ≠ .router n) →
          ∃ r ∈ t.led.queue, r.key = key ∧ r.effs = [e] ∧ r.who = who ∧ r.cls = classOf who ∧ r.aged = false))

/-- A write whose request finds the shared queue full is discarded and counted (R48). -/
def Sys2Proof.Machine.QueueWasFull (s t : State) : Prop :=
  t.led = s.led ∧ t.staged = s.staged
    ∧ t.fget A.TICK_BUDGET F.TICK_BUDGET.LEDGER_FULL
      = min (s.fget A.TICK_BUDGET F.TICK_BUDGET.LEDGER_FULL + 1) F.TICK_BUDGET.LEDGER_FULL.max
    ∧ RegBits [bitsOf A.TICK_BUDGET [F.TICK_BUDGET.LEDGER_FULL]] s t

/-- R34, R46, R48, R78, R139, R155, R186, R325, R373, R412: CH_MODE_WRITE, PMU_CTL_WRITE, VEC_PERIOD_WRITE and BANK_MODE_REQUEST with an
accepted value, out of a reload, read back at once and ask the ledger. A value that is not accepted is ignored, a reload ignores the
write with WR_IGN, and a host's write that finds the shared queue full is discarded and counted in LEDGER_FULL. A CH_MODE of a channel
that the calibration engine holds waits for the release; a request for ACTIVE while a die fault condition holds waits for its end; a
BANK_MODE that a request of the same boundary outranks leaves no trace. -/
def Obligations.WritesThatAskTheLedger : Prop :=
  (∀ (s : State) (c : Fin 768) (w : Wr) (e : Eff), e = .force (A.CH_MODE c) (w.val &&& (regInfo (A.CH_MODE c)).rw) →
      ∃ t, exec (.chModeWrite c w) s = .next t
      ∧ ((s.bk (bankOf c)).reload = true → WriteIgnored s t)
      ∧ ((s.bk (bankOf c)).reload = false → accepts (A.CH_MODE c) w.val = false → t = s)
      ∧ ((s.bk (bankOf c)).reload = false → accepts (A.CH_MODE c) w.val = true → (s.ch c).held = true →
        t.rd (A.CH_MODE c) = w.val &&& (regInfo (A.CH_MODE c)).rw ∧ t.fon (A.CH_STATUS c) F.CH_STATUS.MODE_PEND = true
        ∧ (t.ch c).modeWait = some (w.val &&& (regInfo (A.CH_MODE c)).rw, w.who) ∧ t.led = s.led ∧ t.staged = s.staged
        ∧ RegBits [wholeReg (A.CH_MODE c), bitsOf (A.CH_STATUS c) [F.CH_STATUS.MODE_PEND]] s t)
      ∧ ((s.bk (bankOf c)).reload = false → accepts (A.CH_MODE c) w.val = true → (s.ch c).held = false →
        (s.queueFull (classOf w.who) (.reg (A.CH_MODE c)) [e] = true → QueueWasFull s t)
        ∧ (s.queueFull (classOf w.who) (.reg (A.CH_MODE c)) [e] = false →
          t.rd (A.CH_MODE c) = w.val &&& (regInfo (A.CH_MODE c)).rw ∧ t.fon (A.CH_STATUS c) F.CH_STATUS.MODE_PEND = true
          ∧ Asked (.reg (A.CH_MODE c)) e (if s.admittedMode c then Config.lastWriteCycle + 1 else w.cyc) w.who
              (s.wr (A.CH_MODE c) (w.val &&& (regInfo (A.CH_MODE c)).rw)) t
          ∧ RegBits [wholeReg (A.CH_MODE c), bitsOf (A.CH_STATUS c) [F.CH_STATUS.MODE_PEND]] s t)))
  ∧ (∀ (s : State) (c : Fin 768) (w : Wr) (e : Eff), e = .force (A.CH_PMU_CTL c) (w.val &&& (regInfo (A.CH_PMU_CTL c)).rw) →
      ∃ t, exec (.pmuCtlWrite c w) s = .next t
      ∧ ((s.bk (bankOf c)).reload = true → WriteIgnored s t)
      ∧ ((s.bk (bankOf c)).reload = false → accepts (A.CH_PMU_CTL c) w.val = false → t = s)
      ∧ ((s.bk (bankOf c)).reload = false → accepts (A.CH_PMU_CTL c) w.val = true →
        (s.queueFull (classOf w.who) (.reg (A.CH_PMU_CTL c)) [e] = true → QueueWasFull s t)
        ∧ (s.queueFull (classOf w.who) (.reg (A.CH_PMU_CTL c)) [e] = false →
          t.rd (A.CH_PMU_CTL c) = w.val &&& (regInfo (A.CH_PMU_CTL c)).rw
          ∧ t.fon (A.CH_PMU_STATUS c) F.CH_PMU_STATUS.CTL_PEND = decide (0 < s.chargeOf [e])
          ∧ Asked (.reg (A.CH_PMU_CTL c)) e w.cyc w.who (s.wr (A.CH_PMU_CTL c) (w.val &&& (regInfo (A.CH_PMU_CTL c)).rw)) t
          ∧ RegBits [wholeReg (A.CH_PMU_CTL c), bitsOf (A.CH_PMU_STATUS c) [F.CH_PMU_STATUS.CTL_PEND]] s t)))
  ∧ (∀ (s : State) (b : Fin 12) (w : Wr) (e : Eff), e = .force (A.VEC_PERIOD b) (w.val &&& (regInfo (A.VEC_PERIOD b)).rw) →
      ∃ t, exec (.vecPeriodWrite b w) s = .next t
      ∧ ((s.bk b).reload = true → WriteIgnored s t)
      ∧ ((s.bk b).reload = false → accepts (A.VEC_PERIOD b) w.val = false → t = s)
      ∧ ((s.bk b).reload = false → accepts (A.VEC_PERIOD b) w.val = true →
        (s.queueFull (classOf w.who) (.reg (A.VEC_PERIOD b)) [e] = true → QueueWasFull s t)
        ∧ (s.queueFull (classOf w.who) (.reg (A.VEC_PERIOD b)) [e] = false →
          t.rd (A.VEC_PERIOD b) = w.val &&& (regInfo (A.VEC_PERIOD b)).rw
          ∧ Asked (.reg (A.VEC_PERIOD b)) e w.cyc w.who (s.wr (A.VEC_PERIOD b) (w.val &&& (regInfo (A.VEC_PERIOD b)).rw)) t
          ∧ RegBits [wholeReg (A.VEC_PERIOD b)] s t)))
  ∧ ∀ (s : State) (b : Fin 12) (w : Wr) (req : Nat), req = F.BANK_MODE.REQ.get w.val → ∃ t, exec (.bankModeRequest b w) s = .next t
      ∧ ((s.bk b).reload = true → WriteIgnored s t)
      ∧ ((s.bk b).reload = false → accepts (A.BANK_MODE b) w.val = false ∨ s.outranked (A.BANK_MODE b) (s.dueAt w.cyc) w.who = true →
        t = s)
      ∧ ((s.bk b).reload = false → accepts (A.BANK_MODE b) w.val = true → s.outranked (A.BANK_MODE b) (s.dueAt w.cyc) w.who = false →
        (req = bankActive ∧ s.activeBarred b = true →
          (t.bk b).dieWait = some w.who ∧ t.staged = s.staged ∧ t.fon (A.BANK_STATUS b) F.BANK_STATUS.MODE_PEND = true
          ∧ t.fget (A.BANK_MODE b) F.BANK_MODE.REQ = req
          ∧ RegBits [wholeReg (A.BANK_MODE b), bitsOf (A.BANK_STATUS b) [F.BANK_STATUS.MODE_PEND]] s t)
        ∧ (¬(req = bankActive ∧ s.activeBarred b = true) →
          (s.queueFull (classOf w.who) (.bank b) [.bank b req] = true → QueueWasFull s t)
          ∧ (s.queueFull (classOf w.who) (.bank b) [.bank b req] = false →
            (t.bk b).dieWait = none ∧ t.fon (A.BANK_STATUS b) F.BANK_STATUS.MODE_PEND = true
            ∧ t.fget (A.BANK_MODE b) F.BANK_MODE.REQ = req ∧ Asked (.bank b) (.bank b req) w.cyc w.who s t
            ∧ RegBits [wholeReg (A.BANK_MODE b), bitsOf (A.BANK_STATUS b) [F.BANK_STATUS.MODE_PEND]] s t)))

/-! ### The channel (R83, R85, R88 to R96, R98, R101, R103, R184) -/

/-- The LEVEL bits of the trigger lanes. -/
def Sys2Proof.Machine.laneLevels : List (Nat × Word) := (List.range 16).map (fun n => bitsOf (A.LANE_CTL n) [F.LANE_CTL.LEVEL])

/-- The event of a class, source and kind at an instant, measured or not: of the current tick, or of the tick before where its instant
lies there. -/
def Sys2Proof.Machine.evAt (s : State) (cls idx kind : Nat) (p : Nat × Bool) : Ev :=
  ⟨cls, idx, kind, if s.clk.start ≤ p.1 then s.now else s.now - 1, s.stampAt p.1 p.2, 0⟩

/-- R83, R184, R201: DRIVER_FAULT of a channel in PATTERN or STATIC, after 16 limiting ticks in a row and with no fault yet, sets
DRV_FAULT and DRV_LIMIT, makes the driver high-impedance, turns its load off and is an event of the tick before; CLAMP_ENTRY of a
forcing channel that no clamp holds sets CLAMP and CLAMPED and is the event of class PMU and kind 2. Else they do nothing.
To which tick the event of a driver fault belongs is the model's reading (assumption 23), and so is that self-test does not keep it
from the router (assumption 56). -/
def Obligations.DriversAndClamps : Prop :=
  (∀ (s : State) (c : Fin 768), s.funcEff c = fnPattern ∨ s.funcEff c = fnStatic → 16 ≤ (s.ch c).limTicks →
      s.fon (A.CH_STATUS c) F.CH_STATUS.DRV_FAULT = false → ∃ t, exec (.driverFault c) s = .next t
      ∧ t.fon (A.CH_STATUS c) F.CH_STATUS.DRV_FAULT = true ∧ t.fon (A.CH_STATUS c) F.CH_STATUS.DRV_LIMIT = true
      ∧ t.ch c = { s.ch c with drive := .hiz, load := false } ∧ (∀ k, k ≠ c.val → t.ch k = s.ch k)
      ∧ (∃ e, t.rt.events = s.rt.events ++ [e] ∧ e.cls = evChan ∧ e.idx = c.val ∧ e.kind = 8 ∧ e.tick = s.now - 1)
      ∧ RegBits [bitsOf (A.CH_STATUS c) [F.CH_STATUS.DRV_FAULT, F.CH_STATUS.DRV_LIMIT]] s t)
  ∧ (∀ (s : State) (c : Fin 768), s.funcEff c ≠ fnPattern ∧ s.funcEff c ≠ fnStatic ∨ (s.ch c).limTicks < 16
      ∨ s.fon (A.CH_STATUS c) F.CH_STATUS.DRV_FAULT = true → exec (.driverFault c) s = .next s)
  ∧ (∀ (s : State) (c : Fin 768) (i : Instant), (s.ch c).pmuOn = true → s.fon (A.CH_PMU_STATUS c) F.CH_PMU_STATUS.CLAMP = false →
      ∃ t, exec (.clampEntry c i) s = .next t ∧ t.fon (A.CH_PMU_STATUS c) F.CH_PMU_STATUS.CLAMP = true
      ∧ t.fon (A.CH_PMU_STATUS c) F.CH_PMU_STATUS.CLAMPED = true
      ∧ t.rt.events = s.rt.events ++ [⟨evPmu, c, 2, s.now, s.stampOf i, 0⟩]
      ∧ RegBits [bitsOf (A.CH_PMU_STATUS c) [F.CH_PMU_STATUS.CLAMP, F.CH_PMU_STATUS.CLAMPED]] s t)
  ∧ ∀ (s : State) (c : Fin 768) (i : Instant), (s.ch c).pmuOn = false ∨ s.fon (A.CH_PMU_STATUS c) F.CH_PMU_STATUS.CLAMP = true →
      exec (.clampEntry c i) s = .next s

/-- What a raw crossing leaves of a channel's edges: nothing for a channel whose comparator reaches no consumer; a missed edge
while its converter re-arms; else an entry in the FIFO, where edge capture takes it and there is room. -/
def Sys2Proof.Machine.CrossingTaken (s : State) (c t : Nat) (upper rise discarded : Bool) (u : State) : Prop :=
  (s.live c = false → (u.ch c).edges = (s.ch c).edges ∧ u.rd (A.CH_EDGE_STAT c) = s.rd (A.CH_EDGE_STAT c))
    ∧ (s.live c = true → s.rearming c t upper = true → (u.ch c).edges = (s.ch c).edges
      ∧ u.fget (A.CH_EDGE_STAT c) F.CH_EDGE_STAT.MISSED
        = min (s.fget (A.CH_EDGE_STAT c) F.CH_EDGE_STAT.MISSED + 1) F.CH_EDGE_STAT.MISSED.max)
    ∧ (s.rearming c t upper = false → (if upper then (u.ch c).stampedH else (u.ch c).stampedL) = some t)
    ∧ (s.live c = true → s.rearming c t upper = false → s.captures c 1 (edgeKind upper rise) = true → discarded = false →
      (s.ch c).edges.length < Config.edgeDepth →
      (u.ch c).edges = (s.ch c).edges ++ [⟨edgeKind upper rise, s.stampAt t true⟩])
    ∧ (s.live c = true → s.rearming c t upper = false → s.captures c 1 (edgeKind upper rise) = false →
      (u.ch c).edges = (s.ch c).edges)

/-- R85, R88 to R92, R98, R101, R103: RAW_CROSSING comes after what the channel's bank does up to its instant (R140). Of an
active comparator it is the input from that instant on: H is 1 above its threshold's band and L below its own, and within the
band each stays. An output that changes is a crossing: missed in re-arm, and else queued where edge capture takes it; where both
change, L comes first if the input rises and H if it falls. FILTERED_TRANSITION at a decision whose window gives a state takes
that state: without an event where it ends INBAND_START, and else with the event of each edge it passes, at the edge's instant,
and of the window it enters, where the comparator reaches its consumers. A window that gives no state, the state as it is, and a
comparator that is not active do nothing.
R90's re-arm runs from the last stamped crossing by the model's reading (assumption 55). -/
def Obligations.ComparatorEvents : Prop :=
  (∀ (s u : State) (c : Fin 768) (level : Int) (fine : Nat) (discarded : Bool) (hl : Bool × Bool),
      u = s.bankAdvance (bankOf c) (s.instant fine) → (u.ch c).active = true →
      hl = u.cmpNext c false ((u.ch c).rawH, (u.ch c).rawL) (u.cmpInput c level) →
      ∃ t, exec (.rawCrossing c level fine discarded) s = .next t
      ∧ (t.ch c).rawH = hl.1 ∧ (t.ch c).rawL = hl.2 ∧ (t.ch c).level = level
      ∧ (hl.1 = (u.ch c).rawH → hl.2 = (u.ch c).rawL → (t.ch c).edges = (u.ch c).edges
        ∧ t.rd (A.CH_EDGE_STAT c) = u.rd (A.CH_EDGE_STAT c))
      ∧ (hl.1 ≠ (u.ch c).rawH → hl.2 = (u.ch c).rawL → CrossingTaken u c (u.instant fine) true hl.1 discarded t)
      ∧ (hl.1 = (u.ch c).rawH → hl.2 ≠ (u.ch c).rawL → CrossingTaken u c (u.instant fine) false (!hl.2) discarded t)
      ∧ (hl.1 ≠ (u.ch c).rawH → hl.2 ≠ (u.ch c).rawL → u.live c = true → discarded = false →
        u.rearming c (u.instant fine) true = false → u.rearming c (u.instant fine) false = false →
        u.captures c 1 (edgeKind true hl.1) = true → u.captures c 1 (edgeKind false (!hl.2)) = true →
        (u.ch c).edges.length + 2 ≤ Config.edgeDepth → (t.ch c).edges = (u.ch c).edges
          ++ (if (u.pointAt c (u.instant fine)).level ≤ u.cmpInput c level
            then [⟨edgeKind false (!hl.2), u.stampAt (u.instant fine) true⟩, ⟨edgeKind true hl.1, u.stampAt (u.instant fine) true⟩]
            else [⟨edgeKind true hl.1, u.stampAt (u.instant fine) true⟩, ⟨edgeKind false (!hl.2), u.stampAt (u.instant fine) true⟩]))
      ∧ RegBits (laneLevels ++ [bitsOf (A.CH_SELFTEST c) [F.CH_SELFTEST.RAW], bitsOf A.DIE_LINK_STATUS [F.DIE_LINK_STATUS.UP_OVF],
          bitsOf (A.CH_EDGE_STAT c) [F.CH_EDGE_STAT.MISSED, F.CH_EDGE_STAT.OVF, F.CH_EDGE_STAT.LEVEL]]) u t)
  ∧ (∀ (s : State) (c : Fin 768) (prev : Bool × Bool) (x : Int), s.fon (A.CH_STATUS c) F.CH_STATUS.TEST = false →
      (aboveCode x (F.CH_CMPH.CODE.get (s.eff (A.CH_CMPH c))) (s.cmpHalf c) = true → (s.cmpNext c false prev x).1 = true)
      ∧ (belowCode x (F.CH_CMPH.CODE.get (s.eff (A.CH_CMPH c))) (-s.cmpHalf c) = true → (s.cmpNext c false prev x).1 = false)
      ∧ (aboveCode x (F.CH_CMPL.CODE.get (s.eff (A.CH_CMPL c))) (s.cmpHalf c) = true → (s.cmpNext c false prev x).2 = false)
      ∧ (belowCode x (F.CH_CMPL.CODE.get (s.eff (A.CH_CMPL c))) (-s.cmpHalf c) = true → (s.cmpNext c false prev x).2 = true))
  ∧ (∀ (s : State) (c : Fin 768) (n goal : Nat) (discarded : Bool), s.accepted c (s.instant (decisionFine * n)) = some goal →
      (s.ch c).active = true → s.fon (A.CH_STATUS c) F.CH_STATUS.INBAND_START = true →
      ∃ t, exec (.filteredTransition c n discarded) s = .next t
      ∧ t.fget (A.CH_STATUS c) F.CH_STATUS.STATE = goal ∧ t.fon (A.CH_STATUS c) F.CH_STATUS.INBAND_START = false
      ∧ t.rt = s.rt ∧ t.chan = s.chan)
  ∧ (∀ (s : State) (c : Fin 768) (n goal : Nat) (discarded : Bool) (edges : List Nat) (at_ : List (Nat × Bool)),
      s.accepted c (s.instant (decisionFine * n)) = some goal → s.live c = true →
      edges = transitionEdges (s.fget (A.CH_STATUS c) F.CH_STATUS.STATE) goal → edges ≠ [] →
      at_ = edges.map (s.edgeInstant c (s.instant (decisionFine * n))) →
      ∃ t, exec (.filteredTransition c n discarded) s = .next t
      ∧ t.fget (A.CH_STATUS c) F.CH_STATUS.STATE = goal
      ∧ t.rt.events = s.rt.events ++ (edges.zip at_).map (fun p => evAt s evChan c (4 + p.1) p.2)
          ++ [evAt s evChan c (cmpKind goal) (at_.getLastD (0, false))])
  ∧ (∀ (s : State) (c : Fin 768) (n goal : Nat) (discarded : Bool), s.accepted c (s.instant (decisionFine * n)) = some goal →
      (s.ch c).active = true → s.fon (A.CH_STATUS c) F.CH_STATUS.INBAND_START = false → s.live c = false →
      transitionEdges (s.fget (A.CH_STATUS c) F.CH_STATUS.STATE) goal ≠ [] → ∃ t, exec (.filteredTransition c n discarded) s = .next t
      ∧ t.fget (A.CH_STATUS c) F.CH_STATUS.STATE = goal ∧ t.rt = s.rt ∧ t.chan = s.chan)
  ∧ (∀ (s : State) (c : Fin 768) (n : Nat) (discarded : Bool),
      s.accepted c (s.instant (decisionFine * n)) = none ∨ (s.ch c).active = false
      ∨ (s.fon (A.CH_STATUS c) F.CH_STATUS.INBAND_START = false ∧ ∃ goal, s.accepted c (s.instant (decisionFine * n)) = some goal
        ∧ transitionEdges (s.fget (A.CH_STATUS c) F.CH_STATUS.STATE) goal = []) →
      exec (.filteredTransition c n discarded) s = .next s)
  ∧ ∀ (s u : State) (c : Fin 768) (level : Int) (fine : Nat) (discarded : Bool), u = s.bankAdvance (bankOf c) (s.instant fine) →
      (u.ch c).active = false →
      exec (.rawCrossing c level fine discarded) s = .next (u.updCh c (fun h => { h with level := level }))

/-- R93 to R96: CH_LATCH_WRITE clears the written bits but for those that an event has set in the window, and `CH_FAIL_ADDR`
with FAIL; it is ignored where LATCH_CLR is in force, and under a reload. In phase 5 an event of the kind of a latch bit sets
it, whatever was written before, the bit outlasts a write of 1 behind it in the window, and a fail counts; the address of the
first fail is kept while FAIL is set. -/
def Obligations.ChannelLatches : Prop :=
  (∀ (s : State) (c : Fin 768) (v : Word), (s.bk (bankOf c)).reload = false → s.eon (A.CH_MODE c) F.CH_MODE.LATCH_CLR = false →
      ∃ t, exec (.chLatchWrite c v) s = .next t
      ∧ t.rd (A.CH_LATCH c) = s.rd (A.CH_LATCH c) &&& ~~~(v &&& ~~~Tab.get (fun _ => 0) s.setBits (A.CH_LATCH c))
      ∧ (s.fon (A.CH_LATCH c) F.CH_LATCH.FAIL = true → t.fon (A.CH_LATCH c) F.CH_LATCH.FAIL = false → t.rd (A.CH_FAIL_ADDR c) = 0)
      ∧ (t.fon (A.CH_LATCH c) F.CH_LATCH.FAIL = s.fon (A.CH_LATCH c) F.CH_LATCH.FAIL → t.rd (A.CH_FAIL_ADDR c) = s.rd (A.CH_FAIL_ADDR c))
      ∧ RegBits [wholeReg (A.CH_LATCH c), wholeReg (A.CH_FAIL_ADDR c)] s t)
  ∧ (∀ (s : State) (c : Fin 768) (v : Word), (s.bk (bankOf c)).reload = false → s.eon (A.CH_MODE c) F.CH_MODE.LATCH_CLR = true →
      exec (.chLatchWrite c v) s = .next s)
  ∧ (∀ (s : State) (c : Fin 768) (v : Word), (s.bk (bankOf c)).reload = true → ∃ t, exec (.chLatchWrite c v) s = .next t
      ∧ WriteIgnored s t)
  ∧ ∀ (s : State) (e : Ev) (f : Fld), e.idx < 768 → latchOfKind e.kind = some f →
      (s.latchEvent e).fon (A.CH_LATCH e.idx) f = true
      ∧ (∀ (c : Fin 768) (v : Word), c.val = e.idx →
          ∃ t, exec (.chLatchWrite c v) (s.latchEvent e) = .next t ∧ t.fon (A.CH_LATCH c) f = true)
      ∧ (e.kind = 0 → (s.latchEvent e).fget (A.CH_FAILCNT e.idx) F.CH_FAILCNT.COUNT
          = min (s.fget (A.CH_FAILCNT e.idx) F.CH_FAILCNT.COUNT + 1) F.CH_FAILCNT.COUNT.max)
      ∧ (e.kind ≠ 0 ∨ s.fon (A.CH_LATCH e.idx) F.CH_LATCH.FAIL = true →
          (s.latchEvent e).rd (A.CH_FAIL_ADDR e.idx) = s.rd (A.CH_FAIL_ADDR e.idx))
      ∧ (e.kind = 0 → s.fon (A.CH_LATCH e.idx) F.CH_LATCH.FAIL = false → (s.ch e.idx).latchWrAt ≠ s.now →
          (s.latchEvent e).rd (A.CH_FAIL_ADDR e.idx) = F.CH_FAIL_ADDR.VALID.put (F.CH_FAIL_ADDR.ADDR.put 0 e.info) 1)

/-! ### Vigil and the always-on island (R26, R107, R111 to R124, R415, R463) -/

/-- The bits that a deep-vigil match of channel `c` may change. -/
def Sys2Proof.Machine.wakeBits (c : Nat) : List (Nat × Word) :=
  [bitsOf (A.CH_VIGIL_STAT c) [F.CH_VIGIL_STAT.FILL, F.CH_VIGIL_STAT.CHIP], wholeReg (A.WAKE_BANK (bankOf c)),
    wholeReg (A.WAKE_TIME (bankOf c)), wholeReg A.WAKE_STATUS, bitsOf A.RT_STATUS [F.RT_STATUS.WAKE]]

/-- R107, R111, R114, R116, R119: VIGIL_MATCH is the sample of a channel in vigil: in light vigil while CORE runs, in deep vigil while the
sampler runs with VAON and VDDA good; any other does nothing. Its chip is whether the level is above the threshold, CMPH or VTH of the
sampler, with INV applied. A sample that makes the last 32 chips match empties the history, and one
that does not enters it. A match in light vigil is the channel's event of kind 14; one in deep vigil sets the bank's wake flag, with its
channel, cause and time where the flag was clear, counts, and crosses C8 while CORE runs. DEEP_MATCH_TO_CORE makes the oldest such match
the event, with its own timestamp, and does nothing without one. -/
def Obligations.VigilMatches : Prop :=
  (∀ (s : State) (c : Fin 768) (level : Int) (cyc : Nat) (chips : List Bool), s.funcEff c = fnLight → s.coreRuns = true →
      chips = ((s.aboveLight c level != s.eon (A.CH_VIGIL_CTL c) F.CH_VIGIL_CTL.INV) :: (s.ch c).chips).take 32 →
      ∃ t, exec (.vigilMatch c level cyc) s = .next t
      ∧ (chips.length = 32 → chipErrors chips (s.eget (A.CH_VIGIL_CODE c) F.CH_VIGIL_CODE.CODE)
          ≤ s.eget (A.CH_VIGIL_CTL c) F.CH_VIGIL_CTL.MAXERR →
        (t.ch c).chips = [] ∧ t.rt.events = s.rt.events ++ [⟨evChan, c, 14, s.now, s.tickStamp, 0⟩]
        ∧ t.fget (A.CH_VIGIL_STAT c) F.CH_VIGIL_STAT.FILL = 0)
      ∧ (chips.length < 32 ∨ s.eget (A.CH_VIGIL_CTL c) F.CH_VIGIL_CTL.MAXERR
          < chipErrors chips (s.eget (A.CH_VIGIL_CODE c) F.CH_VIGIL_CODE.CODE) →
        (t.ch c).chips = chips ∧ t.rt = s.rt ∧ t.fget (A.CH_VIGIL_STAT c) F.CH_VIGIL_STAT.FILL = chips.length)
      ∧ RegBits [bitsOf (A.CH_VIGIL_STAT c) [F.CH_VIGIL_STAT.FILL, F.CH_VIGIL_STAT.CHIP]] s t)
  ∧ (∀ (s : State) (c : Fin 768) (level : Int) (cyc : Nat) (chips : List Bool), s.funcEff c = fnDeep → (s.ch c).sampler = true →
      s.unit.vaon = true → s.unit.vdda = true →
      chips = ((s.aboveDeep c level != F.CH_VIGIL_CTL.INV.on (s.ch c).sCtl) :: (s.ch c).chips).take 32 →
      ∃ t, exec (.vigilMatch c level cyc) s = .next t ∧ t.rt = s.rt ∧ RegBits (wakeBits c) s t
      ∧ (chips.length = 32 → chipErrors chips (F.CH_VIGIL_CODE.CODE.get (s.ch c).sCode) ≤ F.CH_VIGIL_CTL.MAXERR.get (s.ch c).sCtl →
        (t.ch c).chips = []
        ∧ (t.ch c).deepMatch = (s.ch c).deepMatch ++ (if s.coreRuns then [s.stamp (cycleFine cyc) false] else [])
        ∧ t.fon A.WAKE_STATUS (F.WAKE_STATUS.BANK.bit (bankOf c)) = true
        ∧ (s.fon A.WAKE_STATUS (F.WAKE_STATUS.BANK.bit (bankOf c)) = false →
            t.fget (A.WAKE_BANK (bankOf c)) F.WAKE_BANK.FIRST_CH = c.val % 64 ∧ t.fget (A.WAKE_BANK (bankOf c)) F.WAKE_BANK.CAUSE = 0
            ∧ t.fget (A.WAKE_BANK (bankOf c)) F.WAKE_BANK.COUNT = 1 ∧ t.rd (A.WAKE_TIME (bankOf c)) = BitVec.ofNat 36 s.isl.time)
        ∧ (s.fon A.WAKE_STATUS (F.WAKE_STATUS.BANK.bit (bankOf c)) = true →
            t.fget (A.WAKE_BANK (bankOf c)) F.WAKE_BANK.FIRST_CH = s.fget (A.WAKE_BANK (bankOf c)) F.WAKE_BANK.FIRST_CH
            ∧ t.fget (A.WAKE_BANK (bankOf c)) F.WAKE_BANK.COUNT
              = min (s.fget (A.WAKE_BANK (bankOf c)) F.WAKE_BANK.COUNT + 1) F.WAKE_BANK.COUNT.max
            ∧ t.rd (A.WAKE_TIME (bankOf c)) = s.rd (A.WAKE_TIME (bankOf c))))
      ∧ (chips.length < 32 ∨ F.CH_VIGIL_CTL.MAXERR.get (s.ch c).sCtl < chipErrors chips (F.CH_VIGIL_CODE.CODE.get (s.ch c).sCode) →
        (t.ch c).chips = chips ∧ (t.ch c).deepMatch = (s.ch c).deepMatch ∧ t.isl = s.isl))
  ∧ (∀ (s : State) (c : Fin 768) (level : Int) (cyc : Nat),
      (s.funcEff c ≠ fnLight ∧ s.funcEff c ≠ fnDeep) ∨ (s.funcEff c = fnLight ∧ s.coreRuns = false)
      ∨ (s.funcEff c = fnDeep ∧ ((s.ch c).sampler = false ∨ s.unit.vaon = false ∨ s.unit.vdda = false)) →
      exec (.vigilMatch c level cyc) s = .next s)
  ∧ (∀ (s : State) (c : Fin 768) (st : Stamp) (rest : List Stamp), (s.ch c).deepMatch = st :: rest →
      ∃ t, exec (.deepMatchToCore c) s = .next t ∧ t.ch c = { s.ch c with deepMatch := rest } ∧ t.reg = s.reg
      ∧ t.rt.events = s.rt.events ++ (if s.coreRuns then [⟨evChan, c, 14, s.now, st, 0⟩] else []))
  ∧ ∀ (s : State) (c : Fin 768), (s.ch c).deepMatch = [] → exec (.deepMatchToCore c) s = .next s

/-- R26, R112, R119, R123, R124, R270: C9_TRANSFER_DONE takes the oldest value that goes where the n-th goes off the way and puts it in
force in the island: the wake control, a word of the receiver, a clear of flags that no cause sets again, a flag, the router's wake
latch, or a sampler's settings; it does nothing where there is no such value. ENELLE_MATCH of an enabled word sets its flag, takes the
time where neither flag was set and empties the samples, and of no enabled word does nothing; ENELLE_WAKE_EVENT makes the events of the
oldest result that crossed C8, while CORE runs. -/
def Obligations.IslandCrossings : Prop :=
  (∀ (s : State) (x : C9) (rest : List C9), s.isl.c9 = x :: rest → ∃ t, exec (.c9TransferDone 0) s = .next t ∧ t.isl.c9 = rest
      ∧ (∀ v, x = .ctl v → t.isl.ctl = v)
      ∧ (∀ v, x = .code false v → t.isl.code = v ∧ t.isl.bcode = s.isl.bcode ∧ t.reg = s.reg)
      ∧ (∀ v, x = .code true v → t.isl.bcode = v ∧ t.isl.code = s.isl.code ∧ t.reg = s.reg)
      ∧ (∀ on, x = .wake on → t.isl.rtWake = on ∧ t.fon A.RT_STATUS F.RT_STATUS.WAKE = on
          ∧ t.fon A.WAKE_STATUS F.WAKE_STATUS.ROUTER = on)
      ∧ (∀ b k, x = .latch b k → b < 12 → t.fon A.WAKE_STATUS (F.WAKE_STATUS.BANK.bit b) = true)
      ∧ (∀ v, x = .clear v → (v.getLsbD 12 = true → s.isl.causes.testBit 12 = false → t.fon A.WAKE_STATUS F.WAKE_STATUS.EUNIT = false)
          ∧ (v.getLsbD 13 = true → s.isl.causes.testBit 13 = false → t.fon A.WAKE_STATUS F.WAKE_STATUS.EBCAST = false)
          ∧ ∀ b, b < 12 → v.getLsbD b = true → s.isl.causes.testBit b = false →
            ((s.latched F.CH_ROUTE.WAKE_EN).map bankOf).contains b = false →
            t.fon A.WAKE_STATUS (F.WAKE_STATUS.BANK.bit b) = false ∧ t.rd (A.WAKE_BANK b) = 0 ∧ t.rd (A.WAKE_TIME b) = 0)
      ∧ (∀ c on v w, x = .sampler c on v w → (t.ch c).sampler = on ∧ (t.ch c).sCtl = v ∧ (t.ch c).sCode = w
          ∧ (s.funcEff c = fnDeep → (t.ch c).chips = [])))
  ∧ (∀ (s : State) (n : Nat) (x : C9), s.isl.c9[n]? = some x → ∃ t, exec (.c9TransferDone n) s = .next t
      ∧ t.isl.c9 = s.isl.c9.eraseP x.same)
  ∧ (∀ (s : State) (n : Nat), s.isl.c9.length ≤ n → exec (.c9TransferDone n) s = .next s)
  ∧ (∀ (s : State) (u b : Bool), u = true ∧ F.WAKE_CTL.UNIT_EN.on s.isl.ctl = true ∨ b = true ∧ F.WAKE_CTL.BCAST_EN.on s.isl.ctl = true →
      ∃ t, exec (.enelleMatch u b) s = .next t ∧ t.isl.samples = []
      ∧ (u = true → F.WAKE_CTL.UNIT_EN.on s.isl.ctl = true → t.fon A.WAKE_STATUS F.WAKE_STATUS.EUNIT = true)
      ∧ (b = true → F.WAKE_CTL.BCAST_EN.on s.isl.ctl = true → t.fon A.WAKE_STATUS F.WAKE_STATUS.EBCAST = true)
      ∧ (s.fon A.WAKE_STATUS F.WAKE_STATUS.EUNIT = false → s.fon A.WAKE_STATUS F.WAKE_STATUS.EBCAST = false →
          t.rd A.WAKE_ETIME = BitVec.ofNat 36 s.isl.time)
      ∧ (s.fon A.WAKE_STATUS F.WAKE_STATUS.EUNIT = true ∨ s.fon A.WAKE_STATUS F.WAKE_STATUS.EBCAST = true →
          t.rd A.WAKE_ETIME = s.rd A.WAKE_ETIME)
      ∧ t.isl.enelle = s.isl.enelle ++ (if s.coreRuns then
          [(u && F.WAKE_CTL.UNIT_EN.on s.isl.ctl, b && F.WAKE_CTL.BCAST_EN.on s.isl.ctl)] else [])
      ∧ RegBits [wholeReg A.WAKE_ETIME, wholeReg A.WAKE_STATUS, bitsOf A.RT_STATUS [F.RT_STATUS.WAKE]] s t)
  ∧ (∀ (s : State) (u b : Bool), (u = false ∨ F.WAKE_CTL.UNIT_EN.on s.isl.ctl = false) →
      (b = false ∨ F.WAKE_CTL.BCAST_EN.on s.isl.ctl = false) → exec (.enelleMatch u b) s = .next s)
  ∧ (∀ (s : State) (u b x y : Bool) (rest : List (Bool × Bool)), s.isl.enelle = (u, b) :: rest →
      ∃ t, exec (.enelleWakeEvent x y) s = .next t ∧ t.isl = { s.isl with enelle := rest } ∧ t.reg = s.reg
      ∧ t.rt.events = s.rt.events ++ (if s.coreRuns && u then [⟨evUnit, 0, 0, s.now, s.tickStamp, 0⟩] else [])
          ++ (if s.coreRuns && b then [⟨evUnit, 0, 1, s.now, s.tickStamp, 0⟩] else []))
  ∧ ∀ (s : State) (x y : Bool), s.isl.enelle = [] → exec (.enelleWakeEvent x y) s = .next s

/-- R107, R123, R415, R463: VIGIL_CLOCK_EDGE raises VIGIL_TIME by one modulo 2 ^ 36, whatever is sampled, and no channel takes a chip
that is not in deep vigil or whose divider is not due; XT32_FAILURE clears XT32_OK, stops the sampling and is the XT32 fault where the
oscillator was good in RUNNING; OSCILLATOR_RESTART sets XT32_OK and starts the sampling again.
That CORE reads the new count at the edge is the model's reading (assumption 25). -/
def Obligations.TheVigilClock : Prop :=
  (∀ (s : State) (wakein : Bool) (cyc : Nat) (pins : List (Fin 768 × Int)), ∃ t, exec (.vigilClockEdge wakein cyc pins) s = .next t
      ∧ t.isl.time = (s.isl.time + 1) % 2 ^ 36 ∧ t.rd A.VIGIL_TIME = BitVec.ofNat 36 ((s.isl.time + 1) % 2 ^ 36)
      ∧ t.isl.running = true ∧ t.isl.c9 = s.isl.c9 ∧ t.isl.ctl = s.isl.ctl
      ∧ (∀ c : Fin 768, s.funcEff c ≠ fnDeep ∨ (s.isl.time + 1) % 2 ^ 36 % 2 ^ F.CH_VIGIL_CTL.K.get (s.ch c).sCtl ≠ 0 → t.ch c = s.ch c)
      ∧ (pins = [] → s.enelleOn = false → t.chan = s.chan ∧ t.rt = s.rt ∧ RegBits [wholeReg A.VIGIL_TIME] s t))
  ∧ (∀ s : State, ∃ t, exec .xt32Failure s = .next t ∧ t.fon A.CLK_STATUS F.CLK_STATUS.XT32_OK = false
      ∧ t.isl = { s.isl with running := false }
      ∧ (s.unit.st = .running → s.fon A.CLK_STATUS F.CLK_STATUS.XT32_OK = true → t.fon A.FAULT_STATUS F.FAULT_STATUS.XT32 = true)
      ∧ (s.unit.st ≠ .running ∨ s.fon A.CLK_STATUS F.CLK_STATUS.XT32_OK = false →
          RegBits [bitsOf A.CLK_STATUS [F.CLK_STATUS.XT32_OK]] s t)
      ∧ RegBits [bitsOf A.CLK_STATUS [F.CLK_STATUS.XT32_OK], bitsOf A.FAULT_STATUS [F.FAULT_STATUS.XT32]] s t)
  ∧ ∀ s : State, ∃ t, exec .oscillatorRestart s = .next t ∧ t.fon A.CLK_STATUS F.CLK_STATUS.XT32_OK = true
      ∧ t.isl = { s.isl with running := true } ∧ RegBits [bitsOf A.CLK_STATUS [F.CLK_STATUS.XT32_OK]] s t

/-! ### Vector memory, the sequencer and the responder (R133 to R176) -/

/-- R133, R172, R222, R373: vector memory and responder RAM read at any time, and a read changes nothing. VECTOR_MEMORY_WRITE and
RESPONDER_RAM_WRITE replace one word and no other, unless the bank is under reload, which ignores the write with WR_IGN; a bank whose
sequencer is ARMED, RUNNING or WAITING takes no write of vector memory and sets VM_WR_IGN. -/
def Obligations.BankMemoryWrites : Prop :=
  (∀ (s : State) (h : Side) (cyc : Nat) (b : Fin 12) (l : Fin 262144) (w : Fin 8),
      s.readWord h cyc (A.VMEM b l w) = (s, s.memRd (A.VMEM b l w)))
  ∧ (∀ (s : State) (h : Side) (cyc : Nat) (b : Fin 12) (i : Fin 4096), s.readWord h cyc (A.RESP_RAM b i) = (s, s.memRd (A.RESP_RAM b i)))
  ∧ (∀ (s : State) (b : Fin 12) (l : Fin 262144) (w : Fin 8) (v : Word), (s.bk b).reload = false →
      s.seqState b ∉ [sqArmed, sqRunning, sqWaiting] → ∃ t, exec (.vectorMemoryWrite b l w v) s = .next t ∧ t.memRd (A.VMEM b l w) = v
      ∧ (∀ a, a ≠ A.VMEM b l w → t.memRd a = s.memRd a) ∧ t.reg = s.reg)
  ∧ (∀ (s : State) (b : Fin 12) (l : Fin 262144) (w : Fin 8) (v : Word), (s.bk b).reload = false →
      s.seqState b ∈ [sqArmed, sqRunning, sqWaiting] → ∃ t, exec (.vectorMemoryWrite b l w v) s = .next t ∧ t.mem = s.mem
      ∧ t.fon (A.BANK_STATUS b) F.BANK_STATUS.VM_WR_IGN = true ∧ RegBits [bitsOf (A.BANK_STATUS b) [F.BANK_STATUS.VM_WR_IGN]] s t)
  ∧ (∀ (s : State) (b : Fin 12) (i : Fin 4096) (v : Word), (s.bk b).reload = false →
      ∃ t, exec (.responderRamWrite b i v) s = .next t ∧ t.memRd (A.RESP_RAM b i) = v
      ∧ (∀ a, a ≠ A.RESP_RAM b i → t.memRd a = s.memRd a) ∧ t.reg = s.reg)
  ∧ ∀ (s : State) (b : Fin 12) (c : Instr) (v : Word), (s.bk b).reload = true →
      ((∃ l w, c = .vectorMemoryWrite b l w v) ∨ ∃ i, c = .responderRamWrite b i v) → ∃ t, exec c s = .next t ∧ t.mem = s.mem
      ∧ WriteIgnored s t

/-- A vector of the current tick finds line `l`: `u` is the state once all that falls before its start has been done, and there the line
is due, has this opcode, was issued in time and breaks neither R144 nor R150. -/
def Sys2Proof.Machine.LineAt (b op l start : Nat) (s u : State) : Prop :=
  u = s.bankAdvance b (s.instant start) ∧ u.lineAt b start = some l ∧ u.lineOp b l = op ∧ u.fetchOk b l = true
    ∧ u.lineFault b l = none

/-- The channels of a bank that follow a line which hands nothing over, with their pin codes: those in PATTERN. -/
def Sys2Proof.Machine.lineChans (b : Nat) (u : State) : List Nat := (List.range 64).filter (fun i => u.funcEff (64 * b + i) == fnPattern)

/-- What one vector of line `l` does whatever its opcode. `SEQ_PC` shows the line, `SEQ_VCNT` counts the vector and the vector ends
`VEC_PERIOD` after its start. A handover ends at any opcode but HAND; then each PATTERN channel gets the edges of its code, and its
strobe. The first line of a run is its start event, and releases the drivers before it. Nothing of another bank changes. -/
def Sys2Proof.Machine.SeqRan (b op l start : Nat) (u t : State) : Prop :=
  t.fget (A.SEQ_PC b) F.SEQ_PC.PC = l % 2 ^ 18
    ∧ (t.rd (A.SEQ_VCNT b)).toNat = min ((u.rd (A.SEQ_VCNT b)).toNat + 1) (2 ^ 36 - 1)
    ∧ (t.bk b).endAt = u.clk.start + start + u.eget (A.VEC_PERIOD b) F.VEC_PERIOD.P * 128
    ∧ (op ≠ 0xb → (t.bk b).hand = false
      ∧ (∀ i ∈ lineChans b u, (t.ch (64 * b + i)).wave
          = addEdges (if (u.bk b).firstAt.isSome then [] else (u.ch (64 * b + i)).wave)
              (u.codeEdges b i (u.pinCode b l i) (u.clk.start + start)))
      ∧ (op ≠ 0xa → (t.bk b).strobes.map (fun x => (x.ch, x.at_, x.code, x.test))
          = (u.bk b).strobes.map (fun x => (x.ch, x.at_, x.code, x.test))
            ++ ((lineChans b u).filter (fun i => codeStrobe (u.pinCode b l i))).map
              (fun i => (i, u.strobeInst b i (u.clk.start + start), u.pinCode b l i, none))))
    ∧ (t.bk b).firstAt = none
    ∧ t.rt.events = u.rt.events ++ (if (u.bk b).firstAt.isSome then [⟨evBank, b, 0, u.now, u.stamp start false, 0⟩] else [])
    ∧ (∀ x, x ≠ b → t.bk x = u.bk x)
    ∧ (F.RESP_PINS.DBASE.get (u.bk b).respPins + F.RESP_PINS.DW.get (u.bk b).respPins ≤ 64 → ∀ c, bankOf c ≠ b → t.ch c = u.ch c)
    ∧ RegBits ([wholeReg (A.SEQ_PC b), wholeReg (A.SEQ_VCNT b), bitsOf (A.BANK_STATUS b) [F.BANK_STATUS.SEQ, F.BANK_STATUS.STACK],
        bitsOf (A.RESP_STAT b) [F.RESP_STAT.ACTIVE, F.RESP_STAT.CFG_PEND]]
          ++ (List.range 4).map (fun c => wholeReg (A.SEQ_CNT b c))) u t

/-- R134, R137, R138, R140, R143, R144, R157: the lines that only choose the next line, which starts at the end of their vector. NEXT goes
on, JUMP goes to its target, LSET loads its loop counter, LOOP counts down and goes back until 1, CALL pushes the line after it and RET
pops it; the sequencer runs on.
R87, R104, R135, R136: a strobe of a judged code that fails is the channel's event of kind 0 with its line, one that passes is nothing,
one of a capture code shifts its result into SEQ_CAPT, and one that self-test suppresses does nothing. -/
def Obligations.FlowLines : Prop :=
  (∀ (s u : State) (b : Fin 12) (v : Vec) (l : Nat), LineAt b 0x0 l v.start s u → ∃ t, exec (.next b v) s = .next t
      ∧ SeqRan b 0x0 l v.start u t ∧ t.seqState b = sqRunning ∧ (t.bk b).line = l + 1 ∧ (t.bk b).wait = .none
      ∧ t.staged = u.staged ∧ (∀ c, c < 4 → t.rd (A.SEQ_CNT b c) = u.rd (A.SEQ_CNT b c)) ∧ (t.bk b).stack = (u.bk b).stack)
  ∧ (∀ (s u : State) (b : Fin 12) (v : Vec) (l : Nat), LineAt b 0x2 l v.start s u → ∃ t, exec (.jump b v) s = .next t
      ∧ SeqRan b 0x2 l v.start u t ∧ t.seqState b = sqRunning ∧ (t.bk b).line = u.lineTarget b l ∧ (t.bk b).wait = .none
      ∧ t.staged = u.staged ∧ (∀ c, c < 4 → t.rd (A.SEQ_CNT b c) = u.rd (A.SEQ_CNT b c)) ∧ (t.bk b).stack = (u.bk b).stack)
  ∧ (∀ (s u : State) (b : Fin 12) (v : Vec) (l : Nat), LineAt b 0x3 l v.start s u → ∃ t, exec (.lset b v) s = .next t
      ∧ SeqRan b 0x3 l v.start u t ∧ t.seqState b = sqRunning ∧ (t.bk b).line = l + 1 ∧ (t.bk b).wait = .none
      ∧ t.loopCnt b (u.lineSel b l) = u.lineArg b l ∧ t.staged = u.staged ∧ (t.bk b).stack = (u.bk b).stack
      ∧ ∀ c, c < 4 → c ≠ u.lineSel b l → t.rd (A.SEQ_CNT b c) = u.rd (A.SEQ_CNT b c))
  ∧ (∀ (s u : State) (b : Fin 12) (v : Vec) (l : Nat), LineAt b 0x4 l v.start s u → ∃ t, exec (.loop b v) s = .next t
      ∧ SeqRan b 0x4 l v.start u t ∧ t.seqState b = sqRunning ∧ (t.bk b).wait = .none
      ∧ (1 < u.loopCnt b (u.lineSel b l) → (t.bk b).line = u.lineTarget b l
          ∧ t.loopCnt b (u.lineSel b l) = u.loopCnt b (u.lineSel b l) - 1)
      ∧ (u.loopCnt b (u.lineSel b l) ≤ 1 → (t.bk b).line = l + 1 ∧ t.loopCnt b (u.lineSel b l) = 0)
      ∧ t.staged = u.staged ∧ (t.bk b).stack = (u.bk b).stack
      ∧ ∀ c, c < 4 → c ≠ u.lineSel b l → t.rd (A.SEQ_CNT b c) = u.rd (A.SEQ_CNT b c))
  ∧ (∀ (s u : State) (b : Fin 12) (v : Vec) (l : Nat), LineAt b 0x5 l v.start s u → ∃ t, exec (.call b v) s = .next t
      ∧ SeqRan b 0x5 l v.start u t ∧ t.seqState b = sqRunning ∧ (t.bk b).wait = .none ∧ (t.bk b).line = u.lineTarget b l
      ∧ (t.bk b).stack = (l + 1) :: (u.bk b).stack
      ∧ t.fget (A.BANK_STATUS b) F.BANK_STATUS.STACK = (u.bk b).stack.length + 1
      ∧ t.staged = u.staged ∧ (∀ c, c < 4 → t.rd (A.SEQ_CNT b c) = u.rd (A.SEQ_CNT b c)))
  ∧ (∀ (s u : State) (b : Fin 12) (v : Vec) (l : Nat), LineAt b 0x6 l v.start s u → ∃ t, exec (.ret b v) s = .next t
      ∧ SeqRan b 0x6 l v.start u t ∧ t.seqState b = sqRunning ∧ (t.bk b).wait = .none
      ∧ (u.bk b).stack = (t.bk b).line :: (t.bk b).stack
      ∧ t.fget (A.BANK_STATUS b) F.BANK_STATUS.STACK = ((u.bk b).stack.length - 1) % 16
      ∧ t.staged = u.staged ∧ (∀ c, c < 4 → t.rd (A.SEQ_CNT b c) = u.rd (A.SEQ_CNT b c)))
  ∧ ∀ (s : State) (b : Fin 12) (x : Strobe), x.test = none → x.ch < 64 → s.funcEff (64 * b + x.ch) = fnPattern →
      (s.suppressed (64 * b + x.ch) = true → s.decide1 b x = s)
      ∧ (s.suppressed (64 * b + x.ch) = false → codeJudged x.code = true → codePass x.code (s.strobeState (64 * b + x.ch) x) = true →
        s.decide1 b x = s)
      ∧ (s.suppressed (64 * b + x.ch) = false → codeJudged x.code = true → codePass x.code (s.strobeState (64 * b + x.ch) x) = false →
        (s.decide1 b x).reg = s.reg ∧ (s.decide1 b x).rt.events
          = s.rt.events ++ [{ evAt s evChan (64 * b + x.ch) 0 (x.at_, true) with info := x.line }])
      ∧ (s.suppressed (64 * b + x.ch) = false → codeJudged x.code = false → (s.decide1 b x).rt = s.rt
        ∧ (s.decide1 b x).rd (A.SEQ_CAPT b x.ch) = (s.rd (A.SEQ_CAPT b x.ch) <<< 1)
            ||| (if codePass x.code (s.strobeState (64 * b + x.ch) x) then 1 else 0)
        ∧ RegBits [wholeReg (A.SEQ_CAPT b x.ch)] s (s.decide1 b x))

/-- The commands of the opcodes that R143 assigns, each with the opcode. -/
def Sys2Proof.Machine.lineCmds (b : Fin 12) (v : Vec) : List (Instr × Nat) :=
  [(.next b v, 0x0), (.rept b [v], 0x1), (.jump b v, 0x2), (.lset b v, 0x3), (.loop b v, 0x4), (.call b v, 0x5), (.ret b v, 0x6),
    (.wflag b v, 0x7), (.wtick b v, 0x8), (.season b v, 0x9), (.mloop b v, 0xa), (.hand b v, 0xb), (.wreg b v, 0xc), (.halt b v, 0xd)]

/-- A line has taken the error halt of this code in place of being applied: nothing reads otherwise yet, and a handover is to end with
the last vector applied. -/
def Sys2Proof.Machine.LineRefused (b l code : Nat) (u t : State) : Prop :=
  t.bk b = { u.bk b with line := l, err := some code, handTo := if (u.bk b).hand then some (u.bk b).endAt else none }
    ∧ (∀ x, x ≠ b → t.bk x = u.bk x) ∧ t.reg = u.reg ∧ t.chan = u.chan ∧ t.rt = u.rt ∧ t.staged = u.staged

/-- R138, R143, R144, R150, R153, R158: a REPT line counts its vectors and goes on after the last. A line that breaks R142 to R144 or R150,
or that was not issued in time, is not applied: the command of its opcode, and ILLEGAL_OP of an opcode from 0x0E, leave the pins and every
register as they are, and the error halt makes the sequencer ERROR with its code at the first boundary after the last vector. A command
whose opcode the line does not have, or that comes where no line starts, only does what falls before its instant. -/
def Obligations.RepeatsAndLineFaults : Prop :=
  (∀ (s u : State) (b : Fin 12) (v : Vec) (vs : List Vec) (l : Nat), LineAt b 0x1 l v.start s u →
      (u.bk b).rep + (vs.length + 1) ≤ u.lineArg b l → ∃ t, exec (.rept b (v :: vs)) s = .next t
      ∧ t.fget (A.SEQ_PC b) F.SEQ_PC.PC = l % 2 ^ 18
      ∧ (t.rd (A.SEQ_VCNT b)).toNat = min ((u.rd (A.SEQ_VCNT b)).toNat + (vs.length + 1)) (2 ^ 36 - 1)
      ∧ (t.bk b).endAt = u.clk.start + ((v :: vs).getLast (by simp)).start + u.eget (A.VEC_PERIOD b) F.VEC_PERIOD.P * 128
      ∧ t.seqState b = sqRunning ∧ (t.bk b).wait = .none ∧ (t.bk b).hand = false ∧ t.staged = u.staged
      ∧ ((u.bk b).rep + (vs.length + 1) = u.lineArg b l → (t.bk b).line = l + 1 ∧ (t.bk b).rep = 0)
      ∧ ((u.bk b).rep + (vs.length + 1) < u.lineArg b l → (t.bk b).line = l ∧ (t.bk b).rep = (u.bk b).rep + (vs.length + 1)))
  ∧ (∀ (s u : State) (b : Fin 12) (v : Vec) (vs : List Vec) (l : Nat), LineAt b 0x1 l v.start s u →
      u.lineArg b l < (u.bk b).rep + (vs.length + 1) → exec (.rept b (v :: vs)) s = .next u)
  ∧ (∀ (s : State) (b : Fin 12), exec (.rept b []) s = .next s)
  ∧ (∀ (s u : State) (b : Fin 12) (v : Vec) (l code : Nat) (c : Instr), u = s.bankAdvance b (s.instant v.start) →
      u.lineAt b v.start = some l → (if u.fetchOk b l then u.lineFault b l else some 6) = some code →
      (c, u.lineOp b l) ∈ lineCmds b v → ∃ t, exec c s = .next t ∧ LineRefused b l code u t)
  ∧ (∀ (s u : State) (b : Fin 12) (v : Vec) (c : Instr) (op : Nat), u = s.bankAdvance b (s.instant v.start) → (c, op) ∈ lineCmds b v →
      (u.lineAt b v.start = none ∨ ∃ l, u.lineAt b v.start = some l ∧ u.lineOp b l ≠ op) → exec c s = .next u)
  ∧ (∀ (s u : State) (b : Fin 12) (l at_ : Nat), at_ = max (s.bk b).endAt s.clk.start → at_ < s.tickEnd → u = s.bankAdvance b at_ →
      u.lineAt b (at_ - s.clk.start) = some l → 0xe ≤ u.lineOp b l → ∃ t, exec (.illegalOp b) s = .next t ∧ LineRefused b l 1 u t)
  ∧ (∀ (s u : State) (b : Fin 12) (at_ : Nat), at_ = max (s.bk b).endAt s.clk.start → u = s.bankAdvance b at_ →
      (s.tickEnd ≤ at_ ∨ u.lineAt b (at_ - s.clk.start) = none
        ∨ ∃ l, u.lineAt b (at_ - s.clk.start) = some l ∧ u.lineOp b l < 0xe) → exec (.illegalOp b) s = .next u)
  ∧ ∀ (s : State) (b : Fin 12) (code : Nat), (s.bk b).err = some code → code ∉ [0, 10] → code < 16 →
      (s.clk.start ≤ (s.bk b).endAt → s.errDue b = s)
      ∧ ((s.bk b).endAt < s.clk.start → (s.errDue b).seqState b = sqError ∧ (s.errDue b).fget (A.BANK_STATUS b) F.BANK_STATUS.ERR = code
        ∧ (s.errDue b).fon A.FAULT_STATUS F.FAULT_STATUS.PROG = true)

/-- R145 to R147, R149, R152, R161: the lines that wait. WFLAG and HAND go on when the flag has the level asked for, with REARM staged for
the next boundary, and wait otherwise; the first repetition of HAND begins a handover where EN is in force. WTICK waits for ARG ticks
from the boundary at or after its end, which WTICK_EXPIRY ends at that boundary and no other; SEASON asks for a season boundary of
cause bit 0 at the next boundary; HALT halts the sequencer at its end, with its event. -/
def Obligations.WaitingLines : Prop :=
  (∀ (s u : State) (b : Fin 12) (v : Vec) (l op : Nat) (c : Instr), (c = .wflag b v ∧ op = 0x7 ∨ c = .hand b v ∧ op = 0xb) →
      LineAt b op l v.start s u → ∃ t, exec c s = .next t ∧ SeqRan b op l v.start u t
      ∧ (op = 0xb → (u.bk b).wait ≠ .hand → (t.bk b).hand = u.eon (A.RESP_CTL b) F.RESP_CTL.EN
          ∧ ((t.bk b).hand = true → (t.bk b).handFrom = u.clk.start + v.start))
      ∧ (op = 0xb → (u.bk b).wait = .hand → (t.bk b).hand = (u.bk b).hand ∧ (t.bk b).handFrom = (u.bk b).handFrom)
      ∧ (u.flagOn b (u.lineArg b l % 16) = (u.lineArg b l).testBit 4 → t.seqState b = sqRunning ∧ (t.bk b).line = l + 1
          ∧ (t.bk b).wait = .none ∧ t.staged = u.staged ++ (if (u.lineArg b l).testBit 5 then [⟨u.now + 1, .rearm, .flags b
              (if (u.lineArg b l).testBit 4 then 0 else 2 ^ (u.lineArg b l % 16))
              (if (u.lineArg b l).testBit 4 then 2 ^ (u.lineArg b l % 16) else 0), false⟩] else []))
      ∧ (u.flagOn b (u.lineArg b l % 16) ≠ (u.lineArg b l).testBit 4 → t.seqState b = sqWaiting ∧ (t.bk b).line = l
          ∧ (t.bk b).wait = (if op = 0x7 then .flag else .hand) ∧ t.staged = u.staged))
  ∧ (∀ (s u : State) (b : Fin 12) (v : Vec) (l : Nat), LineAt b 0x8 l v.start s u → ∃ t, exec (.wtick b v) s = .next t
      ∧ SeqRan b 0x8 l v.start u t ∧ t.seqState b = sqWaiting ∧ (t.bk b).line = l
      ∧ (t.bk b).wait = .ticks (u.lineArg b l) none ∧ t.staged = u.staged)
  ∧ (∀ (s : State) (b : Fin 12) (n : Nat), (s.bk b).wait = .ticks n none →
      ((s.holdTick b).bk b).wait = .ticks n (if (s.bk b).endAt ≤ s.clk.start then some (s.now + n) else none))
  ∧ (∀ (s : State) (b : Fin 12) (n : Nat), (s.bk b).wait = .ticks n (some s.now) → s.seqLive b = true → (s.bk b).err = none →
      ∃ t, exec (.wtickExpiry b) s = .next t ∧ t.seqState b = sqRunning
      ∧ t.bk b = { s.bk b with wait := .none, line := (s.bk b).line + 1, endAt := s.clk.start } ∧ (∀ x, x ≠ b.val → t.bk x = s.bk x)
      ∧ RegBits [bitsOf (A.BANK_STATUS b) [F.BANK_STATUS.SEQ]] s t)
  ∧ (∀ (s : State) (b : Fin 12), (∀ n, (s.bk b).wait ≠ .ticks n (some s.now)) ∨ s.seqLive b = false ∨ (s.bk b).err ≠ none →
      exec (.wtickExpiry b) s = .next s)
  ∧ (∀ (s u : State) (b : Fin 12) (v : Vec) (l : Nat), LineAt b 0x9 l v.start s u → ∃ t, exec (.season b v) s = .next t
      ∧ SeqRan b 0x9 l v.start u t ∧ t.seqState b = sqRunning ∧ (t.bk b).line = l + 1 ∧ (t.bk b).wait = .none
      ∧ t.staged = u.staged ++ [⟨u.now + 1, .router 0, .season 1, false⟩])
  ∧ (∀ (s u : State) (b : Fin 12) (v : Vec) (l : Nat), LineAt b 0xd l v.start s u → ∃ t, exec (.halt b v) s = .next t
      ∧ SeqRan b 0xd l v.start u t ∧ t.seqState b = sqRunning ∧ (t.bk b).wait = .halt ∧ t.staged = u.staged)
  ∧ ∀ (s : State) (b : Fin 12) (x : Nat), (s.bk b).wait = .halt →
      (x ≤ (s.bk b).endAt → s.haltDue b x = s)
      ∧ ((s.bk b).endAt < x → (s.haltDue b x).seqState b = sqHalted ∧ ((s.haltDue b x).bk b).wait = .none
        ∧ (s.haltDue b x).rt.events = s.rt.events ++ [evAt s evBank b 1 ((s.bk b).endAt, false)])

/-- R148, R150, R151: one repetition of a match loop. Without a judged channel the line goes on; with one the loop repeats, the
judged strobes of the repetition being its match tests. A repetition whose tests all pass matches, and line L + 1 follows 24
CONV periods after its last strobe; one with a fail counts the loop counter down and, with the counter at 1 or 0, makes the
target line wait for its boundary. WREG waits for its window, and WREG_COMMIT of an admitted line makes its writes as writes of
the sequencer and line L + 2 due at the next boundary; else it does nothing. That a repetition is judged at its last strobe is
the model's reading (assumption 60). -/
def Obligations.MatchLoopsAndRegisterLines : Prop :=
  (∀ (s u : State) (b : Fin 12) (v : Vec) (l : Nat) (judged : List Nat), LineAt b 0xa l v.start s u →
      judged = (lineChans b u).filter (fun i => codeJudged (u.pinCode b l i)) →
      ∃ t, exec (.mloop b v) s = .next t ∧ SeqRan b 0xa l v.start u t ∧ t.staged = u.staged
      ∧ (∀ x, (u.bk b).matched = some (l, x) → t.seqState b = sqWaiting ∧ (t.bk b).line = l + 1 ∧ (t.bk b).wait = .mloop
          ∧ (t.bk b).matched = some (l, x) ∧ (t.bk b).reps = (u.bk b).reps)
      ∧ ((∀ x, (u.bk b).matched ≠ some (l, x)) → judged = [] → t.seqState b = sqRunning ∧ (t.bk b).line = l + 1 ∧ (t.bk b).wait = .none
          ∧ (t.bk b).reps = (u.bk b).reps)
      ∧ ((∀ x, (u.bk b).matched ≠ some (l, x)) → judged ≠ [] → t.seqState b = sqWaiting ∧ (t.bk b).line = l ∧ (t.bk b).wait = .mloop
          ∧ ∃ last, (t.bk b).reps = (u.bk b).reps ++ [⟨u.clk.start + v.start, l, judged.length, false, last⟩]
            ∧ (∀ i ∈ lineChans b u, codeStrobe (u.pinCode b l i) = true → u.strobeInst b i (u.clk.start + v.start) ≤ last)
            ∧ ((t.bk b).strobes.filter (fun x => x.test == some (u.clk.start + v.start))).map (fun x => (x.ch, x.at_, x.code))
              = ((u.bk b).strobes.filter (fun x => x.test == some (u.clk.start + v.start))).map (fun x => (x.ch, x.at_, x.code))
                ++ judged.map (fun i => (i, u.strobeInst b i (u.clk.start + v.start), u.pinCode b l i))))
  ∧ (∀ (s : State) (b : Fin 12) (r : Rep) (n : Nat), n = s.loopCnt b (s.lineSel b r.line) →
      (r.failed = false → ((s.judgeRep b r).bk b).matched = some (r.line, r.last + 24 * 128)
        ∧ ((s.judgeRep b r).bk b).line = r.line + 1 ∧ (s.judgeRep b r).reg = s.reg)
      ∧ (r.failed = true → 1 < n → (s.judgeRep b r).loopCnt b (s.lineSel b r.line) = n - 1 ∧ (s.judgeRep b r).bank = s.bank)
      ∧ (r.failed = true → n ≤ 1 → (s.judgeRep b r).loopCnt b (s.lineSel b r.line) = 0 ∧ (s.judgeRep b r).seqState b = sqWaiting
        ∧ ((s.judgeRep b r).bk b).wait = .target (s.lineTarget b r.line) none))
  ∧ (∀ (s u : State) (b : Fin 12) (v : Vec) (l : Nat), LineAt b 0xc l v.start s u → ∃ t, exec (.wreg b v) s = .next t
      ∧ SeqRan b 0xc l v.start u t ∧ t.seqState b = sqWaiting ∧ (t.bk b).line = l ∧ (t.bk b).wregReady = false
      ∧ (t.bk b).wregAsked = false ∧ (t.bk b).wait = .wreg none ∧ t.staged = u.staged)
  ∧ (∀ (s w : State) (b : Fin 12) (c : Nat), (s.bk b).wait = .wreg (some c) → (s.bk b).wregReady = true → c ≤ s.now →
      w = (s.wregWrites b (s.bk b).line).foldl (fun s p => s.writeReg p.1 ⟨.seq b, p.2, 0⟩) s →
      ∃ t, exec (.wregCommit b) s = .next t ∧ (t.bk b).wregReady = false
      ∧ (t.bk b).wait = .target (((s.bk b).line + 2) % 2 ^ 18) (some (w.now + 1)) ∧ t.reg = w.reg ∧ t.frc = w.frc
      ∧ t.staged.map (fun x => (x.due, x.who, x.eff)) = w.staged.map (fun x => (x.due, x.who, x.eff)))
  ∧ ∀ (s : State) (b : Fin 12), (∀ c, (s.bk b).wait = .wreg (some c) → (s.bk b).wregReady = false ∨ s.now < c) →
      exec (.wregCommit b) s = .next s

/-- R141, R156 to R158, R175: SEQ_GO arms a sequencer that is neither armed nor live, with its start condition, and with a `SEQ_AT` that the
count has passed arms it to start at once, with START_LATE; of an armed or live one it sets START_IGN. SEQ_STOP of an armed one makes it
IDLE, of a live one HALTED with its event, unless its next line offends, which takes its error halt instead; in any other state it does
nothing. SEQ_ABORT makes it ABORTED and its bank SAFE if ACTIVE. SEQUENCER_START of an armed one in an ACTIVE bank with valid edges whose
condition holds starts it at its line, and does nothing otherwise. -/
def Obligations.SequencerControl : Prop :=
  (∀ (s : State) (b : Fin 12) (cond flag addr d : Nat), s.seqState b ∉ [sqArmed, sqRunning, sqWaiting] →
      d = ((s.rd (A.SEQ_AT b)).toNat + 2 ^ 36 - s.clk.count % 2 ^ 36) % 2 ^ 36 →
      ∃ t, exec (.seqGo b cond flag addr) s = .next t ∧ t.seqState b = sqArmed ∧ (t.bk b).armFlag = flag
      ∧ (t.bk b).armAddr = addr % 2 ^ 18 ∧ t.fget (A.BANK_STATUS b) F.BANK_STATUS.ERR = 0 ∧ (t.bk b).err = none
      ∧ (cond = 2 ∧ (d < 2 ∨ 2 ^ 35 ≤ d) → (t.bk b).armCond = 0 ∧ t.fon (A.BANK_STATUS b) F.BANK_STATUS.START_LATE = true
        ∧ RegBits [bitsOf (A.BANK_STATUS b) [F.BANK_STATUS.SEQ, F.BANK_STATUS.ERR, F.BANK_STATUS.START_LATE]] s t)
      ∧ (¬(cond = 2 ∧ (d < 2 ∨ 2 ^ 35 ≤ d)) → (t.bk b).armCond = cond
        ∧ RegBits [bitsOf (A.BANK_STATUS b) [F.BANK_STATUS.SEQ, F.BANK_STATUS.ERR]] s t))
  ∧ (∀ (s : State) (b : Fin 12) (cond flag addr : Nat), s.seqState b ∈ [sqArmed, sqRunning, sqWaiting] →
      ∃ t, exec (.seqGo b cond flag addr) s = .next t ∧ t.bank = s.bank ∧ t.fon (A.BANK_STATUS b) F.BANK_STATUS.START_IGN = true
      ∧ RegBits [bitsOf (A.BANK_STATUS b) [F.BANK_STATUS.START_IGN]] s t)
  ∧ (∀ (s : State) (b : Fin 12), s.seqState b = sqArmed → ∃ t, exec (.seqStop b) s = .next t ∧ t.seqState b = sqIdle
      ∧ (t.bk b).wait = .none)
  ∧ (∀ (s : State) (b : Fin 12), s.seqLive b = true → (s.bk b).err = none → (∀ l, s.nextLine b = some l → s.lineFault b l = none) →
      ∃ t, exec (.seqStop b) s = .next t ∧ t.seqState b = sqHalted ∧ (t.bk b).wait = .none ∧ (t.bk b).endAt = (s.bk b).endAt
      ∧ (t.bk b).strobes = (s.bk b).strobes ∧ (t.bk b).handTo = (if (s.bk b).hand then some (s.bk b).endAt else none)
      ∧ t.rt.events = s.rt.events ++ [⟨evBank, b, 1, s.now, s.tickStamp, 0⟩])
  ∧ (∀ (s : State) (b : Fin 12) (l code : Nat), s.seqLive b = true → (s.bk b).err = none → s.nextLine b = some l →
      s.lineFault b l = some code → ∃ t, exec (.seqStop b) s = .next t ∧ LineRefused b l code s t)
  ∧ (∀ (s : State) (b : Fin 12), (s.seqState b ≠ sqArmed ∧ s.seqLive b = false) ∨ (s.seqLive b = true ∧ (s.bk b).err ≠ none) →
      exec (.seqStop b) s = .next s)
  ∧ (∀ (s : State) (b : Fin 12), (∀ r ∈ s.led.queue, r.key = .wreg b → ∀ v, Eff.force (A.BANK_STATUS b) v ∉ r.effs) →
      ∃ t, exec (.seqAbort b) s = .next t ∧ t.seqState b = sqAborted ∧ (t.bk b).wait = .none ∧ (t.bk b).strobes = []
      ∧ (t.bk b).hand = false ∧ (∀ c ∈ bankChans b, (t.ch c).wave = [])
      ∧ t.bankState b = if s.bankState b = bankActive then bankSafe else s.bankState b)
  ∧ (∀ (s : State) (b : Fin 12), s.seqState b = sqArmed → s.bankState b = bankActive → s.edgesValid b = true → s.startOk b = true →
      ∃ t, exec (.sequencerStart b) s = .next t ∧ t.seqState b = sqRunning ∧ (t.bk b).line = (s.bk b).armAddr
      ∧ (t.bk b).firstAt = some (s.now + 1) ∧ (t.bk b).stack = [] ∧ (t.bk b).wait = .none
      ∧ t.rd (A.SEQ_VCNT b) = 0 ∧ (∀ c, c < 4 → t.rd (A.SEQ_CNT b c) = 0) ∧ (∀ i, i < 64 → t.rd (A.SEQ_CAPT b i) = 0)
      ∧ (∀ x, x ≠ b.val → t.bk x = s.bk x) ∧ t.staged = s.staged ∧ t.rt = s.rt ∧ t.chan = s.chan)
  ∧ ∀ (s : State) (b : Fin 12), s.seqState b ≠ sqArmed ∨ s.bankState b ≠ bankActive ∨ s.edgesValid b = false ∨ s.startOk b = false →
      exec (.sequencerStart b) s = .next s

/-- The strobe edge at instant `at_` is an active edge that the responder accepts: the responder is enabled, the handover has run for 2.0 ns
and not ended before the edge, and H of the strobe pin, in PATTERN, changes there to the level of STB_EDGE. -/
def Sys2Proof.Machine.StrobeEdge (b at_ : Nat) (u : State) : Prop :=
  F.RESP_CTL.EN.on (u.bk b).respCtl = true ∧ (u.bk b).cut = false ∧ (u.bk b).handFrom + handGap ≤ at_
    ∧ ((u.bk b).hand = true ∨ ∃ e, (u.bk b).handEnded = some e ∧ at_ < e)
    ∧ u.funcEff (64 * b + F.RESP_PINS.STB.get (u.bk b).respPins) = fnPattern
    ∧ edgeAt at_ (!F.RESP_CTL.STB_EDGE.on (u.bk b).respCtl) (u.ch (64 * b + F.RESP_PINS.STB.get (u.bk b).respPins)).pts = true
    ∧ ∀ e, (u.bk b).lastEdge = some e → e < at_

/-- The qualifier of an edge is at its active level, or not asked for. -/
def Sys2Proof.Machine.Qualified (b at_ : Nat) (u : State) : Prop :=
  F.RESP_CTL.QUAL_EN.on (u.bk b).respCtl = true →
    u.sensed (64 * b + F.RESP_PINS.QUAL.get (u.bk b).respPins) at_ = F.RESP_CTL.QUAL_POL.on (u.bk b).respCtl

/-- The address is in the window, with a valid entry. -/
def Sys2Proof.Machine.RespHit (b addr : Nat) (u : State) : Prop :=
  ((addr / 4096) ^^^ F.RESP_WIN.MATCH.get (u.bk b).respWin) &&& F.RESP_WIN.MASK.get (u.bk b).respWin = 0
    ∧ entValid.on (u.memRd (A.RESP_RAM b (addr % 4096))) = true

/-- The data pins are to be driven so: pin j to bit j of the data where bit j of OE is 1, and to high impedance elsewhere. -/
def Sys2Proof.Machine.DataDriven (b data oe : Nat) (keep : Bool) (u t : State) : Prop :=
  (t.bk b).respDrive = some (data, oe, keep)
    ∧ (∀ p ∈ u.respData b, (t.ch p.2).pat = if oe.testBit p.1 then (if data.testBit p.1 then .vih else .vil) else .hiz)
    ∧ ∀ c, (∀ p ∈ u.respData b, p.2 ≠ c) → t.ch c = u.ch c

/-- R163 to R171, R174, R176: a BUS_CYCLE at an accepted edge of the strobe. An edge closer than 10 ns to the one that began the last cycle
only counts in OVR; an address in the window with a valid entry is a hit, counted and reported with the edge's stamp, whose terminal
mark sets the handover flag two ticks on; any other is a miss, which MISS_FAULT makes a fault of the bank. The outcome is
driven on the data pins; where its instant falls after the end of the handover it drives nothing and counts in CUT. An edge that is not
accepted or whose qualifier is inactive begins no cycle. DATA_HOLD_END ends the drive of an outcome without KEEP, HOLD CONV
periods after the inactive edge, and no other.
That a cycle whose outcome comes too late is told by its operand is the model's reading (assumption 31). -/
def Obligations.ResponderCycles : Prop :=
  (∀ (s u : State) (b : Fin 12) (fine at_ addr : Nat) (cut : Bool) (e : Word), at_ = s.clk.start + fine → u = s.handDue b at_ →
      StrobeEdge b at_ u → Qualified b at_ u → (∀ x, (u.bk b).lastCycle = some x → x + 6144 ≤ at_) →
      addr = u.respAddr b at_ → e = u.memRd (A.RESP_RAM b (addr % 4096)) →
      ∃ t, exec (.busCycle b fine cut) s = .next t ∧ (t.bk b).lastEdge = some at_ ∧ (t.bk b).lastCycle = some at_
      ∧ (RespHit b addr u → t.fget (A.RESP_HITS b) F.RESP_HITS.HITS
            = min (u.fget (A.RESP_HITS b) F.RESP_HITS.HITS + 1) F.RESP_HITS.HITS.max
          ∧ t.fget (A.RESP_LAST b) F.RESP_LAST.ADDR = addr ∧ t.fon (A.RESP_LAST b) F.RESP_LAST.MISS = false
          ∧ t.fon (A.RESP_LAST b) F.RESP_LAST.VALID = true ∧ t.rd (A.RESP_FIRSTMISS b) = u.rd (A.RESP_FIRSTMISS b)
          ∧ t.fget (A.RESP_ERRS b) F.RESP_ERRS.MISSES = u.fget (A.RESP_ERRS b) F.RESP_ERRS.MISSES
          ∧ t.rt.events = u.rt.events ++ [⟨evResp, b, 0, u.now, u.stampAt at_ true, 0⟩]
              ++ (if entMark.on e then [⟨evResp, b, 1, u.now, u.stampAt at_ true, 0⟩] else [])
              ++ (if entTerm.on e then [⟨evResp, b, 2, u.now, u.stampAt at_ true, 0⟩] else [])
          ∧ (entTerm.on e = true → t.fon (A.RESP_STAT b) F.RESP_STAT.TERM = true)
          ∧ t.staged = u.staged ++ (if entTerm.on e then [⟨u.now + 2, .responder, .flags b
              (if F.RESP_CTL.TVAL.on (u.bk b).respCtl then 2 ^ F.RESP_CTL.FLAG.get (u.bk b).respCtl else 0)
              (if F.RESP_CTL.TVAL.on (u.bk b).respCtl then 0 else 2 ^ F.RESP_CTL.FLAG.get (u.bk b).respCtl), false⟩] else [])
          ∧ (cut = false → (u.bk b).hand = true → DataDriven b (entData.get e) (entOe.get e) (entKeep.on e) u t))
      ∧ (¬RespHit b addr u → t.fget (A.RESP_ERRS b) F.RESP_ERRS.MISSES
            = min (u.fget (A.RESP_ERRS b) F.RESP_ERRS.MISSES + 1) F.RESP_ERRS.MISSES.max
          ∧ t.fget (A.RESP_LAST b) F.RESP_LAST.ADDR = addr ∧ t.fon (A.RESP_LAST b) F.RESP_LAST.MISS = true
          ∧ t.fon (A.RESP_LAST b) F.RESP_LAST.VALID = true
          ∧ (u.fon (A.RESP_FIRSTMISS b) F.RESP_FIRSTMISS.VALID = false → t.fget (A.RESP_FIRSTMISS b) F.RESP_FIRSTMISS.ADDR = addr
            ∧ t.fon (A.RESP_FIRSTMISS b) F.RESP_FIRSTMISS.VALID = true)
          ∧ (u.fon (A.RESP_FIRSTMISS b) F.RESP_FIRSTMISS.VALID = true → t.rd (A.RESP_FIRSTMISS b) = u.rd (A.RESP_FIRSTMISS b))
          ∧ t.rt.events = u.rt.events ++ [⟨evResp, b, 3, u.now, u.stampAt at_ true, 0⟩] ∧ t.staged = u.staged
          ∧ (t.bk b).missNow = (F.RESP_CTL.MISS_FAULT.on (u.bk b).respCtl || (u.bk b).missNow)
          ∧ (cut = false → (u.bk b).hand = true → DataDriven b
              (if F.RESP_CTL.MISS_DRV.on (u.bk b).respCtl then F.RESP_MISS.DATA.get (u.bk b).respMiss else 0)
              (if F.RESP_CTL.MISS_DRV.on (u.bk b).respCtl then F.RESP_MISS.OE.get (u.bk b).respMiss else 0) false u t))
      ∧ (cut = false ∧ (u.bk b).hand = true → t.fget (A.RESP_ERRS b) F.RESP_ERRS.CUT = u.fget (A.RESP_ERRS b) F.RESP_ERRS.CUT)
      ∧ (cut = true ∨ (u.bk b).hand = false → t.chan = u.chan ∧ (t.bk b).respDrive = (u.bk b).respDrive
          ∧ t.fget (A.RESP_ERRS b) F.RESP_ERRS.CUT = min (u.fget (A.RESP_ERRS b) F.RESP_ERRS.CUT + 1) F.RESP_ERRS.CUT.max)
      ∧ RegBits [wholeReg (A.RESP_HITS b), bitsOf (A.RESP_ERRS b) [F.RESP_ERRS.MISSES, F.RESP_ERRS.CUT], wholeReg (A.RESP_LAST b),
          wholeReg (A.RESP_FIRSTMISS b), bitsOf (A.RESP_STAT b) [F.RESP_STAT.TERM]] u t)
  ∧ (∀ (s u : State) (b : Fin 12) (fine at_ x : Nat) (cut : Bool), at_ = s.clk.start + fine → u = s.handDue b at_ →
      StrobeEdge b at_ u → Qualified b at_ u → (u.bk b).lastCycle = some x → at_ < x + 6144 →
      ∃ t, exec (.busCycle b fine cut) s = .next t ∧ t.bk b = { u.bk b with lastEdge := some at_ } ∧ t.chan = u.chan ∧ t.rt = u.rt
      ∧ t.fget (A.RESP_ERRS b) F.RESP_ERRS.OVR = min (u.fget (A.RESP_ERRS b) F.RESP_ERRS.OVR + 1) F.RESP_ERRS.OVR.max
      ∧ RegBits [bitsOf (A.RESP_ERRS b) [F.RESP_ERRS.OVR]] u t)
  ∧ (∀ (s u : State) (b : Fin 12) (fine at_ : Nat) (cut : Bool), at_ = s.clk.start + fine → u = s.handDue b at_ →
      StrobeEdge b at_ u → ¬Qualified b at_ u →
      exec (.busCycle b fine cut) s = .next (u.updBk b (fun k => { k with lastEdge := some at_ })))
  ∧ (∀ (s u : State) (b : Fin 12) (fine at_ : Nat) (cut : Bool), at_ = s.clk.start + fine → u = s.handDue b at_ →
      ¬StrobeEdge b at_ u → exec (.busCycle b fine cut) s = .next u)
  ∧ (∀ (s u : State) (b : Fin 12) (fine at_ d oe : Nat) (stb : Nat), at_ = s.clk.start + fine → u = s.handDue b at_ →
      (u.bk b).respDrive = some (d, oe, false) → stb = 64 * b + F.RESP_PINS.STB.get (u.bk b).respPins →
      (u.pointAt stb at_).h = F.RESP_CTL.STB_EDGE.on (u.bk b).respCtl →
      (u.ch stb).hAt + 128 * F.RESP_CTL.HOLD.get (u.bk b).respCtl ≤ at_ → ∃ t, exec (.dataHoldEnd b fine) s = .next t
      ∧ t.bk b = { u.bk b with respDrive := none } ∧ (∀ p ∈ u.respData b, (t.ch p.2).pat = .hiz)
      ∧ (∀ c, (∀ p ∈ u.respData b, p.2 ≠ c) → t.ch c = u.ch c) ∧ t.reg = u.reg)
  ∧ ∀ (s u : State) (b : Fin 12) (fine at_ : Nat) (stb : Nat), at_ = s.clk.start + fine → u = s.handDue b at_ →
      stb = 64 * b + F.RESP_PINS.STB.get (u.bk b).respPins →
      ((u.bk b).respDrive = none ∨ (∃ d oe, (u.bk b).respDrive = some (d, oe, true))
        ∨ (u.pointAt stb at_).h ≠ F.RESP_CTL.STB_EDGE.on (u.bk b).respCtl
        ∨ at_ < (u.ch stb).hAt + 128 * F.RESP_CTL.HOLD.get (u.bk b).respCtl) → exec (.dataHoldEnd b fine) s = .next u

/-! ### Converters, sources and engines (R192 to R258) -/

/-- A result goes beyond a limit that is enabled: HI above `LIMHI`, LO below `LIMLO`. -/
def Sys2Proof.Machine.pmuBeyond (c : Nat) (res : Int) (hi : Bool) (s : State) : Bool :=
  if hi then s.eon (A.CH_PMU_CTL c) F.CH_PMU_CTL.LIM_HI_EN && decide (twos 36 (s.rd (A.CH_PMU_LIMHI c)).toNat < res)
  else s.eon (A.CH_PMU_CTL c) F.CH_PMU_CTL.LIM_LO_EN && decide (res < twos 36 (s.rd (A.CH_PMU_LIMLO c)).toNat)

/-- R192, R195, R196, R199 to R202, R373: PMC_GO of a usable converter asks the arbiter in its writer's class, in place of the request that
waits in this class, of one that is not sets IGN, and under a reload of the bank does nothing. PMC_STOP frees the converter and leaves it
only the calibration engine's requests. PMC_RESULT stores the oldest measured channel once it is due and no lower converter has a result
of this channel to store before it: the mean, its information word, its count, the limits it exceeds with their counts and events; a
channel that was not connected stores 0 with NOCONN. Else it does nothing. -/
def Obligations.ConverterCommands : Prop :=
  (∀ (s : State) (b : Fin 12) (k : Fin 8) (who : Writer), (s.bk b).reload = false → s.pmcUsable b k = true →
      ∃ t, exec (.pmcGo b k who) s = .next t ∧ (∃ a ∈ t.rt.arbs, a.res = .pmc (pmcOf b k) ∧ a.cls = classOf who ∧ a.idx = classIndex who
        ∧ a.who = who ∧ a.aged = false ∧ a.frm = s.now ∧ a.id = s.rt.nextId)
      ∧ (∀ a ∈ t.rt.arbs, a.res = .pmc (pmcOf b k) → a.cls = classOf who → a.tag = 0 → a.id = s.rt.nextId)
      ∧ (∀ a ∈ s.rt.arbs, a.res ≠ .pmc (pmcOf b k) ∨ a.cls ≠ classOf who → a ∈ t.rt.arbs)
      ∧ t.fon (A.PMC_STAT b k) F.PMC_STAT.WAITING = true ∧ RegBits [bitsOf (A.PMC_STAT b k) [F.PMC_STAT.WAITING]] s t)
  ∧ (∀ (s : State) (b : Fin 12) (k : Fin 8) (who : Writer), (s.bk b).reload = false → s.pmcUsable b k = false →
      ∃ t, exec (.pmcGo b k who) s = .next t ∧ t.rt = s.rt ∧ t.fon (A.PMC_STAT b k) F.PMC_STAT.IGN = true
      ∧ RegBits [bitsOf (A.PMC_STAT b k) [F.PMC_STAT.IGN]] s t)
  ∧ (∀ (s : State) (b : Fin 12) (k : Fin 8) (who : Writer), (s.bk b).reload = true → exec (.pmcGo b k who) s = .next s)
  ∧ (∀ (s : State) (b : Fin 12) (k : Fin 8), ∃ t, exec (.pmcStop b k) s = .next t
      ∧ t.pm (pmcOf b k) = { s.pm (pmcOf b k) with holder := none, running := false, settle := none, i := 0 }
      ∧ t.rt.arbs = s.rt.arbs.filter (fun a => !(a.res == .pmc (pmcOf b k) && a.cls != .cal))
      ∧ t.fon (A.PMC_STAT b k) F.PMC_STAT.BUSY = false ∧ t.fon (A.PMC_STAT b k) F.PMC_STAT.LEDGER_WAIT = false
      ∧ t.fon (A.PMC_STAT b k) F.PMC_STAT.WAITING = t.rt.arbs.any (fun a => a.res == .pmc (pmcOf b k))
      ∧ (∀ r ∈ t.led.queue, r.key ≠ .pmc (pmcOf b k)) ∧ (∀ x ∈ t.staged, x.eff ≠ .pmcBegin (pmcOf b k))
      ∧ (∀ n, n ≠ pmcOf b k → t.pm n = s.pm n)
      ∧ RegBits [bitsOf (A.PMC_STAT b k) [F.PMC_STAT.BUSY, F.PMC_STAT.LEDGER_WAIT, F.PMC_STAT.WAITING]] s t)
  ∧ (∀ (s : State) (b : Fin 12) (k : Fin 8) (sum : Int) (ovr : Bool) (d : PmcDone) (rest : List PmcDone) (info : Word) (res : Int),
      (s.pm (pmcOf b k)).done = d :: rest → d.due ≤ s.now → s.pmcLower b k d.ch = false → res = pmcResult sum d.navg →
      ∃ t, exec (.pmcResult b k sum ovr) s = .next t ∧ t.pm (pmcOf b k) = { s.pm (pmcOf b k) with done := rest }
      ∧ (info = (t.ch d.ch).pmuInfo → F.CH_PMU_RESINFO.NEW.on info = true ∧ F.CH_PMU_RESINFO.NOCONN.on info = d.noconn
        ∧ F.CH_PMU_RESINFO.RAMPED.on info = d.ramped ∧ F.CH_PMU_RESINFO.MEAS.on info = d.meas
        ∧ F.CH_PMU_RESINFO.RANGE.get info = d.range % 8 ∧ F.CH_PMU_RESINFO.NAVG.get info = d.navg % 32
        ∧ F.CH_PMU_RESINFO.PMC.get info = k.val ∧ F.CH_PMU_RESINFO.TICK.get info = d.tick % (F.CH_PMU_RESINFO.TICK.max + 1)
        ∧ F.CH_PMU_RESINFO.OVR.on info = (ovr && !d.noconn)
        ∧ F.CH_PMU_RESINFO.HI.on info = (pmuBeyond d.ch res true s && !d.noconn)
        ∧ F.CH_PMU_RESINFO.LO.on info = (pmuBeyond d.ch res false s && !d.noconn))
      ∧ t.fon (A.CH_PMU_STATUS d.ch) F.CH_PMU_STATUS.OVW
        = (s.fon (A.CH_PMU_STATUS d.ch) F.CH_PMU_STATUS.OVW || F.CH_PMU_RESINFO.NEW.on (s.ch d.ch).pmuInfo)
      ∧ (d.noconn = true → t.rd (A.CH_PMU_RES d.ch) = 0 ∧ t.rd (A.CH_PMU_SUM d.ch) = s.rd (A.CH_PMU_SUM d.ch) ∧ t.rt = s.rt)
      ∧ (d.noconn = false → t.rd (A.CH_PMU_RES d.ch) = BitVec.ofInt 36 res
        ∧ t.fget (A.CH_PMU_SUM d.ch) F.CH_PMU_SUM.RESULTS
          = min (s.fget (A.CH_PMU_SUM d.ch) F.CH_PMU_SUM.RESULTS + 1) F.CH_PMU_SUM.RESULTS.max
        ∧ t.fget (A.CH_PMU_SUM d.ch) F.CH_PMU_SUM.HI
          = min (s.fget (A.CH_PMU_SUM d.ch) F.CH_PMU_SUM.HI + (if pmuBeyond d.ch res true s then 1 else 0)) F.CH_PMU_SUM.HI.max
        ∧ t.fget (A.CH_PMU_SUM d.ch) F.CH_PMU_SUM.LO
          = min (s.fget (A.CH_PMU_SUM d.ch) F.CH_PMU_SUM.LO + (if pmuBeyond d.ch res false s then 1 else 0)) F.CH_PMU_SUM.LO.max
        ∧ t.fon (A.CH_PMU_STATUS d.ch) F.CH_PMU_STATUS.LIM_HI
          = (s.fon (A.CH_PMU_STATUS d.ch) F.CH_PMU_STATUS.LIM_HI || pmuBeyond d.ch res true s)
        ∧ t.fon (A.CH_PMU_STATUS d.ch) F.CH_PMU_STATUS.LIM_LO
          = (s.fon (A.CH_PMU_STATUS d.ch) F.CH_PMU_STATUS.LIM_LO || pmuBeyond d.ch res false s)
        ∧ t.rt.events = s.rt.events ++ (if pmuBeyond d.ch res true s then [⟨evPmu, d.ch, 0, s.now - 1, s.prevStamp, 0⟩] else [])
            ++ (if pmuBeyond d.ch res false s then [⟨evPmu, d.ch, 1, s.now - 1, s.prevStamp, 0⟩] else []))
      ∧ RegBits [wholeReg (A.CH_PMU_RES d.ch), wholeReg (A.CH_PMU_SUM d.ch),
          bitsOf (A.CH_PMU_STATUS d.ch) [F.CH_PMU_STATUS.OVW, F.CH_PMU_STATUS.LIM_HI, F.CH_PMU_STATUS.LIM_LO]] s t)
  ∧ ∀ (s : State) (b : Fin 12) (k : Fin 8) (sum : Int) (ovr : Bool),
      (∀ d rest, (s.pm (pmcOf b k)).done = d :: rest → s.now < d.due ∨ s.pmcLower b k d.ch = true) →
      exec (.pmcResult b k sum ovr) s = .next s

/-- What becomes of a request of several effects that go together: with nothing to charge each waits for its boundary, unless one that
prevails does already; else all join the ledger's queue in one request, as one of its own or in that of the rule that asks. -/
def Sys2Proof.Machine.AskedFor (key : ReqKey) (effs : List Eff) (who : Writer) (x t : State) : Prop :=
  t.led.committed = x.led.committed
    ∧ (x.chargeOf effs = 0 → ∀ e ∈ effs, (∀ q ∈ x.staged, q.due = x.dueAt 0 → q.eff.sameTarget e = true → writerPrevails who q.who = true) →
        ⟨x.dueAt 0, who, e, false⟩ ∈ t.staged)
    ∧ (0 < x.chargeOf effs → t.staged = x.staged ∧ (∃ r ∈ t.led.queue, r.key = queueKey key who ∧ ∀ e ∈ effs, e ∈ r.effs)
        ∧ ((∀ n, who ≠ .router n) →
          ∃ r ∈ t.led.queue, r.key = key ∧ r.effs = effs ∧ r.who = who ∧ r.cls = classOf who ∧ r.aged = false))

/-- R7, R37, R46, R48, R211, R234, R373: SOURCE_ENABLE and AE_ENABLE are a write of the control register with EN = 1. Where it
raises EN and no condition of R209 or R234 bars the source or engine, the write waits whole with the request for the charge,
EN_PEND set; a host's that finds the shared queue full is discarded and counted in LEDGER_FULL. Else it waits for its boundary
and asks for nothing. A value that the register does not take changes nothing, and under a reload the write is ignored with
WR_IGN. -/
def Obligations.ElementEnables : Prop :=
  (∀ (s : State) (b : Fin 12) (j : Fin 2) (who : Writer) (v r : Word) (n : Nat), n = elemOf b j →
      v = F.SRC_CTL.EN.put (s.rd (A.SRC_CTL b j)) 1 → r = v &&& (regInfo (A.SRC_CTL b j)).rw →
      ∃ t, exec (.sourceEnable b j who) s = .next t
      ∧ ((s.bk b).reload = true → WriteIgnored s t ∧ t.led = s.led)
      ∧ ((s.bk b).reload = false → accepts (A.SRC_CTL b j) v = false → t = s)
      ∧ ((s.bk b).reload = false → accepts (A.SRC_CTL b j) v = true → s.srcRises n r = true → s.srcMayAsk n = true →
        (s.queueFull (classOf who) (.src n) [.srcOn n] = true → QueueWasFull s t)
        ∧ (s.queueFull (classOf who) (.src n) [.srcOn n] = false →
          t.rd (A.SRC_CTL b j) = r ∧ t.fon (A.SRC_STATUS b j) F.SRC_STATUS.EN_PEND = true ∧ t.sr n = { s.sr n with who := who }
          ∧ AskedFor (.src n) [.force (A.SRC_CTL b j) r, .srcOn n] who ((s.wr (A.SRC_CTL b j) r).updSr n (fun k => { k with who := who })) t
          ∧ RegBits [wholeReg (A.SRC_CTL b j), bitsOf (A.SRC_STATUS b j) [F.SRC_STATUS.EN_PEND]] s t))
      ∧ ((s.bk b).reload = false → accepts (A.SRC_CTL b j) v = true → (s.srcRises n r = false ∨ s.srcMayAsk n = false) →
        t.rd (A.SRC_CTL b j) = r ∧ t.frc = s.frc ∧ t.led.nextId = s.led.nextId ∧ t.led.committed = s.led.committed
        ∧ ((∀ q ∈ s.staged, q.due = s.dueAt 0 → q.eff.sameTarget (.force (A.SRC_CTL b j) r) = true → writerPrevails who q.who = true) →
          ⟨s.dueAt 0, who, .force (A.SRC_CTL b j) r, false⟩ ∈ t.staged)
        ∧ RegBits [wholeReg (A.SRC_CTL b j), bitsOf (A.SRC_STATUS b j) [F.SRC_STATUS.EN_PEND]] s t))
  ∧ ∀ (s : State) (b : Fin 12) (j : Fin 2) (who : Writer) (v r : Word) (e : Nat) (cmd : List Eff), e = elemOf b j →
      v = F.AE_CTL.EN.put (s.rd (A.AE_CTL b j)) 1 → r = v &&& (regInfo (A.AE_CTL b j)).rw →
      cmd = (if F.AE_CTL.GO.on v || F.AE_CTL.STOP.on v then [.ae e (F.AE_CTL.GO.on v) (F.AE_CTL.STOP.on v)] else []) →
      ∃ t, exec (.aeEnable b j who) s = .next t
      ∧ ((s.bk b).reload = true → WriteIgnored s t ∧ t.led = s.led)
      ∧ ((s.bk b).reload = false → accepts (A.AE_CTL b j) v = false → t = s)
      ∧ ((s.bk b).reload = false → accepts (A.AE_CTL b j) v = true → s.aeRises e r = true → s.aeBarred e = false →
        (s.queueFull (classOf who) (.ae e) [.aeOn e] = true → QueueWasFull s t)
        ∧ (s.queueFull (classOf who) (.ae e) [.aeOn e] = false →
          t.rd (A.AE_CTL b j) = r ∧ t.fon (A.AE_STATUS b j) F.AE_STATUS.EN_PEND = true ∧ t.en e = { s.en e with who := who }
          ∧ AskedFor (.ae e) (.force (A.AE_CTL b j) r :: cmd ++ [.aeOn e]) who
              ((s.wr (A.AE_CTL b j) r).updEn e (fun k => { k with who := who })) t
          ∧ RegBits [wholeReg (A.AE_CTL b j), bitsOf (A.AE_STATUS b j) [F.AE_STATUS.EN_PEND]] s t))
      ∧ ((s.bk b).reload = false → accepts (A.AE_CTL b j) v = true → (s.aeRises e r = false ∨ s.aeBarred e = true) →
        t.rd (A.AE_CTL b j) = r ∧ t.frc = s.frc ∧ t.led.nextId = s.led.nextId ∧ t.led.committed = s.led.committed
        ∧ ((∀ q ∈ s.staged, q.due = s.dueAt 0 → q.eff.sameTarget (.force (A.AE_CTL b j) r) = true → writerPrevails who q.who = true) →
          ⟨s.dueAt 0, who, .force (A.AE_CTL b j) r, false⟩ ∈ t.staged)
        ∧ RegBits [wholeReg (A.AE_CTL b j), bitsOf (A.AE_STATUS b j) [F.AE_STATUS.EN_PEND]] s t)

/-- R205, R213, R214, R221, R223 to R225, R373: SOURCE_RANGE_CHANGE to another range or load parks a powered source from this
boundary and ends a waveform that plays, with RANGE_STOP; to those in force it only writes them. SOURCE_LIMIT of a driving
source sets LIMIT and LIMITED, with the event where LIMIT was 0; of another it does nothing. SOURCE_FAULT past the limiting
ticks that LIM allows takes the source to FAULT, makes the bank's pins safe, is a fault of the bank and an event of the tick
before; up to them it does nothing. SOURCE_FAULT_CLEAR clears FAULT unless it was set in this window, and a cleared source that
EN and no other condition holds off asks again. -/
def Obligations.SourceRangeAndFault : Prop :=
  (∀ (s : State) (b : Fin 12) (j : Fin 2) (r : Fin 3) (load : Bool), ∃ t, exec (.sourceRangeChange b j r load) s = .next t
      ∧ t.fget (A.SRC_STATUS b j) F.SRC_STATUS.RANGE_EFF = r ∧ t.fon (A.SRC_STATUS b j) F.SRC_STATUS.LOAD_EFF = load
      ∧ t.fget (A.SRC_CTL b j) F.SRC_CTL.RANGE = r ∧ t.fon (A.SRC_CTL b j) F.SRC_CTL.LOAD = load
      ∧ t.eget (A.SRC_CTL b j) F.SRC_CTL.RANGE = r ∧ t.eon (A.SRC_CTL b j) F.SRC_CTL.LOAD = load
      ∧ (s.fget (A.SRC_STATUS b j) F.SRC_STATUS.RANGE_EFF = r → s.fon (A.SRC_STATUS b j) F.SRC_STATUS.LOAD_EFF = load →
        t.src = s.src ∧ RegBits [bitsOf (A.SRC_CTL b j) [F.SRC_CTL.RANGE, F.SRC_CTL.LOAD]] s t)
      ∧ (¬(s.fget (A.SRC_STATUS b j) F.SRC_STATUS.RANGE_EFF = r ∧ s.fon (A.SRC_STATUS b j) F.SRC_STATUS.LOAD_EFF = load) →
        (t.sr (elemOf b j)).lastHeld = none
        ∧ (s.fget (A.SRC_STATUS b j) F.SRC_STATUS.PLAY = 2 → t.fget (A.SRC_STATUS b j) F.SRC_STATUS.PLAY = 0
            ∧ t.fon (A.SRC_STATUS b j) F.SRC_STATUS.RANGE_STOP = true ∧ (t.sr (elemOf b j)).wave = none)
        ∧ (s.fget (A.SRC_STATUS b j) F.SRC_STATUS.PLAY ≠ 2 →
            t.fget (A.SRC_STATUS b j) F.SRC_STATUS.PLAY = s.fget (A.SRC_STATUS b j) F.SRC_STATUS.PLAY)
        ∧ (s.srcState (elemOf b j) = srParked ∨ s.srcState (elemOf b j) = srDrive → (t.sr (elemOf b j)).parked = s.now
            ∧ t.fget (A.SRC_STATUS b j) F.SRC_STATUS.STATE = srParked))
      ∧ (∀ n, n ≠ elemOf b j → t.sr n = s.sr n)
      ∧ RegBits [bitsOf (A.SRC_CTL b j) [F.SRC_CTL.RANGE, F.SRC_CTL.LOAD], bitsOf (A.SRC_STATUS b j) [F.SRC_STATUS.RANGE_EFF,
          F.SRC_STATUS.LOAD_EFF, F.SRC_STATUS.PLAY, F.SRC_STATUS.RANGE_STOP, F.SRC_STATUS.STATE]] s t)
  ∧ (∀ (s : State) (b : Fin 12) (j : Fin 2) (i : Instant), s.fget (A.SRC_STATUS b j) F.SRC_STATUS.STATE = srDrive →
      ∃ t, exec (.sourceLimit b j i) s = .next t ∧ t.fon (A.SRC_STATUS b j) F.SRC_STATUS.LIMIT = true
      ∧ t.fon (A.SRC_STATUS b j) F.SRC_STATUS.LIMITED = true ∧ (t.sr (elemOf b j)).limNow = true
      ∧ t.rt.events = s.rt.events ++ (if s.fon (A.SRC_STATUS b j) F.SRC_STATUS.LIMIT then []
          else [⟨evSrc, elemOf b j, 0, s.now, s.stamp i.fine false, 0⟩])
      ∧ RegBits [bitsOf (A.SRC_STATUS b j) [F.SRC_STATUS.LIMIT, F.SRC_STATUS.LIMITED]] s t)
  ∧ (∀ (s : State) (b : Fin 12) (j : Fin 2) (i : Instant), s.fget (A.SRC_STATUS b j) F.SRC_STATUS.STATE ≠ srDrive →
      exec (.sourceLimit b j i) s = .next s)
  ∧ (∀ (s : State) (b : Fin 12) (j : Fin 2), s.eget (A.SRC_CTL b j) F.SRC_CTL.LIM < (s.sr (elemOf b j)).lim →
      ∃ t, exec (.sourceFault b j) s = .next t
      ∧ t.fget (A.SRC_STATUS b j) F.SRC_STATUS.STATE = srFault ∧ t.fon (A.SRC_STATUS b j) F.SRC_STATUS.FAULT = true
      ∧ t.fget (A.SRC_STATUS b j) F.SRC_STATUS.PLAY = 0 ∧ (t.sr (elemOf b j)).on = false ∧ (t.sr (elemOf b j)).lim = 0
      ∧ ((s.bk b).fault = none → (t.bk b).fault = some (1, j.val))
      ∧ (∀ f, (s.bk b).fault = some f → (t.bk b).fault = some (if f.1 ≤ 1 then f else (1, j.val)))
      ∧ (∀ c, bankOf c = b.val → (t.ch c).drive = .hiz ∧ (t.ch c).load = false) ∧ (t.bk b).cut = true
      ∧ t.rt.events = s.rt.events ++ [⟨evSrc, elemOf b j, 1, s.now - 1, s.prevStamp, 0⟩]
      ∧ RegBits [bitsOf (A.SRC_STATUS b j) [F.SRC_STATUS.STATE, F.SRC_STATUS.FAULT, F.SRC_STATUS.EN_PEND, F.SRC_STATUS.PLAY]] s t)
  ∧ (∀ (s : State) (b : Fin 12) (j : Fin 2), (s.sr (elemOf b j)).lim ≤ s.eget (A.SRC_CTL b j) F.SRC_CTL.LIM →
      exec (.sourceFault b j) s = .next s)
  ∧ ∀ (s : State) (b : Fin 12) (j : Fin 2), ∃ t, exec (.sourceFaultClear b j) s = .next t
      ∧ ((s.bk b).reload = true → WriteIgnored s t)
      ∧ ((s.bk b).reload = false →
        (Tab.get (fun _ => 0) s.setBits (A.SRC_STATUS b j) &&& F.SRC_STATUS.FAULT.mask = 0 →
          t.fon (A.SRC_STATUS b j) F.SRC_STATUS.FAULT = false
          ∧ (s.eon (A.SRC_CTL b j) F.SRC_CTL.EN = true → (s.sr (elemOf b j)).on = false → s.srcBarred (elemOf b j) = false →
            t.fon (A.SRC_STATUS b j) F.SRC_STATUS.EN_PEND = true ∨ s.hasReq (.src (elemOf b j)) = true
              ∨ ∃ x ∈ s.staged, x.eff = .srcOn (elemOf b j)))
        ∧ (Tab.get (fun _ => 0) s.setBits (A.SRC_STATUS b j) &&& F.SRC_STATUS.FAULT.mask ≠ 0 →
          t.fon (A.SRC_STATUS b j) F.SRC_STATUS.FAULT = s.fon (A.SRC_STATUS b j) F.SRC_STATUS.FAULT)
        ∧ RegBits [bitsOf (A.SRC_STATUS b j) [F.SRC_STATUS.FAULT, F.SRC_STATUS.EN_PEND]] s t)

/-- R216 to R222: SOURCE_PLAY_GO arms playback that is idle and else sets GO_IGN. PLAYBACK_START of armed playback whose condition holds
plays the waveform from this boundary, whose first sample follows the DC code by one tick; else it does nothing. The sample of an instant
is that of its line of vector memory. PLAYBACK_END of a waveform whose last pass ends within the tick ends it, holding its last
sample unless END is set; else it does nothing. SOURCE_PLAY_STOP makes playback idle, and the output follows `SRC_CODE`.
Which lines are read for a tick that a leap may lengthen is the model's reading (assumption 67). -/
def Obligations.SourcePlayback : Prop :=
  (∀ (s : State) (b : Fin 12) (j : Fin 2), ∃ t, exec (.sourcePlayGo b j) s = .next t ∧ t.src = s.src
      ∧ (s.fget (A.SRC_STATUS b j) F.SRC_STATUS.PLAY = 0 → t.fget (A.SRC_STATUS b j) F.SRC_STATUS.PLAY = 1
          ∧ RegBits [bitsOf (A.SRC_STATUS b j) [F.SRC_STATUS.PLAY]] s t)
      ∧ (s.fget (A.SRC_STATUS b j) F.SRC_STATUS.PLAY ≠ 0 → t.fon (A.SRC_STATUS b j) F.SRC_STATUS.GO_IGN = true
          ∧ RegBits [bitsOf (A.SRC_STATUS b j) [F.SRC_STATUS.GO_IGN]] s t))
  ∧ (∀ (s : State) (b : Fin 12) (j : Fin 2), ∃ t, exec (.sourcePlayStop b j) s = .next t
      ∧ t.fget (A.SRC_STATUS b j) F.SRC_STATUS.PLAY = 0 ∧ (t.sr (elemOf b j)).lastHeld = none ∧ (t.sr (elemOf b j)).wave = none
      ∧ (∀ x, t.srcCode (elemOf b j) x = t.srcDc (elemOf b j)) ∧ RegBits [bitsOf (A.SRC_STATUS b j) [F.SRC_STATUS.PLAY]] s t)
  ∧ (∀ (s : State) (b : Fin 12) (j : Fin 2), s.fget (A.SRC_STATUS b j) F.SRC_STATUS.PLAY = 1 →
      F.SRC_PLAY.COND.get (s.eff (A.SRC_PLAY b j)) = 0 ∨ s.flagOn b (F.SRC_PLAY.FLAG.get (s.eff (A.SRC_PLAY b j))) = true →
      ∃ t w, exec (.playbackStart b j) s = .next t ∧ t.fget (A.SRC_STATUS b j) F.SRC_STATUS.PLAY = 2
      ∧ (t.sr (elemOf b j)).wave = some w ∧ w.from_ = s.clk.start ∧ w.first = F.SRC_WAVE.FIRST.get (s.eff (A.SRC_WAVE b j))
      ∧ w.last = F.SRC_WAVE.LAST.get (s.eff (A.SRC_WAVE b j)) ∧ w.reps = F.SRC_PLAY.REPS.get (s.eff (A.SRC_PLAY b j))
      ∧ (∀ x, x < s.clk.start + Config.tickFine → t.srcCode (elemOf b j) x = s.srcDc (elemOf b j))
      ∧ RegBits [bitsOf (A.SRC_STATUS b j) [F.SRC_STATUS.PLAY]] s t)
  ∧ (∀ (s : State) (b : Fin 12) (j : Fin 2), s.fget (A.SRC_STATUS b j) F.SRC_STATUS.PLAY ≠ 1
      ∨ (F.SRC_PLAY.COND.get (s.eff (A.SRC_PLAY b j)) ≠ 0 ∧ s.flagOn b (F.SRC_PLAY.FLAG.get (s.eff (A.SRC_PLAY b j))) = false) →
      exec (.playbackStart b j) s = .next s)
  ∧ (∀ (s : State) (n x : Nat) (w : Wave) (i : Nat), w.lines = [] → s.clk.start ≤ x → x < s.clk.start + Config.tickFine →
      w.from_ + Config.tickFine ≤ x → i = (x - (w.from_ + Config.tickFine)) / 256 →
      (w.reps ≠ 0 → i < w.reps * ((w.last + 1 - w.first) * 18)) →
      (s.waveRead n w).sample i
        = lineSample ((List.range 8).map (fun q => s.memRd (A.VMEM (n / 2) (w.first + i / 18 % (w.last + 1 - w.first)) q))) (i % 18))
  ∧ (∀ (s : State) (b : Fin 12) (j : Fin 2) (w : Wave), (s.sr (elemOf b j)).wave = some w → w.reps ≠ 0 →
      w.from_ + Config.tickFine + w.reps * ((w.last + 1 - w.first) * 18) * 256 ≤ s.tickEnd → ∃ t, exec (.playbackEnd b j) s = .next t
      ∧ t.fget (A.SRC_STATUS b j) F.SRC_STATUS.PLAY = 0 ∧ (t.sr (elemOf b j)).wave = none
      ∧ (t.sr (elemOf b j)).lastHeld = (if s.eon (A.SRC_PLAY b j) F.SRC_PLAY.END then none
          else some (w.sample (w.reps * ((w.last + 1 - w.first) * 18) - 1)))
      ∧ RegBits [bitsOf (A.SRC_STATUS b j) [F.SRC_STATUS.PLAY]] s t)
  ∧ ∀ (s : State) (b : Fin 12) (j : Fin 2), (∀ w, (s.sr (elemOf b j)).wave = some w → w.reps ≠ 0 →
      s.tickEnd < w.from_ + Config.tickFine + w.reps * ((w.last + 1 - w.first) * 18) * 256) → exec (.playbackEnd b j) s = .next s

/-- The engine with the settings that its GO takes (R232). -/
def Sys2Proof.Machine.aeAtGo (s : State) (e : Nat) : Ae :=
  { s.en e with ctl := s.eff (aeCtl e), pre := s.eff (A.AE_PRE (e / 2) (e % 2)), post := s.eff (A.AE_POST (e / 2) (e % 2)) }

/-- R232, R235, R236, R240, R245, R248, R252: AE_GO of an engine in IDLE or DONE with a configuration that fits arms it with segment 0 and an
empty record FIFO, from the first sample at or after this boundary; one that does not fit sets CFG_ERR, and in another state it sets
GO_IGN. AE_STOP makes the engine IDLE, delivering the record under way, which ends with the last sample before the boundary; of an
engine in OFF, CAL or IDLE it does nothing. AE_FORCE puts trigger condition 3 in force for the tick, which is a transition where the
tick before had none. -/
def Obligations.EngineControl : Prop :=
  (∀ (s : State) (b : Fin 12) (j : Fin 2), s.aeState (elemOf b j) = aeIdle ∨ s.aeState (elemOf b j) = aeDone →
      F.AE_POST.POST.get (s.eff (A.AE_POST b j)) ≠ 0 →
      aeNrec (aeAtGo s (elemOf b j)) * aeSegLen (aeAtGo s (elemOf b j)) ≤ 1048576 → ∃ t, exec (.aeGo b j) s = .next t
      ∧ t.aeState (elemOf b j) = aeArmed ∧ t.fget (A.AE_STATUS b j) F.AE_STATUS.SEG = 0
      ∧ t.fget (A.AE_STATUS b j) F.AE_STATUS.REC_LEVEL = 0
      ∧ t.en (elemOf b j) = { aeAtGo s (elemOf b j) with
          recs := [], done := [], ended := [], seq := 0, missed := 0,
          shot := { seg := 0, armAt := sampleFrom s.clk.start, dead := 0, missed := (s.en (elemOf b j)).missed } }
      ∧ (∀ w, w < 8 → t.rd (A.AE_REC b j w) = 0) ∧ (∀ n, n ≠ elemOf b j → t.en n = s.en n)
      ∧ RegBits (bitsOf (A.AE_STATUS b j) [F.AE_STATUS.STATE, F.AE_STATUS.SEG, F.AE_STATUS.REC_LEVEL]
          :: (List.range 8).map (fun w => wholeReg (A.AE_REC b j w))) s t)
  ∧ (∀ (s : State) (b : Fin 12) (j : Fin 2), s.aeState (elemOf b j) = aeIdle ∨ s.aeState (elemOf b j) = aeDone →
      F.AE_POST.POST.get (s.eff (A.AE_POST b j)) = 0 ∨ 1048576 < aeNrec (aeAtGo s (elemOf b j)) * aeSegLen (aeAtGo s (elemOf b j)) →
      ∃ t, exec (.aeGo b j) s = .next t ∧ t.fon (A.AE_STATUS b j) F.AE_STATUS.CFG_ERR = true
      ∧ t.aeState (elemOf b j) = s.aeState (elemOf b j) ∧ (t.en (elemOf b j)).recs = (s.en (elemOf b j)).recs
      ∧ RegBits [bitsOf (A.AE_STATUS b j) [F.AE_STATUS.CFG_ERR]] s t)
  ∧ (∀ (s : State) (b : Fin 12) (j : Fin 2), s.aeState (elemOf b j) ≠ aeIdle → s.aeState (elemOf b j) ≠ aeDone →
      ∃ t, exec (.aeGo b j) s = .next t ∧ t.ae = s.ae ∧ t.fon (A.AE_STATUS b j) F.AE_STATUS.GO_IGN = true
      ∧ RegBits [bitsOf (A.AE_STATUS b j) [F.AE_STATUS.GO_IGN]] s t)
  ∧ (∀ (s : State) (b : Fin 12) (j : Fin 2), s.aeState (elemOf b j) ∈ [aeArmed, aeFilling, aeDead, aeWaitFree, aeDone] →
      ∃ t, exec (.aeStop b j) s = .next t ∧ t.aeState (elemOf b j) = aeIdle ∧ (t.en (elemOf b j)).recs = (s.en (elemOf b j)).recs
      ∧ (s.aeState (elemOf b j) = aeFilling →
          (∃ r, (t.en (elemOf b j)).done = (s.en (elemOf b j)).done ++ [r] ∧ r.seg = (s.en (elemOf b j)).shot.seg ∧ r.at_ = s.now - 1)
          ∧ (t.en (elemOf b j)).seq = (s.en (elemOf b j)).seq + 1
          ∧ t.rt.events = s.rt.events ++ [evAt s evAe (elemOf b j) 2 (sampleFrom s.clk.start - 512, false)]
          ∧ RegBits [bitsOf (A.AE_STATUS b j) [F.AE_STATUS.STATE, F.AE_STATUS.OVR]] s t)
      ∧ (s.aeState (elemOf b j) ≠ aeFilling → t.rt = s.rt ∧ t.mem = s.mem ∧ (t.en (elemOf b j)).done = (s.en (elemOf b j)).done
          ∧ RegBits [bitsOf (A.AE_STATUS b j) [F.AE_STATUS.STATE]] s t))
  ∧ (∀ (s : State) (b : Fin 12) (j : Fin 2), s.aeState (elemOf b j) ∈ [aeOff, aeIdle, aeCal] → exec (.aeStop b j) s = .next s)
  ∧ ∀ (s : State) (b : Fin 12) (j : Fin 2), ∃ t, exec (.aeForce b j) s = .next t ∧ t.reg = s.reg
      ∧ t.en (elemOf b j) = { s.en (elemOf b j) with
          cond := (s.en (elemOf b j)).cond.set 3 true,
          trans := (s.en (elemOf b j)).trans ++ (if (s.en (elemOf b j)).tickPrev = false ∧ (s.en (elemOf b j)).cond.getD 3 false = false
            ∧ s.eon (A.AE_TRIG b j) F.AE_TRIG.TICK_EN = true ∧ s.aeState (elemOf b j) ∉ [aeOff, aeCal]
            then [(3, s.clk.start, false)] else []) }
      ∧ ∀ n, n ≠ elemOf b j → t.en n = s.en n

/-- The first armed sample lies at or before the trigger sample of a transition, which is taken in this tick. -/
def Sys2Proof.Machine.TriggerSample (e at_ : Nat) (s : State) : Prop :=
  s.aeState e = aeArmed ∧ (s.en e).shot.armAt ≤ sampleFrom at_ ∧ sampleFrom at_ < s.tickEnd

/-- R237, R241 to R243, R245 to R252, R255: a TRIGGER_TRANSITION of the level condition that its input makes true, and one of
another condition that waits to be judged, is accepted by an ARMED engine, which fills with the first sample at or after it as
the trigger sample, and missed by one in WAIT_FREE or in dead time; in OFF and CAL the level only changes. RECORD_COMPLETE of a
record whose last sample lies in the tick is its event, and ends at DONE in single mode and else goes on to the next segment,
which a record may hold; SEGMENT_REARM arms that segment once its first armed sample lies in the tick; RECORD_POP takes the
oldest record off the FIFO and frees its segment. Else they do nothing. Two raw samples make one word. -/
def Obligations.EngineRecords : Prop :=
  (∀ (s : State) (b : Fin 12) (j : Fin 2) (e : Nat) (i : Instant) (level : Int) (at_ : Nat), e = elemOf b j → at_ = s.clk.start + i.fine →
      s.eon (A.AE_TRIG b j) F.AE_TRIG.LVL_EN = true → (s.en e).cond.getD 0 false = false → (s.en e).trans = [] →
      (s.updEn e (fun k => { k with level := level })).aeDetector e false = true → TriggerSample e at_ s →
      ∃ t, exec (.triggerTransition b j 0 i level) s = .next t ∧ t.aeState e = aeFilling ∧ (t.en e).level = level
      ∧ (t.en e).shot.mask.testBit 0 = true ∧ (t.en e).shot.prim = 0 ∧ (t.en e).shot.st = s.stampAt at_ true
      ∧ (t.en e).shot.sample = (sampleFrom at_ - (s.en e).shot.armAt) / 512 ∧ evAt s evAe e 0 (at_, true) ∈ t.rt.events
      ∧ RegBits (bitsOf (A.AE_STATUS b j) [F.AE_STATUS.STATE] :: laneLevels) s t)
  ∧ (∀ (s : State) (b : Fin 12) (j : Fin 2) (e : Nat) (i : Instant) (level : Int) (at_ : Nat), e = elemOf b j → at_ = s.clk.start + i.fine →
      s.eon (A.AE_TRIG b j) F.AE_TRIG.LVL_EN = true → (s.en e).cond.getD 0 false = false → (s.en e).trans = [] →
      (s.updEn e (fun k => { k with level := level })).aeDetector e false = true → sampleFrom at_ < s.tickEnd →
      s.aeState e = aeWaitFree ∨ (s.aeState e = aeDead ∧ sampleFrom at_ < aeArmAt (s.en e)) →
      ∃ t, exec (.triggerTransition b j 0 i level) s = .next t ∧ t.aeState e = s.aeState e ∧ (t.en e).level = level
      ∧ min ((s.en e).missed + 1) 4095 ≤ (t.en e).missed ∧ evAt s evAe e 1 (at_, true) ∈ t.rt.events ∧ RegBits laneLevels s t)
  ∧ (∀ (s : State) (b : Fin 12) (j : Fin 2) (i : Instant) (level : Int), s.aeState (elemOf b j) ∈ [aeOff, aeCal] →
      (s.en (elemOf b j)).trans = [] →
      exec (.triggerTransition b j 0 i level) s = .next (s.updEn (elemOf b j) (fun k => { k with level := level })))
  ∧ (∀ (s : State) (b : Fin 12) (j : Fin 2) (e : Nat) (k : Fin 4) (i : Instant) (level : Int) (x : Nat) (m : Bool), e = elemOf b j →
      k ≠ 0 → (s.en e).trans = [(k.val, x, m)] → x ≤ s.clk.start + i.fine → TriggerSample e x s →
      ∃ t, exec (.triggerTransition b j k i level) s = .next t ∧ t.aeState e = aeFilling ∧ (t.en e).trans = []
      ∧ (t.en e).shot = { (s.en e).shot with
          mask := 2 ^ k.val, prim := k.val, st := s.stampAt x m, ofs := [0, 0, 0, 0].set k.val (sampleFrom x - x),
          sample := (sampleFrom x - (s.en e).shot.armAt) / 512 }
      ∧ t.rt.events = s.rt.events ++ [evAt s evAe e 0 (x, m)] ∧ RegBits [bitsOf (A.AE_STATUS b j) [F.AE_STATUS.STATE]] s t)
  ∧ (∀ (s : State) (b : Fin 12) (j : Fin 2) (e : Nat) (k : Fin 4) (i : Instant) (level : Int) (x : Nat) (m : Bool), e = elemOf b j →
      k ≠ 0 → (s.en e).trans = [(k.val, x, m)] → x ≤ s.clk.start + i.fine → sampleFrom x < s.tickEnd →
      s.aeState e = aeWaitFree ∨ (s.aeState e = aeDead ∧ sampleFrom x < aeArmAt (s.en e)) →
      ∃ t, exec (.triggerTransition b j k i level) s = .next t ∧ t.reg = s.reg
      ∧ t.en e = { s.en e with trans := [], missed := min ((s.en e).missed + 1) 4095 }
      ∧ t.rt.events = s.rt.events ++ [evAt s evAe e 1 (x, m)])
  ∧ (∀ (s : State) (b : Fin 12) (j : Fin 2) (k : Fin 4) (i : Instant) (level : Int), k ≠ 0 →
      (∀ p ∈ (s.en (elemOf b j)).trans, s.clk.start + i.fine < p.2.1 ∨ s.tickEnd ≤ sampleFrom p.2.1) →
      exec (.triggerTransition b j k i level) s = .next s)
  ∧ (∀ (s : State) (b : Fin 12) (j : Fin 2) (e at_ r : Nat) (k : Ae), e = elemOf b j → s.aeState e = aeFilling → k = s.en e →
      at_ = aeEndAt k k.shot → at_ < s.tickEnd → r = (k.shot.seg + 1) % aeNrec k → ∃ t, exec (.recordComplete b j) s = .next t
      ∧ (t.en e).shot = {} ∧ (t.en e).deadFrom = at_
      ∧ (F.AE_CTL.MODE.on k.ctl = false → t.aeState e = aeDone ∧ (t.en e).ended = k.ended ++ [{ k.shot with endAt := at_ }]
          ∧ t.rt.events = s.rt.events ++ [evAt s evAe e 2 (at_, false)])
      ∧ (F.AE_CTL.MODE.on k.ctl = true → t.fget (A.AE_STATUS b j) F.AE_STATUS.SEG = r % 16
          ∧ (segHeld { k with ended := k.ended ++ [k.shot] } r = false → t.aeState e = aeDead
            ∧ t.rt.events = s.rt.events ++ [evAt s evAe e 2 (at_, false)])
          ∧ (segHeld { k with ended := k.ended ++ [k.shot] } r = true → F.AE_CTL.FULL.on k.ctl = false → t.aeState e = aeWaitFree
            ∧ t.rt.events = s.rt.events ++ [evAt s evAe e 2 (at_, false)])
          ∧ (segHeld { k with ended := k.ended ++ [k.shot] } r = true → F.AE_CTL.FULL.on k.ctl = true → t.aeState e = aeDead
            ∧ t.rt.events = s.rt.events ++ [evAt s evAe e 2 (at_, false), evAt s evAe e 3 (at_, false)]
            ∧ (∀ x ∈ (t.en e).recs, x.seg ≠ r)
            ∧ t.fget (A.AE_STATUS b j) F.AE_STATUS.REC_LOST
              = min (s.fget (A.AE_STATUS b j) F.AE_STATUS.REC_LOST + 1) F.AE_STATUS.REC_LOST.max))
      ∧ RegBits (bitsOf (A.AE_STATUS b j) [F.AE_STATUS.STATE, F.AE_STATUS.SEG, F.AE_STATUS.REC_LOST, F.AE_STATUS.REC_LEVEL]
          :: (List.range 8).map (fun w => wholeReg (A.AE_REC b j w))) s t)
  ∧ (∀ (s : State) (b : Fin 12) (j : Fin 2), s.aeState (elemOf b j) ≠ aeFilling
      ∨ s.tickEnd ≤ aeEndAt (s.en (elemOf b j)) (s.en (elemOf b j)).shot → exec (.recordComplete b j) s = .next s)
  ∧ (∀ (s : State) (b : Fin 12) (j : Fin 2) (e at_ : Nat), e = elemOf b j → s.aeState e = aeDead →
      at_ = max ((s.en e).deadFrom + 512 * (16 + F.AE_CTL.HOLDOFF.get (s.en e).ctl)) (sampleFrom (s.en e).freeAt) → at_ < s.tickEnd →
      ∃ t, exec (.segmentRearm b j) s = .next t ∧ t.aeState e = aeArmed ∧ (t.en e).missed = 0
      ∧ (t.en e).shot = { seg := s.fget (A.AE_STATUS b j) F.AE_STATUS.SEG, armAt := at_, dead := at_ - (s.en e).deadFrom,
                          missed := (s.en e).missed }
      ∧ RegBits [bitsOf (A.AE_STATUS b j) [F.AE_STATUS.STATE]] s t)
  ∧ (∀ (s : State) (b : Fin 12) (j : Fin 2), s.aeState (elemOf b j) ≠ aeDead ∨ s.tickEnd ≤ aeArmAt (s.en (elemOf b j)) →
      exec (.segmentRearm b j) s = .next s)
  ∧ (∀ (s : State) (b : Fin 12) (j : Fin 2) (r : Rec) (rest : List Rec) (e : Nat), e = elemOf b j → (s.en e).recs = r :: rest →
      rest.length < 32 → ∃ t, exec (.recordPop b j) s = .next t ∧ (t.en e).recs = rest
      ∧ t.fget (A.AE_STATUS b j) F.AE_STATUS.REC_LEVEL = rest.length
      ∧ (∀ w, w < 8 → t.rd (A.AE_REC b j w) = ((rest.head?.map Rec.words).getD []).getD w 0)
      ∧ (s.aeState e = aeWaitFree → segHeld { s.en e with recs := rest } (s.fget (A.AE_STATUS b j) F.AE_STATUS.SEG) = false →
          t.aeState e = aeDead ∧ (t.en e).freeAt = s.clk.start)
      ∧ (s.aeState e ≠ aeWaitFree ∨ segHeld { s.en e with recs := rest } (s.fget (A.AE_STATUS b j) F.AE_STATUS.SEG) = true →
          t.aeState e = s.aeState e)
      ∧ RegBits (bitsOf (A.AE_STATUS b j) [F.AE_STATUS.STATE, F.AE_STATUS.REC_LEVEL]
          :: (List.range 8).map (fun w => wholeReg (A.AE_REC b j w))) s t)
  ∧ (∀ (s : State) (b : Fin 12) (j : Fin 2), (s.en (elemOf b j)).recs = [] → exec (.recordPop b j) s = .next s)
  ∧ ∀ (k : Ae) (h : Shot) (i : Nat) (x y : Int) (ox oy cx cy : Bool), F.AE_CTL.FMT.on k.ctl = false → i % 2 = 0 →
      (k.take (k.take h i (x, ox) cx).1 (i + 1) (y, oy) cy).2
        = some (i / 2, BitVec.ofNat 36 (rawSample (h.mask != 0 && i == h.sample) ox x
            + rawSample (h.mask != 0 && i + 1 == h.sample) oy y * 2 ^ 18))

/-! ### RF and coexistence (R286 to R312) -/

/-- The registers of the RF die that report what it does. -/
def Sys2Proof.Machine.rfReports : List (Nat × Word) :=
  wholeReg A.COEX_STATUS :: ((List.range 8).map (fun p => [wholeReg (A.RF_STATUS p), wholeReg (A.RF_RXPWR p)])).flatten
    ++ ((List.range 2).map (fun y => [wholeReg (A.SYN_STATUS y), wholeReg (A.SYN_CAL y)])).flatten

/-- The transmit side of a port without a command. -/
def Sys2Proof.Machine.txRest (s : State) (p : Nat) : Nat := if s.portOff p then txDisabled else txIdle

/-- R286, R294, R295, R297 to R299, R301: RF_TX_GO of a port without a command enters WAIT, and asks the arbiter for its
synthesiser and the ledger for its charges, in its writer's class; of a port that is DISABLED it is dropped with cause 4 at the
next boundary, and of one that holds a command, or has such a drop to come, it sets TX_IGN. RF_TX_STOP ends a running transmit
at this boundary and withdraws a waiting command; of a port without a command, or whose transmit has ended, it does nothing.
TRANSMIT_START at the boundary of a command that was ready makes it ACTIVE with its event, and receive is blanked; else it does
nothing. -/
def Obligations.TransmitGoStopStart : Prop :=
  (∀ (s : State) (p : Fin 8) (who : Writer), s.txHeld p = false → ¬(∃ q ∈ s.staged, q.eff = .txDrop p 4) → s.portOff p = false →
      ∃ t, exec (.rfTxGo p who) s = .next t ∧ t.txState p = txWait
      ∧ t.pt p = { s.pt p with issue := s.now + 1, who := who, grant := false, admitted := false, ready := false, startAt := none,
                               ended := false, endFine := none }
      ∧ (∃ a ∈ t.rt.arbs, a.res = .syn (s.synOf p) ∧ a.cls = classOf who ∧ a.who = who ∧ a.tag = p.val ∧ a.frm = s.now)
      ∧ AskedFor (.tx p) [.txAdm p] who s t ∧ RegBits [bitsOf (A.RF_STATUS p) [F.RF_STATUS.TX]] s t)
  ∧ (∀ (s : State) (p : Fin 8) (who : Writer), s.txHeld p = false → ¬(∃ q ∈ s.staged, q.eff = .txDrop p 4) → s.portOff p = true →
      ∃ t, exec (.rfTxGo p who) s = .next t ∧ t.staged = s.staged ++ [⟨s.now + 1, who, .txDrop p 4, false⟩] ∧ t.reg = s.reg
      ∧ t.port = s.port ∧ t.led = s.led ∧ t.rt = s.rt)
  ∧ (∀ (s : State) (p : Fin 8) (who : Writer), s.txHeld p = true ∨ (∃ q ∈ s.staged, q.eff = .txDrop p 4) →
      ∃ t, exec (.rfTxGo p who) s = .next t
      ∧ t.fon (A.RF_STATUS p) F.RF_STATUS.TX_IGN = true ∧ t.port = s.port ∧ t.led = s.led ∧ t.rt = s.rt ∧ t.staged = s.staged
      ∧ RegBits [bitsOf (A.RF_STATUS p) [F.RF_STATUS.TX_IGN]] s t)
  ∧ (∀ (s : State) (p : Fin 8), s.txState p = txActive → (s.pt p).ended = false → ∃ t, exec (.rfTxStop p) s = .next t
      ∧ t.txState p = txRest s p ∧ (t.pt p).endFine = some s.clk.start ∧ (t.pt p).grant = false ∧ (t.pt p).admitted = false
      ∧ t.rt.events = s.rt.events ++ [evAt s evRf p 1 (s.clk.start, false)] ∧ RegBits rfReports s t)
  ∧ (∀ (s : State) (p : Fin 8), s.txState p = txWait ∨ s.txState p = txCoex → ∃ t, exec (.rfTxStop p) s = .next t
      ∧ t.txState p = txRest s p ∧ (t.pt p).grant = false ∧ (t.pt p).admitted = false ∧ (t.pt p).startAt = none
      ∧ (∀ r ∈ t.led.queue, r.key ≠ .tx p) ∧ t.rt.events = s.rt.events ∧ RegBits rfReports s t)
  ∧ (∀ (s : State) (p : Fin 8), s.txHeld p = false ∨ (s.txState p = txActive ∧ (s.pt p).ended = true) →
      exec (.rfTxStop p) s = .next s)
  ∧ (∀ (s : State) (p : Fin 8), (s.pt p).startAt = some s.now → s.txState p = txWait ∨ s.txState p = txCoex →
      ∃ t, exec (.transmitStart p) s = .next t ∧ t.txState p = txActive
      ∧ t.pt p = { s.pt p with started := s.now, startFine := s.clk.start, endFine := none, startAt := none, ready := false,
                               rxArmed := false, rxSince := none }
      ∧ t.fon (A.RF_RXPWR p) F.RF_RXPWR.VALID = false
      ∧ t.rt.events = s.rt.events ++ [⟨evRf, p, 0, s.now, s.tickStamp, 0⟩]
      ∧ RegBits [bitsOf (A.RF_STATUS p) [F.RF_STATUS.TX], bitsOf (A.RF_RXPWR p) [F.RF_RXPWR.VALID]] s t)
  ∧ ∀ (s : State) (p : Fin 8), (s.pt p).startAt ≠ some s.now ∨ (s.txState p ≠ txWait ∧ s.txState p ≠ txCoex) →
      exec (.transmitStart p) s = .next s

/-- R297 to R299, R303, R305: TRANSMIT_END of a running transmit whose last chip ends in the tick, or whose DUR ticks are over,
is its event, and frees the port at once where the end is a tick instant; one without such an end does nothing. TRANSMIT_TIMEOUT
of a command that is not ready in time drops it with cause 1, and COEX_WAIT_EXPIRY of one in COEX with cause 2; earlier they do
nothing. RFREQ_TAIL_END takes RFREQ down once the tail is over and nothing needs it; else it does nothing. -/
def Obligations.TransmitEnds : Prop :=
  (∀ (s : State) (p : Fin 8) (e : Nat), s.txState p = txActive → (s.pt p).ended = false →
      (F.RF_TXCMD.MODE.get (s.pt p).cmd ≠ 0 ∧ F.RF_TXCMD.REPS.get (s.pt p).cmd ≠ 0 ∧ e < s.tickEnd
          ∧ e = (s.pt p).startFine + F.RF_TXCMD.REPS.get (s.pt p).cmd * (F.RF_OOK.LEN1.get (s.pt p).ook + 1)
              * (F.RF_OOK.CHIP.get (s.pt p).ook * 128)
        ∨ F.RF_TXCMD.MODE.get (s.pt p).cmd = 0 ∧ F.RF_TXCMD.DUR.get (s.pt p).cmd ≠ 0
          ∧ (s.pt p).started + F.RF_TXCMD.DUR.get (s.pt p).cmd ≤ s.now ∧ e = s.clk.start) →
      ∃ t, exec (.transmitEnd p) s = .next t ∧ t.rt.events = s.rt.events ++ [evAt s evRf p 1 (e, false)]
      ∧ (t.pt p).endFine = some e ∧ (s.clk.start < e → (t.pt p).ended = true ∧ t.reg = s.reg)
      ∧ (e ≤ s.clk.start → t.txState p = txRest s p ∧ (t.pt p).admitted = false ∧ (t.pt p).grant = false)
      ∧ RegBits rfReports s t)
  ∧ (∀ (s : State) (p : Fin 8), s.txState p ≠ txActive ∨ (s.pt p).ended = true
      ∨ (F.RF_TXCMD.MODE.get (s.pt p).cmd ≠ 0 ∧ (F.RF_TXCMD.REPS.get (s.pt p).cmd = 0
          ∨ s.tickEnd ≤ (s.pt p).startFine + F.RF_TXCMD.REPS.get (s.pt p).cmd * (F.RF_OOK.LEN1.get (s.pt p).ook + 1)
              * (F.RF_OOK.CHIP.get (s.pt p).ook * 128)))
      ∨ (F.RF_TXCMD.MODE.get (s.pt p).cmd = 0 ∧ (F.RF_TXCMD.DUR.get (s.pt p).cmd = 0
          ∨ s.now < (s.pt p).started + F.RF_TXCMD.DUR.get (s.pt p).cmd)) → exec (.transmitEnd p) s = .next s)
  ∧ (∀ (s : State) (p : Fin 8) (c : Instr) (cause : Nat),
      (c = .transmitTimeout p ∧ cause = 1 ∧ s.txState p = txWait ∧ (s.pt p).ready = false
          ∧ (s.pt p).issue + s.fget (A.RF_TX_TIMEOUT p) F.RF_TX_TIMEOUT.TICKS ≤ s.now
        ∨ c = .coexWaitExpiry p ∧ cause = 2 ∧ s.txState p = txCoex ∧ s.eon A.COEX_CTL F.COEX_CTL.MODE = true
          ∧ (s.pt p).startAt ≠ some s.now ∧ (s.pt p).coexAt + s.eget A.COEX_CTL F.COEX_CTL.WAIT ≤ s.now) →
      ∃ t, exec c s = .next t ∧ t.txState p = txRest s p
      ∧ t.fon (A.RF_STATUS p) F.RF_STATUS.TX_DROPPED = true ∧ t.fget (A.RF_STATUS p) F.RF_STATUS.DROP_CAUSE = cause
      ∧ (t.pt p).admitted = false ∧ (t.pt p).grant = false ∧ (∀ r ∈ t.led.queue, r.key ≠ .tx p)
      ∧ t.rt.events = s.rt.events ++ [⟨evRf, p, 2, s.now, s.tickStamp, 0⟩] ∧ RegBits rfReports s t)
  ∧ (∀ (s : State) (p : Fin 8), s.txState p ≠ txWait ∨ (s.pt p).ready = true
      ∨ s.now < (s.pt p).issue + s.fget (A.RF_TX_TIMEOUT p) F.RF_TX_TIMEOUT.TICKS → exec (.transmitTimeout p) s = .next s)
  ∧ (∀ (s : State) (p : Fin 8), s.txState p ≠ txCoex ∨ s.eon A.COEX_CTL F.COEX_CTL.MODE = false ∨ (s.pt p).startAt = some s.now
      ∨ s.now < (s.pt p).coexAt + s.eget A.COEX_CTL F.COEX_CTL.WAIT → exec (.coexWaitExpiry p) s = .next s)
  ∧ (∀ (s : State) (u : Nat), s.unit.tail = some u → u ≤ s.now → s.rfreqNeed = false → ∃ t, exec .rfreqTailEnd s = .next t
      ∧ t.unit = { s.unit with rfreq := false, tail := none } ∧ t.fon A.COEX_STATUS F.COEX_STATUS.RFREQ = false
      ∧ RegBits [bitsOf A.COEX_STATUS [F.COEX_STATUS.RFREQ]] s t)
  ∧ ∀ s : State, s.unit.tail = none ∨ (∃ u, s.unit.tail = some u ∧ s.now < u) ∨ s.rfreqNeed = true → exec .rfreqTailEnd s = .next s

/-- R287, R289, R290, R293, R300, R311, R373: RF_SYN_SELECT takes effect at once for a free port whose new synthesiser needs no
charge, waits behind a transmit command, and asks the ledger where it would start a synthesiser. SYN_FREQ_CHANGE to a frequency
in range starts settling in a running synthesiser that is free and waits behind a grant or a calibration; one out of range does
nothing. Under a reload both are ignored with WR_IGN. SYN_LOCK_GAINED of a running synthesiser with VALID that is not locked
locks it with its event, and does nothing of another. SYN_LOCK_LOST clears the lock with its event and cuts every transmit on
the synthesiser, and without a lock does nothing. -/
def Obligations.Synthesisers : Prop :=
  (∀ (s : State) (p : Fin 8) (y : Fin 2) (v r : Word), v = F.RF_CTL.SYN.put (s.rd (A.RF_CTL p)) y → r = s.overlay (A.RF_CTL p) v →
      ∃ t, exec (.rfSynSelect p y) s = .next t
      ∧ (s.rfReload = true → WriteIgnored s t)
      ∧ (s.rfReload = false → s.chargeOf [.force (A.RF_CTL p) v] = 0 → t.rd (A.RF_CTL p) = v
        ∧ (s.txHeld p = false → t.eget (A.RF_CTL p) F.RF_CTL.SYN = y ∧ t.fon (A.RF_STATUS p) F.RF_STATUS.SYN_PEND = false
          ∧ (t.pt p).synTo = none)
        ∧ (s.txHeld p = true → t.frc = s.frc ∧ t.fon (A.RF_STATUS p) F.RF_STATUS.SYN_PEND = decide (s.synOf p ≠ y)
          ∧ (t.pt p).synTo = if s.synOf p = y then none else some y.val)
        ∧ RegBits [wholeReg (A.RF_CTL p), bitsOf (A.RF_STATUS p) [F.RF_STATUS.SYN_PEND], bitsOf (A.RF_RXPWR p) [F.RF_RXPWR.VALID]] s t)
      ∧ (s.rfReload = false → 0 < s.chargeOf [.force (A.RF_CTL p) v] → accepts (A.RF_CTL p) v = false → t = s)
      ∧ (s.rfReload = false → 0 < s.chargeOf [.force (A.RF_CTL p) v] → accepts (A.RF_CTL p) v = true →
        (s.queueFull .host (.reg (A.RF_CTL p)) [.force (A.RF_CTL p) r] = true → QueueWasFull s t)
        ∧ (s.queueFull .host (.reg (A.RF_CTL p)) [.force (A.RF_CTL p) r] = false → t.rd (A.RF_CTL p) = r
          ∧ AskedFor (.reg (A.RF_CTL p)) [.force (A.RF_CTL p) r] (.host .a) (s.wr (A.RF_CTL p) r) t
          ∧ RegBits [wholeReg (A.RF_CTL p)] s t)))
  ∧ (∀ (s : State) (y : Fin 2) (hz : Nat), 300000000 ≤ hz → hz ≤ 6000000000 →
      ∃ t, exec (.synFreqChange y hz) s = .next t ∧ (s.rfReload = true → WriteIgnored s t)
      ∧ (s.rfReload = false → t.fget (A.SYN_FREQ y) F.SYN_FREQ.FREQ = hz
        ∧ (s.fget (A.SYN_STATUS y) F.SYN_STATUS.HOLDER = 0 → s.fon (A.SYN_STATUS y) F.SYN_STATUS.CAL = false →
          t.eget (A.SYN_FREQ y) F.SYN_FREQ.FREQ = hz ∧ t.fon (A.SYN_STATUS y) F.SYN_STATUS.FREQ_PEND = false
          ∧ (t.sy y).freqTo = none
          ∧ (s.eget (A.SYN_FREQ y) F.SYN_FREQ.FREQ ≠ hz → s.fon (A.SYN_STATUS y) F.SYN_STATUS.RUN = true →
              t.fon (A.SYN_STATUS y) F.SYN_STATUS.LOCK = false ∧ t.fon (A.SYN_STATUS y) F.SYN_STATUS.SETTLING = true)
          ∧ (s.eget (A.SYN_FREQ y) F.SYN_FREQ.FREQ = hz ∨ s.fon (A.SYN_STATUS y) F.SYN_STATUS.RUN = false →
              RegBits [wholeReg (A.SYN_FREQ y), bitsOf (A.SYN_STATUS y) [F.SYN_STATUS.FREQ_PEND]] s t))
        ∧ (s.fget (A.SYN_STATUS y) F.SYN_STATUS.HOLDER ≠ 0 ∨ s.fon (A.SYN_STATUS y) F.SYN_STATUS.CAL = true →
          t.frc = s.frc ∧ t.fon (A.SYN_STATUS y) F.SYN_STATUS.FREQ_PEND = true ∧ (t.sy y).freqTo = some hz)
        ∧ RegBits (wholeReg (A.SYN_FREQ y) :: rfReports) s t))
  ∧ (∀ (s : State) (y : Fin 2) (hz : Nat), s.rfReload = false → hz < 300000000 ∨ 6000000000 < hz → hz < 2 ^ 33 →
      exec (.synFreqChange y hz) s = .next s)
  ∧ (∀ (s : State) (y : Fin 2) (i : Instant), s.fon (A.SYN_STATUS y) F.SYN_STATUS.RUN = true → s.fon (A.SYN_STATUS y) F.SYN_STATUS.CAL = false →
      s.fon (A.SYN_STATUS y) F.SYN_STATUS.LOCK = false → s.fon (A.SYN_CAL y) F.SYN_CAL.VALID = true →
      ∃ t, exec (.synLockGained y i) s = .next t ∧ t.fon (A.SYN_STATUS y) F.SYN_STATUS.LOCK = true
      ∧ t.fon (A.SYN_STATUS y) F.SYN_STATUS.SETTLING = false
      ∧ (∀ p, p < 8 → s.synOf p = y → s.rxEff p = true → s.txState p ≠ txActive → s.portOff p = false → (s.pt p).rxSince = none →
          (t.pt p).rxSince = some (s.clk.start + i.fine))
      ∧ t.rt.events = s.rt.events ++ [⟨evRf, 8 + y, 0, s.now, s.stamp i.fine false, 0⟩]
      ∧ RegBits [bitsOf (A.SYN_STATUS y) [F.SYN_STATUS.LOCK, F.SYN_STATUS.SETTLING]] s t)
  ∧ (∀ (s : State) (y : Fin 2) (i : Instant), s.fon (A.SYN_CAL y) F.SYN_CAL.VALID = false ∨ s.fon (A.SYN_STATUS y) F.SYN_STATUS.RUN = false
      ∨ s.fon (A.SYN_STATUS y) F.SYN_STATUS.CAL = true ∨ s.fon (A.SYN_STATUS y) F.SYN_STATUS.LOCK = true →
      exec (.synLockGained y i) s = .next s)
  ∧ (∀ (s : State) (y : Fin 2) (i : Instant), s.fon (A.SYN_STATUS y) F.SYN_STATUS.LOCK = true → ∃ t, exec (.synLockLost y i) s = .next t
      ∧ t.fon (A.SYN_STATUS y) F.SYN_STATUS.LOCK = false ∧ t.fon (A.SYN_STATUS y) F.SYN_STATUS.LOCK_LOST = true
      ∧ ⟨evRf, 8 + y, 1, s.now, s.stamp i.fine false, 0⟩ ∈ t.rt.events
      ∧ (∀ p, p < 8 → s.synOf p = y → t.fon (A.RF_RXPWR p) F.RF_RXPWR.VALID = false)
      ∧ (∀ p, p < 8 → s.synOf p = y → s.txState p = txActive → (s.pt p).ended = false →
          t.fon (A.RF_STATUS p) F.RF_STATUS.TX_CUT = true ∧ (t.pt p).endFine = some (s.clk.start + i.fine)
          ∧ evAt s evRf p 1 (s.clk.start + i.fine, false) ∈ t.rt.events)
      ∧ RegBits rfReports s t)
  ∧ ∀ (s : State) (y : Fin 2) (i : Instant), s.fon (A.SYN_STATUS y) F.SYN_STATUS.LOCK = false → exec (.synLockLost y i) s = .next s

/-- R283, R291 to R293: SYN_CAL_GO asks the arbiter in the host class. SYN_AUTO_CAL of a synthesiser that is due, runs, is free
and asked for by none is granted at once and begins at the next boundary; else it does nothing. SYN_CAL_COMPLETE locks a running
synthesiser, sets VALID and the temperature and is the event of a calibration done; SYN_CAL_FAIL sets CAL_FAIL and leaves it
settling. Both free the synthesiser, and do nothing without a calibration. The band that a calibration finds is a free value
(assumption 9). -/
def Obligations.SynthesiserCalibration : Prop :=
  (∀ (s : State) (y : Fin 2) (h : Side), ∃ t, exec (.synCalGo y h) s = .next t ∧ t.reg = s.reg ∧ t.rt.grants = s.rt.grants
      ∧ (∃ a ∈ t.rt.arbs, a.res = .syn y ∧ a.cls = .host ∧ a.who = .host h ∧ a.frm = s.now ∧ a.tag = 8)
      ∧ ∀ a ∈ s.rt.arbs, a.res ≠ .syn y ∨ a.cls ≠ .host ∨ a.tag ≠ 8 → a ∈ t.rt.arbs)
  ∧ (∀ (s : State) (y : Fin 2), s.fon (A.SYN_CAL y) F.SYN_CAL.DUE = true → s.fon (A.SYN_STATUS y) F.SYN_STATUS.RUN = true →
      s.fon (A.SYN_STATUS y) F.SYN_STATUS.CAL = false → (∀ g ∈ s.rt.grants, g.1 ≠ .syn y) → (∀ a ∈ s.rt.arbs, a.res ≠ .syn y) →
      ∃ t, exec (.synAutoCal y) s = .next t ∧ t.fget (A.SYN_STATUS y) F.SYN_STATUS.HOLDER = 2
      ∧ t.rt.grants = s.rt.grants ++ [(.syn y, .cal)] ∧ t.staged = s.staged ++ [⟨s.now + 1, .router 0, .synBegin y, false⟩]
      ∧ RegBits [bitsOf (A.SYN_STATUS y) [F.SYN_STATUS.HOLDER]] s t)
  ∧ (∀ (s : State) (y : Fin 2), s.fon (A.SYN_CAL y) F.SYN_CAL.DUE = false ∨ s.fon (A.SYN_STATUS y) F.SYN_STATUS.RUN = false
      ∨ s.fon (A.SYN_STATUS y) F.SYN_STATUS.CAL = true ∨ (∃ g ∈ s.rt.grants, g.1 = .syn y) ∨ (∃ a ∈ s.rt.arbs, a.res = .syn y) →
      exec (.synAutoCal y) s = .next s)
  ∧ (∀ (s : State) (y : Fin 2) (i : Instant), s.fon (A.SYN_STATUS y) F.SYN_STATUS.CAL = true → ∃ t, exec (.synCalComplete y i) s = .next t
      ∧ t.fon (A.SYN_STATUS y) F.SYN_STATUS.CAL = false ∧ t.fget (A.SYN_STATUS y) F.SYN_STATUS.HOLDER = 0
      ∧ t.fon (A.SYN_CAL y) F.SYN_CAL.VALID = true ∧ t.fon (A.SYN_CAL y) F.SYN_CAL.DUE = false
      ∧ t.fget (A.SYN_CAL y) F.SYN_CAL.TEMP = s.fget A.TEMP_RF F.TEMP_RF.TEMP ∧ s.free < t.free
      ∧ (s.fon (A.SYN_STATUS y) F.SYN_STATUS.RUN = true → (s.sy y).freqTo = none → t.fon (A.SYN_STATUS y) F.SYN_STATUS.LOCK = true)
      ∧ (∃ l, t.rt.events = s.rt.events ++ l ++ [⟨evRf, 8 + y, 2, s.now, s.stamp i.fine false, 0⟩])
      ∧ (∀ g ∈ t.rt.grants, g.1 ≠ .syn y) ∧ RegBits rfReports s t)
  ∧ (∀ (s : State) (y : Fin 2), s.fon (A.SYN_STATUS y) F.SYN_STATUS.CAL = true → ∃ t, exec (.synCalFail y) s = .next t
      ∧ t.fon (A.SYN_STATUS y) F.SYN_STATUS.CAL = false ∧ t.fget (A.SYN_STATUS y) F.SYN_STATUS.HOLDER = 0
      ∧ t.fon (A.SYN_STATUS y) F.SYN_STATUS.CAL_FAIL = true ∧ t.fon (A.SYN_CAL y) F.SYN_CAL.VALID = s.fon (A.SYN_CAL y) F.SYN_CAL.VALID
      ∧ (s.fon (A.SYN_STATUS y) F.SYN_STATUS.RUN = true → t.fon (A.SYN_STATUS y) F.SYN_STATUS.SETTLING = true)
      ∧ (∀ g ∈ t.rt.grants, g.1 ≠ .syn y) ∧ t.rt.events = s.rt.events ∧ RegBits rfReports s t)
  ∧ ∀ (s : State) (y : Fin 2) (i : Instant), s.fon (A.SYN_STATUS y) F.SYN_STATUS.CAL = false →
      exec (.synCalComplete y i) s = .next s ∧ exec (.synCalFail y) s = .next s

/-- R7, R37, R46, R48, R310 to R312, R373: RX_ENABLE is a write of the control register with EN = 1. Where it raises EN the
write waits whole with the request for the charge; a host's that finds the shared queue full is discarded and counted in
LEDGER_FULL. Else it waits for its boundary. RX_INTERVAL_END of an interval without blanking stores the power; an armed detector
detects a power at or above its threshold, with its event, and one a decibel below arms it again. An interval that blanking
overlaps is not stored, and without receive in force or an interval that ends in the tick there is none. -/
def Obligations.Receivers : Prop :=
  (∀ (s : State) (p : Fin 8) (who : Writer) (v r : Word) (rise : Bool), v = F.RF_RXCTL.EN.put (s.rd (A.RF_RXCTL p)) 1 →
      r = v &&& (regInfo (A.RF_RXCTL p)).rw →
      rise = (F.RF_RXCTL.EN.on r && !F.RF_RXCTL.EN.on (s.effBefore (A.RF_RXCTL p) (s.dueAt 0))
        && (!s.fon (A.RF_RXCTL p) F.RF_RXCTL.EN || s.hasReq (.rx p))) →
      ∃ t, exec (.rxEnable p who) s = .next t
      ∧ (s.rfReload = true → WriteIgnored s t ∧ t.led = s.led)
      ∧ (s.rfReload = false → accepts (A.RF_RXCTL p) v = false → t = s)
      ∧ (s.rfReload = false → accepts (A.RF_RXCTL p) v = true → rise = true →
        (s.queueFull (classOf who) (.rx p) [.rxOn p] = true → QueueWasFull s t)
        ∧ (s.queueFull (classOf who) (.rx p) [.rxOn p] = false → t.rd (A.RF_RXCTL p) = r ∧ RegBits [wholeReg (A.RF_RXCTL p)] s t
          ∧ (s.rxHeld p = false → AskedFor (.rx p) [.force (A.RF_RXCTL p) r, .rxOn p] who (s.wr (A.RF_RXCTL p) r) t)
          ∧ (s.rxHeld p = true → t.staged = s.staged
            ∧ ∃ q ∈ t.led.queue, q.key = queueKey (.rx p) who ∧ .force (A.RF_RXCTL p) r ∈ q.effs ∧ .rxOn p ∈ q.effs)))
      ∧ (s.rfReload = false → accepts (A.RF_RXCTL p) v = true → rise = false →
        t.rd (A.RF_RXCTL p) = r ∧ t.frc = s.frc ∧ t.led.nextId = s.led.nextId ∧ t.led.committed = s.led.committed
        ∧ ((∀ q ∈ s.staged, q.due = s.dueAt 0 → q.eff.sameTarget (.force (A.RF_RXCTL p) r) = true → writerPrevails who q.who = true) →
          ⟨s.dueAt 0, who, .force (A.RF_RXCTL p) r, false⟩ ∈ t.staged)
        ∧ RegBits [wholeReg (A.RF_RXCTL p)] s t))
  ∧ (∀ (s : State) (p : Fin 8) (pwr : Int) (n e x : Nat), s.rxEff p = true → s.rxNext p = some (n, e) → s.rxBlanked p = false →
      (s.pt p).rxSince = some x → x + s.rxLen p ≤ e →
      ∃ t, exec (.rxIntervalEnd p pwr) s = .next t ∧ t.fon (A.RF_RXPWR p) F.RF_RXPWR.VALID = true ∧ (t.pt p).rxIdx = n + 1
      ∧ t.fget (A.RF_RXPWR p) F.RF_RXPWR.PWR = untwos 12 (clampInt (-1920) 160 pwr)
      ∧ ((s.pt p).rxArmed = true → s.rxThresh p ≤ pwr → t.fon (A.RF_STATUS p) F.RF_STATUS.RX_DET = true ∧ (t.pt p).rxArmed = false
          ∧ t.rt.events = s.rt.events ++ [evAt s evRf p 4 (e, false)])
      ∧ ((s.pt p).rxArmed = true → pwr < s.rxThresh p → t.rt = s.rt ∧ (t.pt p).rxArmed = true)
      ∧ ((s.pt p).rxArmed = false → t.rt = s.rt ∧ (t.pt p).rxArmed = decide (pwr < s.rxThresh p - 16))
      ∧ RegBits [wholeReg (A.RF_RXPWR p), bitsOf (A.RF_STATUS p) [F.RF_STATUS.RX_DET]] s t)
  ∧ (∀ (s : State) (p : Fin 8) (pwr : Int) (n e : Nat), s.rxEff p = true → s.rxNext p = some (n, e) →
      (s.rxBlanked p = true ∨ ∀ x, (s.pt p).rxSince = some x → e < x + s.rxLen p) →
      exec (.rxIntervalEnd p pwr) s = .next (s.updPt p (fun k => { k with rxIdx := n + 1 })))
  ∧ ∀ (s : State) (p : Fin 8) (pwr : Int), s.rxEff p = false ∨ s.rxNext p = none → exec (.rxIntervalEnd p pwr) s = .next s

/-! ### Calibration (R322 to R354) -/

/-- R322, R323, R325, R331, R332: CAL_GO of an idle engine starts a run over the groups of its scope, and while one is in
progress sets GO_IGN. CAL_STOP ends a run whose commit is not writing, with ABORTED and its event, and releases what it holds;
else it does nothing. CAL_GROUP_HOLD of an admitted group holds its elements: channels, sources with their engines, engines and
RF ports; else it does nothing. -/
def Obligations.CalibrationRuns : Prop :=
  (∀ s : State, s.calBusy = false → ∃ t, exec .calGo s = .next t ∧ t.calBusy = true ∧ t.fon A.CAL_STATUS F.CAL_STATUS.DONE = false
      ∧ t.fget A.CAL_STATUS F.CAL_STATUS.ACCEPTED = 0 ∧ t.fget A.CAL_STATUS F.CAL_STATUS.REJECTED = 0 ∧ t.rd A.CAL_REJ = 0
      ∧ t.cal.groups = scopeGroups (s.eff A.CAL_SCOPE) ∧ t.cal.slot = s.eget A.CAL_CMD F.CAL_CMD.SLOT
      ∧ t.cal.parts = s.eget A.CAL_CMD F.CAL_CMD.PARTS ∧ t.cal.tol = s.rd A.CAL_TOL ∧ t.cal.tslot = s.eff A.CAL_TSLOT
      ∧ t.cal.held = [] ∧ t.cal.accepted = [] ∧ t.cal.coef = s.cal.coef
      ∧ RegBits [bitsOf A.CAL_STATUS [F.CAL_STATUS.BUSY, F.CAL_STATUS.DONE, F.CAL_STATUS.ACCEPTED, F.CAL_STATUS.REJECTED],
          wholeReg A.CAL_REJ] s t)
  ∧ (∀ s : State, s.calBusy = true → ∃ t, exec .calGo s = .next t ∧ t.cal = s.cal
      ∧ t.fon A.CAL_STATUS F.CAL_STATUS.GO_IGN = true ∧ RegBits [bitsOf A.CAL_STATUS [F.CAL_STATUS.GO_IGN]] s t)
  ∧ (∀ s : State, s.calBusy = true → s.cal.commit ≠ 2 → ∃ t, exec .calStop s = .next t ∧ t.calBusy = false
      ∧ t.fon A.CAL_STATUS F.CAL_STATUS.DONE = true ∧ t.fon A.CAL_STATUS F.CAL_STATUS.ABORTED = true
      ∧ t.cal.held = [] ∧ t.cal.kept = [] ∧ t.cal.groups = [] ∧ t.cal.accepted = [] ∧ t.cal.commit = 0 ∧ t.cal.coef = s.cal.coef
      ∧ (∀ c ∈ s.cal.held ++ s.cal.kept, c < 768 → (t.ch c).held = false)
      ∧ ∃ es, t.rt.events = es ++ [⟨evUnit, 0, 7, s.now, s.tickStamp, 0⟩])
  ∧ (∀ s : State, s.calBusy = false ∨ s.cal.commit = 2 → exec .calStop s = .next s)
  ∧ (∀ s : State, s.cal.stage = 3 → ∃ t, exec .calGroupHold s = .next t ∧ t.cal.held = s.cal.asking ∧ t.cal.asking = []
      ∧ t.cal.stage = 0 ∧ t.cal.left = 0
      ∧ (∀ e ∈ s.cal.asking, e < 768 → (t.ch e).held = true)
      ∧ (∀ e ∈ s.cal.asking, 768 ≤ e → e < 792 → (t.sr (e - 768)).hold = true ∧ t.aeState (e - 768) = aeCal
          ∧ t.fget (srcStat (e - 768)) F.SRC_STATUS.STATE = srParked)
      ∧ (∀ e ∈ s.cal.asking, 792 ≤ e → e < 816 → (t.en (e - 792)).hold = true ∧ t.aeState (e - 792) = aeCal)
      ∧ ∀ e ∈ s.cal.asking, 912 ≤ e → t.fon (A.RF_STATUS (e - 912)) F.RF_STATUS.CAL = true)
  ∧ ∀ s : State, s.cal.stage ≠ 3 → exec .calGroupHold s = .next s

/-- What becomes of a held element with what its two passes measured: 0 accepted, else the cause of its rejection, the first that applies of
failed statistics, a temperature outside the window and passes that disagree. -/
def Sys2Proof.Machine.calVerdict (s : State) (p : Nat × CalRun) : Nat :=
  if !(p.2.p1.figs ++ p.2.p2.figs).all s.figOk then 2
  else if s.cal.left.testBit (elemDie p.1) then 3
  else if !s.calAgree p.1 p.2 then 1
  else 0

/-- R326 to R329, R332: CAL_PASS_DONE with the passes of each held element decides the group: an element whose statistics pass, whose die's
temperature has stayed in the window and whose passes agree is accepted, any other rejected with the flag of its cause, the first of the
run in `CAL_REJ`; both are counted. Nothing stays held but accepted elements whose selections changed; with the last group
decided the commit is due, or with nothing accepted the run ends. Without as many results as elements it does nothing. -/
def Obligations.CalibrationDecides : Prop :=
  (∀ (s : State) (rs : List CalRun) (vs : List Nat), s.cal.held ≠ [] → rs.length = s.cal.held.length →
      vs = (s.cal.held.zip rs).map (calVerdict s) → ∃ t, exec (.calPassDone rs) s = .next t ∧ t.cal.held = []
      ∧ t.fget A.CAL_STATUS F.CAL_STATUS.ACCEPTED
        = min (s.fget A.CAL_STATUS F.CAL_STATUS.ACCEPTED + vs.count 0) F.CAL_STATUS.ACCEPTED.max
      ∧ t.fget A.CAL_STATUS F.CAL_STATUS.REJECTED
        = min (s.fget A.CAL_STATUS F.CAL_STATUS.REJECTED + (vs.length - vs.count 0)) F.CAL_STATUS.REJECTED.max
      ∧ t.fon A.CAL_STATUS F.CAL_STATUS.DISAGREE = (s.fon A.CAL_STATUS F.CAL_STATUS.DISAGREE || vs.contains 1)
      ∧ t.fon A.CAL_STATUS F.CAL_STATUS.STAT_FAIL = (s.fon A.CAL_STATUS F.CAL_STATUS.STAT_FAIL || vs.contains 2)
      ∧ t.fon A.CAL_STATUS F.CAL_STATUS.TEMP_OUT = (s.fon A.CAL_STATUS F.CAL_STATUS.TEMP_OUT || vs.contains 3)
      ∧ (s.fon A.CAL_REJ F.CAL_REJ.VALID = true ∨ vs.all (· == 0) = true → t.rd A.CAL_REJ = s.rd A.CAL_REJ)
      ∧ (∀ p, s.fon A.CAL_REJ F.CAL_REJ.VALID = false → (s.cal.held.zip rs).find? (fun p => calVerdict s p != 0) = some p →
          t.rd A.CAL_REJ = F.CAL_REJ.VALID.put (F.CAL_REJ.CAUSE.put (F.CAL_REJ.ELEM.put 0 p.1) (calVerdict s p)) 1)
      ∧ (∀ e ∈ s.cal.held, e ∉ s.cal.kept → (∀ r, (e, r) ∈ s.cal.held.zip rs → calVerdict s (e, r) ≠ 0) →
          (e < 768 → (t.ch e).held = false) ∧ (768 ≤ e → e < 792 → (t.sr (e - 768)).hold = false)
          ∧ (792 ≤ e → e < 816 → (t.en (e - 792)).hold = false)
          ∧ (912 ≤ e → e < 920 → t.fon (A.RF_STATUS (e - 912)) F.RF_STATUS.CAL = false))
      ∧ (s.cal.groups = [] → s.cal.accepted = [] → vs.all (· != 0) = true → t.calBusy = false
          ∧ t.fon A.CAL_STATUS F.CAL_STATUS.DONE = true)
      ∧ (s.cal.groups = [] → vs.contains 0 = true → s.bsFailed = false → t.cal.commit = 1))
  ∧ ∀ (s : State) (rs : List CalRun), s.cal.held = [] ∨ rs.length ≠ s.cal.held.length → exec (.calPassDone rs) s = .next s

/-- The words of a commit that are still to be written when an access cycle of it begins. -/
def Sys2Proof.Machine.commitLeft (s : State) : List (Nat × Word) := if s.cal.commit = 1 then s.commitWords else s.cal.words

/-- R282, R329, R330, R344, R345, R347, R350: a commit writes the commit word, open and with the next epoch, the slot's
timestamp and, for each accepted element, its entries with the epoch and its epoch word with the slot valid. CAL_COMMIT with the
store port is an access cycle of it: 16 of the words that are left, each whole, and no other word; the first word of a cycle
read back wrong fails the store and ends the run with ABORTED. CAL_COMMIT_COMPLETE with the port and no word left closes the
commit word, counts the commit, loads the epoch and ends the run. Without the port, or at another stage, they write nothing.
Which elements of a failed commit count as written is the model's reading (assumption 38). -/
def Obligations.CalibrationCommits : Prop :=
  (∀ (s : State) (x : Accept) (epoch : Nat), x ∈ s.cal.accepted → epoch = (fldEpoch.get (s.bsRd bsCommit) + 1) % 256 →
      (∃ w, (bsCommit, w) ∈ s.commitWords ∧ fldPend.on w = true ∧ fldEpoch.get w = epoch
        ∧ fldCommits.get w = fldCommits.get (s.bsRd bsCommit))
      ∧ (∀ i, i < x.slot.length → (slotWord x.elem s.cal.slot i, withCheck (entryOf epoch (x.slot.getD i 0))) ∈ s.commitWords)
      ∧ (∀ j, j < x.common.length → (commonWord x.elem j, withCheck (entryOf epoch (x.common.getD j 0))) ∈ s.commitWords)
      ∧ (s.cal.slot < 4 → ∃ w, (bsEpoch x.elem, w) ∈ s.commitWords ∧ fldPend.on w = false ∧ fldEpoch.get w = epoch
        ∧ (fldValid.get w).testBit s.cal.slot = true)
      ∧ (bsStamp s.cal.slot, s.cal.decided.word0) ∈ s.commitWords ∧ (bsStamp s.cal.slot + 1, s.cal.decided.word1) ∈ s.commitWords
      ∧ (bsStamp s.cal.slot + 2, s.rd A.SEASON_COUNT) ∈ s.commitWords)
  ∧ (∀ s : State, s.cal.commit = 1 ∨ s.cal.commit = 2 → s.calPort = true → s.bsFailed = false →
      ∃ t, exec (.calCommit true) s = .next t ∧ t.cal.commit = 2 ∧ t.cal.words = (commitLeft s).drop 16 ∧ t.calPort = false
      ∧ (∀ i, t.bsRd i = ((((commitLeft s).take 16).reverse.find? (fun p => p.1 == i)).map (·.2)).getD (s.bsRd i))
      ∧ (s.cal.commit = 1 → t.fon A.CAL_STATUS F.CAL_STATUS.COMMIT = true ∧ t.fon A.BS_STATUS F.BS_STATUS.BUSY = true)
      ∧ RegBits [bitsOf A.CAL_STATUS [F.CAL_STATUS.COMMIT], bitsOf A.BS_STATUS [F.BS_STATUS.BUSY]] s t)
  ∧ (∀ (s : State) (p : Nat × Word) (rest : List (Nat × Word)), s.cal.commit = 1 ∨ s.cal.commit = 2 → s.calPort = true →
      s.bsFailed = false → commitLeft s = p :: rest → ∃ t, exec (.calCommit false) s = .next t
      ∧ t.bsFailed = true ∧ t.fon A.FAULT_STATUS F.FAULT_STATUS.STORE = true ∧ t.calBusy = false ∧ t.cal.commit = 0
      ∧ t.fon A.CAL_STATUS F.CAL_STATUS.ABORTED = true ∧ ∀ i, i ≠ p.1 → t.bsRd i = s.bsRd i)
  ∧ (∀ (s : State) (good : Bool), s.cal.commit = 0 ∨ s.calPort = false → exec (.calCommit good) s = .next s)
  ∧ (∀ s : State, s.cal.commit = 2 → s.cal.words = [] → s.calPort = true → s.bsFailed = false →
      ∃ t, exec (.calCommitComplete true) s = .next t ∧ t.cal.commit = 0
      ∧ t.calBusy = false ∧ t.fon A.CAL_STATUS F.CAL_STATUS.DONE = true ∧ fldPend.on (t.bsRd bsCommit) = false
      ∧ fldCommits.get (t.bsRd bsCommit) = min (fldCommits.get (s.bsRd bsCommit) + 1) fldCommits.max
      ∧ t.fget A.CAL_EPOCH F.CAL_EPOCH.EPOCH = fldEpoch.get (s.bsRd bsCommit) ∧ t.sea.commits = s.sea.commits + 1
      ∧ ∀ i, i ≠ bsCommit → t.bsRd i = s.bsRd i)
  ∧ (∀ s : State, s.cal.commit = 2 → s.cal.words = [] → s.calPort = true → s.bsFailed = false →
      ∃ t, exec (.calCommitComplete false) s = .next t ∧ t.cal.commit = 0 ∧ t.calBusy = false
      ∧ t.fon A.CAL_STATUS F.CAL_STATUS.ABORTED = true ∧ t.bsFailed = true ∧ t.sea.commits = s.sea.commits
      ∧ ∀ i, i ≠ bsCommit → t.bsRd i = s.bsRd i)
  ∧ ∀ (s : State) (good : Bool), s.cal.commit ≠ 2 ∨ s.cal.words ≠ [] ∨ s.calPort = false → exec (.calCommitComplete good) s = .next s

/-! ### The almanac loader and the flash (R366 to R381) -/

/-- The registers in which the loader and the NVM interface report. -/
def Sys2Proof.Machine.loaderReports : List (Nat × Word) :=
  [wholeReg A.ALMANAC_STATUS, wholeReg A.NVM_STATUS, bitsOf A.FAULT_STATUS [F.FAULT_STATUS.ALM]]

/-- R372 to R376: RELOAD_REQUEST of a target that no reload is under way or queued for puts it into the queue; its bank is not
ACTIVE and its sequencer is IDLE, the router drops its timed commands, and the target is marked as under reload. In a unit that
is not running or has a deep vigil to enter, with no slot in force, for a target under way or queued, or for target 14 or 15, it
sets RELOAD_IGN and does nothing else. RELOAD_START takes the first target of the queue: a segment that is there and whole fills
the pending values, and nothing else does; an absent one leaves them empty; one that fails is marked failed, or with FALLBACK
comes from the other slot where that slot is valid and its segment does not fail. A program or erase of the host is suspended
meanwhile, and abandoned where the segment needs a retry. With no target or while one is under way RELOAD_START does nothing.
RELOAD_END commits the reload for the next boundary, once.
R380, R381: SLOT_ACTIVATION of a scheduled slot at a season boundary with no reload under way or queued puts the slot in force,
and with ACT_RELOAD requests every target whose segment differs, and otherwise does nothing; ACTSEQ_PROGRAM after it writes the
slot's activation sequence, one more than that of the slot before, into its four bytes and no others. -/
def Obligations.ReloadsAndActivations : Prop :=
  ((∀ (s : State) (tg : Fin 16), s.unit.st ≠ .running ∨ s.unit.deepReq = true ∨ s.slotInForce = none ∨ 14 ≤ tg.val
      ∨ s.alm.busy = some tg.val ∨ (∃ r, (r, tg.val) ∈ s.alm.queue) → ∃ t, exec (.reloadRequest tg) s = .next t
      ∧ t.fon A.ALMANAC_STATUS F.ALMANAC_STATUS.RELOAD_IGN = true ∧ t.alm = s.alm ∧ t.bank = s.bank ∧ t.rt = s.rt
      ∧ t.rfReload = s.rfReload ∧ t.staged = s.staged ∧ t.led = s.led
      ∧ RegBits [bitsOf A.ALMANAC_STATUS [F.ALMANAC_STATUS.RELOAD_IGN]] s t)
  ∧ (∀ (s : State) (tg : Fin 16), s.unit.st = .running → s.unit.deepReq = false → s.slotInForce ≠ none → tg.val < 14 →
      s.alm.busy ≠ some tg.val → (∀ r, (r, tg.val) ∉ s.alm.queue) → ∃ t, exec (.reloadRequest tg) s = .next t
      ∧ (∀ x, x ∈ t.alm.queue ↔ x ∈ s.alm.queue ∨ x = (s.now, tg.val)) ∧ t.alm.busy = s.alm.busy ∧ t.clk = s.clk
      ∧ t.fon A.ALMANAC_STATUS F.ALMANAC_STATUS.BUSY = s.alm.busy.isSome
      ∧ (tg.val < 12 → (t.bk tg).reload = true ∧ t.bankState tg ≠ bankActive ∧ t.seqState tg = sqIdle)
      ∧ (tg.val = 12 → t.rt.reload = true ∧ t.rt.cmds = []) ∧ (tg.val = 13 → t.rfReload = true))
  ∧ (∀ (s : State) (f : FlashIn) (r tg slot : Nat) (rest : List (Nat × Nat)), s.alm.busy = none → s.alm.queue = (r, tg) :: rest →
      s.slotInForce = some slot → s.alm.op = none → ∃ t, exec (.reloadStart f) s = .next t
      ∧ t.alm.busy = some tg ∧ t.alm.queue = rest ∧ t.alm.commit = false ∧ t.alm.flash = s.alm.flash
      ∧ t.fon A.ALMANAC_STATUS F.ALMANAC_STATUS.BUSY = true ∧ (tg < 16 → t.fget A.ALMANAC_STATUS F.ALMANAC_STATUS.BUSY_TGT = tg)
      ∧ (s.fetchSeg f tg slot = .absent → t.alm.absent = true ∧ t.alm.failed = false ∧ t.alm.fill = [])
      ∧ (∀ a retried, s.fetchSeg f tg slot = .at_ a retried → t.alm.absent = false ∧ t.alm.failed = false ∧ t.alm.mixed = false
          ∧ t.alm.crc = s.segCrc a
          ∧ (∀ x w, (x, w) ∈ s.segWrites a → (∀ v, (x, v) ∈ s.segWrites a → v = w) →
              ((∃ b i j, placeOf x = .vmem b i j) → Tab.get resetWord t.alm.fill x = w)
              ∧ (placeOf x = .global x → segAccepts x w = true → Tab.get resetWord t.alm.fill x
                  = (resetWord x &&& ~~~(regInfo x).rw) ||| (w &&& (regInfo x).rw)))
          ∧ ∀ x, (∀ w, (x, w) ∉ s.segWrites a) → Tab.get resetWord t.alm.fill x = resetWord x)
      ∧ (s.fetchSeg f tg slot = .fails →
          s.fon A.ALMANAC_CTL F.ALMANAC_CTL.FALLBACK = false ∨ s.candidate (1 - slot) = false
            ∨ (s.fget A.NVM_STATUS F.NVM_STATUS.FB_OK).testBit (1 - slot) = false ∧ s.verify (1 - slot) ≠ none →
          t.alm.failed = true ∧ t.alm.absent = false ∧ t.alm.mixed = false ∧ t.alm.fill = [])
      ∧ (∀ a retried, s.fetchSeg f tg slot = .fails → s.fon A.ALMANAC_CTL F.ALMANAC_CTL.FALLBACK = true →
          s.candidate (1 - slot) = true →
          (s.fget A.NVM_STATUS F.NVM_STATUS.FB_OK).testBit (1 - slot) = true ∨ s.verify (1 - slot) = none →
          s.fetchSeg f tg (1 - slot) = .at_ a retried →
          t.alm.mixed = true ∧ t.alm.failed = false ∧ t.alm.crc = s.segCrc a
            ∧ t.fon A.ALMANAC_STATUS F.ALMANAC_STATUS.FELL_BACK = true ∧ t.fon A.FAULT_STATUS F.FAULT_STATUS.ALM = true)
      ∧ (s.fetchSeg f tg slot = .fails → s.fon A.ALMANAC_CTL F.ALMANAC_CTL.FALLBACK = true → s.candidate (1 - slot) = true →
          (s.fget A.NVM_STATUS F.NVM_STATUS.FB_OK).testBit (1 - slot) = true ∨ s.verify (1 - slot) = none →
          (s.fetchSeg f tg (1 - slot) = .absent → t.alm.mixed = true ∧ t.alm.absent = true ∧ t.alm.failed = false ∧ t.alm.fill = []
            ∧ t.fon A.ALMANAC_STATUS F.ALMANAC_STATUS.FELL_BACK = true)
          ∧ (s.fetchSeg f tg (1 - slot) = .fails → t.alm.failed = true ∧ t.alm.mixed = false ∧ t.alm.fill = []))
      ∧ RegBits loaderReports s t)
  ∧ (∀ (s : State) (f : FlashIn) (r tg slot op a : Nat) (rest : List (Nat × Nat)), s.alm.busy = none → s.alm.queue = (r, tg) :: rest →
      s.slotInForce = some slot → s.alm.op = some (op, a) → op = 2 ∨ op = 3 → ∃ t, exec (.reloadStart f) s = .next t
      ∧ t.alm.busy = some tg ∧ t.alm.queue = rest
      ∧ (s.fetchSeg f tg slot = .absent ∨ (∃ x, s.fetchSeg f tg slot = .at_ x false) →
          t.fon A.NVM_STATUS F.NVM_STATUS.SUSPENDED = true ∧ t.alm.op = some (op, a) ∧ t.alm.flash = s.alm.flash)
      ∧ ((∃ x, s.fetchSeg f tg slot = .at_ x true) ∨ s.fetchSeg f tg slot = .fails → t.alm.op = none ∧ t.fon A.NVM_STATUS F.NVM_STATUS.FAIL = true
          ∧ t.fon A.NVM_STATUS F.NVM_STATUS.BUSY = false ∧ t.fon A.NVM_STATUS F.NVM_STATUS.SUSPENDED = false
          ∧ (∀ b, b < a ∨ a + opBytes op ≤ b → t.fByte b = s.fByte b) ∧ t.free = s.free + opBytes op)
      ∧ RegBits loaderReports s t)
  ∧ (∀ (s : State) (f : FlashIn), s.alm.busy ≠ none ∨ s.alm.queue = [] ∨ s.slotInForce = none → exec (.reloadStart f) s = .next s)
  ∧ (∀ (s : State) (tg : Nat), s.alm.busy = some tg → s.alm.commit = false → ∃ t, exec .reloadEnd s = .next t ∧ t.alm.commit = true
      ∧ t.alm.busy = some tg ∧ t.alm.fill = s.alm.fill ∧ ⟨s.now + 1, .loader tg, .reloadEnd tg, false⟩ ∈ t.staged
      ∧ ⟨s.now + 1, .loader tg, .reloadGo tg, false⟩ ∈ t.staged ∧ (∀ x ∈ s.staged, x ∈ t.staged) ∧ t.frc = s.frc ∧ t.mem = s.mem)
  ∧ ∀ s : State, s.alm.busy = none ∨ s.alm.commit = true → exec .reloadEnd s = .next s)
  ∧ ((∀ (s : State) (slot : Nat) (all : Bool), s.alm.sched = some (slot, all) → slot < 2 → s.sea.due ≠ 0 → s.alm.busy = none → s.alm.queue = [] →
      ∃ t, exec .slotActivation s = .next t ∧ t.slotInForce = some slot ∧ t.alm.sched = none ∧ t.alm.prev = some s.slotInForce
      ∧ t.fon A.NVM_STATUS F.NVM_STATUS.ACT_SCHED = false ∧ t.fon A.NVM_STATUS F.NVM_STATUS.ACT_PEND = true
      ∧ t.fget A.NVM_STATUS F.NVM_STATUS.WRITABLE = 2 - slot ∧ t.fon A.ALMANAC_STATUS F.ALMANAC_STATUS.MIXED = false
      ∧ t.fon A.ALMANAC_STATUS F.ALMANAC_STATUS.GLOBAL_STALE = decide (s.crcIn slot 14 ≠ s.crcNow 14) ∧ t.alm.flash = s.alm.flash
      ∧ (all = false → t.alm.queue = [] ∧ RegBits loaderReports s t)
      ∧ (all = true → s.unit.st = .running → s.unit.deepReq = false →
          ∀ tg, (s.now, tg) ∈ t.alm.queue ↔ tg < 14 ∧ s.crcIn slot tg ≠ s.crcNow tg))
  ∧ (∀ s : State, s.alm.sched = none ∨ s.sea.due = 0 ∨ s.loaderBusy = true → exec .slotActivation s = .next s)
  ∧ (∀ (s : State) (prev : Option Nat) (slot old : Nat), s.alm.prev = some prev → s.slotInForce = some slot →
      old = (match prev with | some p => s.actSeq p | none => seqErased) → ∃ t, exec .actseqProgram s = .next t
      ∧ t.actSeq slot = (if old = seqErased then 1 else if old + 1 = seqErased then 0 else old + 1)
      ∧ (∀ a, a < s.slotBase slot + 12 ∨ s.slotBase slot + 16 ≤ a → t.fByte a = s.fByte a)
      ∧ t.alm.prev = none ∧ t.fon A.NVM_STATUS F.NVM_STATUS.ACT_PEND = false
      ∧ RegBits [bitsOf A.NVM_STATUS [F.NVM_STATUS.ACT_PEND]] s t)
  ∧ ∀ s : State, s.alm.prev = none ∨ s.slotInForce = none → exec .actseqProgram s = .next s)

/-- R366, R378, R379, R380: the commands of the NVM interface. Each sets the pointer of the buffer to 0 and, where it is accepted,
LAST_OP; while an operation runs all but NVM_CANCEL are refused, and so is one whose address, slot or verification does not
allow it. NVM_READ fills the buffer and NVM_VERIFY judges the slot, at once or, while the loader has the flash, at
NVM_OPERATION_COMPLETE; NVM_PROGRAM and NVM_ERASE begin and take back what was verified of the slot; NVM_ACTIVATE schedules it and
NVM_CANCEL takes that back. NVM_OPERATION_COMPLETE puts an operation's effect on the flash in its own bytes and no others; the
bytes of one that failed are free values (assumption 9). NVM_DATA_ACCESS moves the four bytes at the pointer, and NVM_ADDR_WRITE
the address.
That PROGRAM stores the buffer as it is, and that NVM_CANCEL sets LAST_OP with nothing scheduled, is the model's choice (assumption 39). -/
def Obligations.NvmCommands : Prop :=
  (∀ (s : State) (c : Instr) (r : Bool), c = .nvmRead ∨ c = .nvmProgram ∨ c = .nvmErase ∨ c = .nvmVerify ∨ c = .nvmActivate r →
      (s.fon A.NVM_STATUS F.NVM_STATUS.BUSY = true
        ∨ c = .nvmRead ∧ s.flashD ≤ s.nvmAt + 255 ∨ c = .nvmProgram ∧ s.nvmAt % 256 ≠ 0 ∨ c = .nvmErase ∧ s.nvmAt % 65536 ≠ 0
        ∨ c ≠ .nvmRead ∧ s.nvmSlot = none
        ∨ c = .nvmActivate r ∧ ∃ x, s.nvmSlot = some x ∧ (s.fget A.NVM_STATUS F.NVM_STATUS.VER_OK).testBit x = false) →
      ∃ t, exec c s = .next t ∧ t.fon A.NVM_STATUS F.NVM_STATUS.REFUSED = true ∧ t.alm = { s.alm with ptr := 0 }
      ∧ RegBits [bitsOf A.NVM_STATUS [F.NVM_STATUS.REFUSED]] s t)
  ∧ (∀ s : State, s.fon A.NVM_STATUS F.NVM_STATUS.BUSY = false → s.nvmAt + 255 < s.flashD → ∃ t, exec .nvmRead s = .next t
      ∧ t.fget A.NVM_STATUS F.NVM_STATUS.LAST_OP = 1 ∧ t.alm.ptr = 0 ∧ t.alm.flash = s.alm.flash
      ∧ (s.alm.busy = none → t.alm.op = s.alm.op ∧ ∀ i, i < 256 → (Tab.get (fun _ => (0 : Byte)) t.alm.buf i).toNat = s.fByte (s.nvmAt + i))
      ∧ (s.alm.busy ≠ none → t.alm.op = some (1, s.nvmAt) ∧ t.fon A.NVM_STATUS F.NVM_STATUS.BUSY = true ∧ t.alm.buf = s.alm.buf)
      ∧ RegBits [bitsOf A.NVM_STATUS [F.NVM_STATUS.LAST_OP, F.NVM_STATUS.BUSY]] s t)
  ∧ (∀ (s : State) (c : Instr) (op x : Nat), (c = .nvmProgram ∧ op = 2 ∧ s.nvmAt % 256 = 0 ∨ c = .nvmErase ∧ op = 3 ∧ s.nvmAt % 65536 = 0) →
      s.fon A.NVM_STATUS F.NVM_STATUS.BUSY = false → s.nvmSlot = some x → x < 2 → ∃ t, exec c s = .next t
      ∧ t.alm.op = some (op, s.nvmAt) ∧ t.alm.ptr = 0 ∧ t.alm.flash = s.alm.flash
      ∧ t.fget A.NVM_STATUS F.NVM_STATUS.LAST_OP = op ∧ t.fon A.NVM_STATUS F.NVM_STATUS.BUSY = true
      ∧ (t.fget A.NVM_STATUS F.NVM_STATUS.VER_OK).testBit x = false ∧ (t.fget A.NVM_STATUS F.NVM_STATUS.FB_OK).testBit x = false
      ∧ (∀ r, t.alm.sched ≠ some (x, r)) ∧ (∀ y r, y ≠ x → s.alm.sched = some (y, r) → t.alm.sched = s.alm.sched)
      ∧ (s.alm.lastVerified = some x → t.fon A.NVM_STATUS F.NVM_STATUS.VERIFIED = false) ∧ RegBits [wholeReg A.NVM_STATUS] s t)
  ∧ (∀ (s : State) (x : Nat), s.fon A.NVM_STATUS F.NVM_STATUS.BUSY = false → s.nvmSlot = some x → x < 2 → s.alm.busy = none →
      ∃ t, exec .nvmVerify s = .next t ∧ t.alm = { s.alm with ptr := 0, lastVerified := some x }
      ∧ t.fget A.NVM_STATUS F.NVM_STATUS.LAST_OP = 4
      ∧ t.fon A.NVM_STATUS F.NVM_STATUS.VERIFIED = (s.actSeq x == seqErased && (s.verify x).isNone)
      ∧ (t.fget A.NVM_STATUS F.NVM_STATUS.VER_OK).testBit x = (s.actSeq x == seqErased && (s.verify x).isNone)
      ∧ (s.actSeq x ≠ seqErased ∨ s.verify x ≠ none → t.fon A.NVM_STATUS F.NVM_STATUS.FAIL = true)
      ∧ RegBits [wholeReg A.NVM_STATUS] s t)
  ∧ (∀ (s : State) (x : Nat), s.fon A.NVM_STATUS F.NVM_STATUS.BUSY = false → s.nvmSlot = some x → s.alm.busy ≠ none →
      ∃ t, exec .nvmVerify s = .next t ∧ t.alm = { s.alm with ptr := 0, op := some (4, s.nvmAt) }
      ∧ t.fget A.NVM_STATUS F.NVM_STATUS.LAST_OP = 4 ∧ t.fon A.NVM_STATUS F.NVM_STATUS.BUSY = true
      ∧ RegBits [bitsOf A.NVM_STATUS [F.NVM_STATUS.LAST_OP, F.NVM_STATUS.BUSY]] s t)
  ∧ (∀ (s : State) (r : Bool) (x : Nat), s.fon A.NVM_STATUS F.NVM_STATUS.BUSY = false → s.nvmSlot = some x →
      (s.fget A.NVM_STATUS F.NVM_STATUS.VER_OK).testBit x = true → ∃ t, exec (.nvmActivate r) s = .next t
      ∧ t.alm = { s.alm with ptr := 0, sched := some (x, r) } ∧ t.fon A.NVM_STATUS F.NVM_STATUS.ACT_SCHED = true
      ∧ t.fget A.NVM_STATUS F.NVM_STATUS.LAST_OP = 5
      ∧ RegBits [bitsOf A.NVM_STATUS [F.NVM_STATUS.ACT_SCHED, F.NVM_STATUS.LAST_OP]] s t)
  ∧ (∀ s : State, ∃ t, exec .nvmCancel s = .next t ∧ t.alm = { s.alm with ptr := 0, sched := none }
      ∧ t.fon A.NVM_STATUS F.NVM_STATUS.ACT_SCHED = false ∧ t.fget A.NVM_STATUS F.NVM_STATUS.LAST_OP = 6
      ∧ RegBits [bitsOf A.NVM_STATUS [F.NVM_STATUS.ACT_SCHED, F.NVM_STATUS.LAST_OP]] s t)
  ∧ (∀ (s : State) (good : Bool) (op a : Nat), s.alm.op = some (op, a) → s.alm.busy = none → op = 2 ∨ op = 3 →
      ∃ t, exec (.nvmOperationComplete good) s = .next t ∧ t.alm.op = none ∧ t.fon A.NVM_STATUS F.NVM_STATUS.BUSY = false
      ∧ (∀ b, b < a ∨ a + opBytes op ≤ b → t.fByte b = s.fByte b)
      ∧ (good = true → op = 2 → ∀ i, i < 256 → t.fByte (a + i) = (Tab.get (fun _ => (0 : Byte)) s.alm.buf i).toNat)
      ∧ (good = true → op = 3 → ∀ i, i < 65536 → t.fByte (a + i) = 255)
      ∧ (good = false → t.fon A.NVM_STATUS F.NVM_STATUS.FAIL = true ∧ t.free = s.free + opBytes op)
      ∧ RegBits [bitsOf A.NVM_STATUS [F.NVM_STATUS.BUSY, F.NVM_STATUS.FAIL]] s t)
  ∧ (∀ (s : State) (good : Bool) (a : Nat), s.alm.op = some (1, a) → s.alm.busy = none → ∃ t, exec (.nvmOperationComplete good) s = .next t
      ∧ t.alm.op = none ∧ t.fon A.NVM_STATUS F.NVM_STATUS.BUSY = false ∧ t.alm.flash = s.alm.flash
      ∧ (∀ i, i < 256 → (Tab.get (fun _ => (0 : Byte)) t.alm.buf i).toNat = s.fByte (a + i))
      ∧ RegBits [bitsOf A.NVM_STATUS [F.NVM_STATUS.BUSY]] s t)
  ∧ (∀ (s : State) (good : Bool) (a x : Nat), s.alm.op = some (4, a) → s.slotOf a = some x → s.alm.busy = none →
      ∃ t, exec (.nvmOperationComplete good) s = .next t ∧ t.alm = { s.alm with op := none, lastVerified := some x }
      ∧ t.fon A.NVM_STATUS F.NVM_STATUS.BUSY = false
      ∧ t.fon A.NVM_STATUS F.NVM_STATUS.VERIFIED = (s.actSeq x == seqErased && (s.verify x).isNone)
      ∧ (t.fget A.NVM_STATUS F.NVM_STATUS.VER_OK).testBit x = (s.actSeq x == seqErased && (s.verify x).isNone)
      ∧ RegBits [wholeReg A.NVM_STATUS] s t)
  ∧ (∀ (s : State) (good : Bool), s.alm.op = none ∨ s.alm.busy ≠ none → exec (.nvmOperationComplete good) s = .next s)
  ∧ (∀ (s : State) (v : Word), ∃ t, exec (.nvmDataAccess (some v)) s = .next t ∧ t.reg = s.reg
      ∧ t.alm = { s.alm with ptr := (s.alm.ptr + 4) % 256, buf := t.alm.buf }
      ∧ (∀ i, i < 4 → Tab.get (fun _ => (0 : Byte)) t.alm.buf ((s.alm.ptr + i) % 256) = v.extractLsb' (8 * i) 8)
      ∧ ∀ b, (∀ i, i < 4 → b ≠ (s.alm.ptr + i) % 256) →
          Tab.get (fun _ => (0 : Byte)) t.alm.buf b = Tab.get (fun _ => (0 : Byte)) s.alm.buf b)
  ∧ (∀ s : State, ∃ t, exec (.nvmDataAccess none) s = .next t ∧ t.reg = s.reg ∧ t.alm = { s.alm with ptr := (s.alm.ptr + 4) % 256 })
  ∧ ∀ (s : State) (v : Word), ∃ t, exec (.nvmAddrWrite v) s = .next t ∧ t.rd A.NVM_ADDR = v &&& (regInfo A.NVM_ADDR).rw
      ∧ t.alm = { s.alm with ptr := 0 } ∧ RegBits [wholeReg A.NVM_ADDR] s t

/-! ### The ring (R382 to R408) -/

/-- A packet that reaches this unit unharmed as the one it is addressed to, and asks it something. -/
def Sys2Proof.Machine.Takes (s : State) (p : Pkt) : Prop :=
  s.unit.ringOut = true ∧ p.ttl ≠ 0 ∧ s.assigned = true ∧ p.dsth = 0 ∧ p.dst = s.ringAddr ∧ (p.srch = 0 → p.src ≠ s.ringAddr)
    ∧ p.viol = false ∧ p.bad = false ∧ pktBad p = false ∧ pktMalformed p = false

/-- The number of a host in SRCH. -/
def Sys2Proof.Machine.hostNum : Side → Nat
  | .a => 1
  | .b => 2

/-- A RESPONSE to a request waits for the host, and nothing else new. -/
def Sys2Proof.Machine.Answers (s t : State) (h : Side) (p : Pkt) (status : Nat) (ws : List Word) : Prop :=
  ∃ q, t.outQ h = s.outQ h ++ [q] ∧ q.ptype = ptResponse ∧ q.ring = ringTo h ∧ q.dsth = hostNum h ∧ q.tag = p.tag ∧ q.addr = p.addr
    ∧ q.status = status ∧ q.payload = ws ∧ pktBad q = false

/-- R275, R395, R396, R397, R407: what requests do. A READ of words of vector memory or of one word outside the store is answered with
what it reads; a WRITE of one word of vector memory, of POWER_CAP or of an unmapped address acts and is answered with its STATUS, a
WRITE_NR acts alike and is not answered, and a broadcast one acts in an unassigned unit too and goes on; a request that finds the
queue full sets RQ_OVF, and a READ or WRITE is answered with STATUS 3; a timed write of one word is held, or refused where eight are,
and one that comes too late sets AT_LATE and is written at once; a COMMAND is its event at once, or waits for its tick, or is its event
at once with CMD_LATE, or is discarded with CMD_OVF. TIMED_WRITE_DUE in the window before AT writes a held word, but one that a later
write of its register has displaced leaves no trace; in another window and with none held it does nothing. A command with a packet of
another type does nothing.
That a request is served on arrival and the STATUS of a timed write is judged there is the model's reading (assumption 40). -/
def Obligations.RingRequests : Prop :=
  (∀ (s : State) (inp : Side) (p : Pkt) (cyc : Nat) (h : Side), Takes s p → p.ptype = ptRead → p.srch = hostNum h → s.requests h = [] →
      s.serving h = {} → (∀ i, i < pktCount p → ∃ b x y, placeOf (pktAddr p i) = .vmem b x y) → ∃ t, exec (.read inp p cyc) s = .next t
      ∧ Answers s t h p 0 ((List.range (pktCount p)).map (fun i => s.memRd (pktAddr p i))) ∧ t.requests h = [] ∧ t.reg = s.reg ∧ t.mem = s.mem)
  ∧ (∀ (s : State) (inp : Side) (p : Pkt) (cyc : Nat) (h : Side), Takes s p → p.ptype = ptRead → p.srch = hostNum h → s.requests h = [] →
      s.serving h = {} → pktCount p = 1 → (∀ i, placeOf (pktAddr p 0) ≠ .store i) → ∃ t, exec (.read inp p cyc) s = .next t
      ∧ Answers s t h p 0 [(s.readWord h cyc (pktAddr p 0)).2] ∧ t.requests h = [] ∧ t.reg = (s.readWord h cyc (pktAddr p 0)).1.reg)
  ∧ (∀ (s : State) (c : Instr) (inp : Side) (p : Pkt) (cyc a : Nat) (h : Side) (v : Word), Takes s p →
      (c = .write inp p cyc ∧ p.ptype = ptWrite ∨ c = .writeNr inp p cyc ∧ p.ptype = ptWriteNr) →
      p.srch = hostNum h → s.requests h = [] → s.serving h = {} → p.timed = false → p.payload = [v] → a = p.addr % 2 ^ 28 →
      (∀ i, placeOf a ≠ .store i) → ∃ t, exec c s = .next t ∧ t.requests h = [] ∧ (c = .writeNr inp p cyc → t.outQ h = s.outQ h)
      ∧ (∀ b x y, placeOf a = .vmem b x y → (s.bk b).reload = false → s.vmBusy b = false →
          t.memRd a = v ∧ (∀ i, i ≠ a → t.memRd i = s.memRd i) ∧ (c = .write inp p cyc → Answers s t h p 0 [])
          ∧ (∀ i, t.rd i = s.rd i))
      ∧ (a = A.POWER_CAP → accepts a v = true → s.outranked a (s.dueAt cyc) (.host h) = false →
          AtWrite a ⟨.host h, v, cyc⟩ s t ∧ (c = .write inp p cyc → Answers s t h p 0 []))
      ∧ (placeOf a = .none → t.mem = s.mem ∧ t.staged = s.staged ∧ (∀ i, t.rd i = s.rd i)
          ∧ (c = .write inp p cyc → Answers s t h p 1 [])))
  ∧ (∀ (s : State) (c : Instr) (inp : Side) (p : Pkt) (cyc : Nat) (h : Side), Takes s p →
      (c = .read inp p cyc ∧ p.ptype = ptRead ∨ c = .write inp p cyc ∧ p.ptype = ptWrite ∨ c = .writeNr inp p cyc ∧ p.ptype = ptWriteNr
        ∨ c = .command inp p cyc ∧ p.ptype = ptCommand) → p.srch = hostNum h → Config.requestDepth ≤ (s.requests h).length →
      ∃ t, exec c s = .next t ∧ t.fon A.RING_STATUS F.RING_STATUS.RQ_OVF = true ∧ t.requests h = s.requests h
      ∧ (p.ptype = ptRead ∨ p.ptype = ptWrite → Answers s t h p 3 [])
      ∧ (p.ptype = ptWriteNr ∨ p.ptype = ptCommand → t.ring = s.ring)
      ∧ RegBits [bitsOf A.RING_STATUS [F.RING_STATUS.RQ_OVF]] s t)
  ∧ (∀ (s : State) (inp : Side) (p : Pkt) (cyc : Nat) (h : Side) (at_ v : Word), Takes s p → p.ptype = ptWrite → p.srch = hostNum h →
      s.requests h = [] → s.serving h = {} → p.timed = true → p.payload = [at_, v] → s.timedLate at_.toNat cyc = false →
      ∃ t, exec (.write inp p cyc) s = .next t
      ∧ (s.ring.timed.length < Config.timedDepth → t.ring.timed = s.ring.timed ++ [⟨at_.toNat, p.addr % 2 ^ 28, [v], h, [], []⟩]
          ∧ t.fget A.RING_STATUS F.RING_STATUS.TQ_LEVEL = (s.ring.timed.length + 1) % 2 ^ F.RING_STATUS.TQ_LEVEL.width
          ∧ Answers s t h p (bit01 (s.writeIgnored (p.addr % 2 ^ 28) v)) [])
      ∧ (Config.timedDepth ≤ s.ring.timed.length → t.ring.timed = s.ring.timed ∧ Answers s t h p 4 [])
      ∧ t.staged = s.staged ∧ t.mem = s.mem ∧ RegBits [bitsOf A.RING_STATUS [F.RING_STATUS.TQ_LEVEL]] s t)
  ∧ (∀ (s : State) (inp : Side) (p : Pkt) (cyc : Nat) (h : Side) (at_ v : Word), Takes s p → p.ptype = ptWriteNr → p.srch = hostNum h →
      s.requests h = [] → s.serving h = {} → p.timed = true → p.payload = [at_, v] → s.timedLate at_.toNat cyc = false →
      Config.timedDepth ≤ s.ring.timed.length → ∃ t, exec (.writeNr inp p cyc) s = .next t ∧ t.ring = s.ring
      ∧ t.fon A.RING_STATUS F.RING_STATUS.AT_OVF = true ∧ RegBits [bitsOf A.RING_STATUS [F.RING_STATUS.AT_OVF]] s t)
  ∧ (∀ (s : State) (inp : Side) (p : Pkt) (cyc : Nat) (h : Side) (at_ v : Word), Takes s p → p.ptype = ptWrite → p.srch = hostNum h →
      s.requests h = [] → s.serving h = {} → p.timed = true → p.payload = [at_, v] → s.timedLate at_.toNat cyc = true →
      (∃ b x y, placeOf (p.addr % 2 ^ 28) = .vmem b x y ∧ (s.bk b).reload = false ∧ s.vmBusy b = false) →
      ∃ t, exec (.write inp p cyc) s = .next t ∧ t.fon A.RING_STATUS F.RING_STATUS.AT_LATE = true ∧ t.ring.timed = s.ring.timed
      ∧ t.memRd (p.addr % 2 ^ 28) = v ∧ Answers s t h p 0 [] ∧ RegBits [bitsOf A.RING_STATUS [F.RING_STATUS.AT_LATE]] s t)
  ∧ (∀ (s : State) (inp : Side) (p : Pkt) (cyc : Nat) (h : Side) (v : Word), s.unit.ringOut = true → p.ttl ≠ 0 → s.ring.ready = true →
      p.ptype = ptWriteNr → pktBroadcast p = true → inp = p.ring → pktBad p = false → pktMalformed p = false → p.srch = hostNum h →
      s.requests h = [] → s.serving h = {} → p.timed = false → p.payload = [v] →
      (∃ b x y, placeOf (p.addr % 2 ^ 28) = .vmem b x y ∧ (s.bk b).reload = false ∧ s.vmBusy b = false) →
      (s.assigned = true → s.ringAddr ≠ 63) → ∃ t, exec (.writeNr inp p cyc) s = .next t
      ∧ t.memRd (p.addr % 2 ^ 28) = v ∧ t.outQ h = s.outQ h ∧ t.reg = s.reg
      ∧ (t.ring.lastA = some { p with ttl := p.ttl - 1 } ∨ t.ring.lastB = some { p with ttl := p.ttl - 1 }))
  ∧ (∀ (s : State) (inp : Side) (p : Pkt) (cyc : Nat) (h : Side) (v : Word), Takes s p → p.ptype = ptCommand → p.srch = hostNum h →
      s.requests h = [] → s.serving h = {} → pktArgs p = [v] → ∃ t, exec (.command inp p cyc) s = .next t
      ∧ t.requests h = [] ∧ t.outQ h = s.outQ h
      ∧ (p.timed = false → t.reg = s.reg ∧ t.rt.cmds = s.rt.cmds
          ∧ t.rt.events = s.rt.events ++ [⟨evRing, 0, v.toNat % 16, s.now, s.stamp (cycleFine cyc) false, 0⟩])
      ∧ (p.timed = true → 0 < s.ticksTo (p.payload.headD 0).toNat → s.ticksTo (p.payload.headD 0).toNat < 2 ^ 35 →
          s.rt.cmds.length < Config.timedDepth → t.reg = s.reg ∧ t.rt.events = s.rt.events
          ∧ t.rt.cmds = s.rt.cmds ++ [(v.toNat % 16, (p.payload.headD 0).toNat)])
      ∧ (p.timed = true → s.ticksTo (p.payload.headD 0).toNat = 0 ∨ 2 ^ 35 ≤ s.ticksTo (p.payload.headD 0).toNat →
          t.fon A.RT_STATUS F.RT_STATUS.CMD_LATE = true ∧ t.rt.cmds = s.rt.cmds
          ∧ t.rt.events = s.rt.events ++ [⟨evRing, 0, v.toNat % 16, s.now, s.stamp (cycleFine cyc) false, 0⟩]
          ∧ RegBits [bitsOf A.RT_STATUS [F.RT_STATUS.CMD_LATE]] s t)
      ∧ (p.timed = true → 0 < s.ticksTo (p.payload.headD 0).toNat → s.ticksTo (p.payload.headD 0).toNat < 2 ^ 35 →
          Config.timedDepth ≤ s.rt.cmds.length → t.fon A.RT_STATUS F.RT_STATUS.CMD_OVF = true ∧ t.rt = s.rt
          ∧ RegBits [bitsOf A.RT_STATUS [F.RT_STATUS.CMD_OVF]] s t))
  ∧ (∀ (s : State) (p : Pkt) (inp : Side) (cyc : Nat), (p.ptype ≠ ptRead → exec (.read inp p cyc) s = .next s)
      ∧ (p.ptype ≠ ptWrite → exec (.write inp p cyc) s = .next s) ∧ (p.ptype ≠ ptWriteNr → exec (.writeNr inp p cyc) s = .next s)
      ∧ (p.ptype ≠ ptCommand → exec (.command inp p cyc) s = .next s))
  ∧ (∀ (s : State) (w : Timed) (rest : List Timed) (v : Word), s.ring.timed = w :: rest → s.ticksTo w.at_ = 1 → w.words = [v] → w.lost = [] →
      ∃ t, exec (.timedWriteDue w.at_) s = .next t
      ∧ t.ring.timed.map (fun x => (x.at_, x.addr, x.words)) = rest.map (fun x => (x.at_, x.addr, x.words))
      ∧ (∀ b x y, placeOf (w.addr % 2 ^ 28) = .vmem b x y → (s.bk b).reload = false → s.vmBusy b = false →
          t.memRd (w.addr % 2 ^ 28) = v ∧ t.staged = s.staged)
      ∧ (w.addr = A.POWER_CAP → accepts A.POWER_CAP v = true → s.outranked A.POWER_CAP (s.now + 1) (.host w.h) = false →
          t.rd A.POWER_CAP = s.overlay A.POWER_CAP v
          ∧ ⟨s.now + 1, .host w.h, .force A.POWER_CAP (s.overlay A.POWER_CAP v), false⟩ ∈ t.staged))
  ∧ (∀ (s : State) (w : Timed) (rest : List Timed) (v : Word), s.ring.timed = w :: rest → s.ticksTo w.at_ = 1 → w.words = [v] → w.lost = [0] →
      ∃ t, exec (.timedWriteDue w.at_) s = .next t ∧ t.ring = { s.ring with timed := rest } ∧ t.staged = s.staged ∧ t.mem = s.mem
      ∧ RegBits [bitsOf A.RING_STATUS [F.RING_STATUS.TQ_LEVEL]] s t)
  ∧ ∀ (s : State) (at_ : Nat), s.ticksTo at_ ≠ 1 ∨ (∀ w ∈ s.ring.timed, w.at_ ≠ at_) → exec (.timedWriteDue at_) s = .next s

/-- R350, R355: STORE_WINDOW_READ of the word that the read request of the host with the store port waits for answers the request
and leaves the port, and any other does nothing; STORE_WINDOW_WRITE takes a scratch word or a valid address word of a store that has
not failed, and ignores any other with WR_IGN, and where a write request with the port waits for it answers that with its STATUS.
Neither does anything before the store is ready. -/
def Obligations.StoreWindow : Prop :=
  (∀ (s : State) (h : Side) (i : Fin 65536) (p : Pkt), s.fon A.BS_STATUS F.BS_STATUS.READY = true → s.requests h = [p] → s.serving h = {} →
      s.ring.port = some h → p.ptype = ptRead → pktOps p = 1 → placeOf (pktAddr p 0) = .store i → ∃ t, exec (.storeWindowRead h i) s = .next t
      ∧ Answers s t h p 0 [s.bsRd i] ∧ t.requests h = [] ∧ t.ring.port = none ∧ t.bs = s.bs ∧ t.reg = s.reg)
  ∧ (∀ (s : State) (h : Side) (i : Fin 65536), s.fon A.BS_STATUS F.BS_STATUS.READY = false ∨ s.requests h = [] ∨ s.ring.port ≠ some h
      ∨ s.storeNext h ≠ some i.val ∨ (∀ p, (s.requests h).head? = some p → p.ptype ≠ ptRead) → exec (.storeWindowRead h i) s = .next s)
  ∧ (∀ (s : State) (i : Fin 65536) (v : Word), s.fon A.BS_STATUS F.BS_STATUS.READY = true →
      (∀ h, s.ring.port = some h → s.storeNext h ≠ some i.val) → ∃ t, exec (.storeWindowWrite i v) s = .next t ∧ t.ring = s.ring ∧ (∀ j, j ≠ i.val → t.bsRd j = s.bsRd j)
      ∧ (s.bsFailed = false → bsScratch i = true → t.bsRd i = v ∧ t.reg = s.reg)
      ∧ (s.bsFailed = false → i.val = bsAddr → fldAddrValid.on v = false ∨ 1 ≤ v.toNat % 64 ∧ v.toNat % 64 ≤ 62 →
          fldAddr.get (t.bsRd i) = v.toNat % 64 ∧ fldAddrValid.on (t.bsRd i) = fldAddrValid.on v ∧ checkOk (t.bsRd i) = true ∧ t.reg = s.reg)
      ∧ (s.bsFailed = true ∨ bsScratch i = false ∧ (i.val ≠ bsAddr ∨ fldAddrValid.on v = true ∧ (v.toNat % 64 = 0 ∨ v.toNat % 64 = 63)) →
          t.bs = s.bs ∧ t.fon A.BS_STATUS F.BS_STATUS.WR_IGN = true ∧ RegBits [bitsOf A.BS_STATUS [F.BS_STATUS.WR_IGN]] s t))
  ∧ (∀ (s : State) (h : Side) (i : Fin 65536) (p : Pkt) (v : Word), s.fon A.BS_STATUS F.BS_STATUS.READY = true → s.requests h = [p] →
      s.serving h = {} → s.ring.port = some h → p.ptype = ptWrite → p.timed = false → p.payload = [v] → placeOf (p.addr % 2 ^ 28) = .store i →
      ∃ t, exec (.storeWindowWrite i v) s = .next t ∧ t.requests h = [] ∧ t.ring.port = none
      ∧ (∀ j, j ≠ i.val → t.bsRd j = s.bsRd j)
      ∧ (s.bsFailed = false → bsScratch i = true → t.bsRd i = v ∧ Answers s t h p 0 [] ∧ t.reg = s.reg)
      ∧ (s.bsFailed = true ∨ bsScratch i = false ∧ (i.val ≠ bsAddr ∨ fldAddrValid.on v = true ∧ (v.toNat % 64 = 0 ∨ v.toNat % 64 = 63)) →
          t.bs = s.bs ∧ Answers s t h p 1 [] ∧ t.fon A.BS_STATUS F.BS_STATUS.WR_IGN = true
          ∧ RegBits [bitsOf A.BS_STATUS [F.BS_STATUS.WR_IGN]] s t))
  ∧ ∀ (s : State) (i : Fin 65536) (v : Word), s.fon A.BS_STATUS F.BS_STATUS.READY = false → exec (.storeWindowWrite i v) s = .next s

/-- The output on which a ring direction leaves, past a wrap (R402). -/
def Sys2Proof.Machine.Leaves (s t : State) (dir : Side) (q : Pkt) : Prop :=
  (dir = .a ∧ s.fon A.RING_STATUS F.RING_STATUS.WRAP_HI = false ∨ dir = .b ∧ s.fon A.RING_STATUS F.RING_STATUS.WRAP_LO = true →
      t.ring.lastA = some q ∧ t.ring.lastB = s.ring.lastB)
    ∧ (dir = .a ∧ s.fon A.RING_STATUS F.RING_STATUS.WRAP_HI = true ∨ dir = .b ∧ s.fon A.RING_STATUS F.RING_STATUS.WRAP_LO = false →
      t.ring.lastB = some q ∧ t.ring.lastA = s.ring.lastA)

/-- R391 to R394, R398 to R403: packets on the ring. One for somebody else goes on with one TTL less, marked and counted where it is
first found bad here; one with TTL 0 is removed and counted; one of the unit's own that has gone around is removed, with UNDELIV unless
it was a broadcast; one for the unit that is bad is discarded, and counted unless it was found bad before. A code violation counts in
SYM_ERR. An ENUM on ring A names the unit's address with its COUNT and goes on with one more; COUNT 0 names none and COUNT 63 sets
ENUM_OVF; under REPLACE a unit that has an address keeps it and compares it. PACKET_SEND sends the oldest response for the host, else
its oldest note, and nothing in a unit that has no address or does not drive the ring. A unit that has not sent READY forwards and
sends nothing.
The order of PACKET_SEND and the handling of bad packets is the model's reading (assumptions 41 and 42), and so is that an unassigned
unit discards a packet with TTL 0 (assumption 75). -/
def Obligations.RingPackets : Prop :=
  (∀ (s : State) (inp : Side) (p : Pkt), s.unit.ringOut = true → p.viol = false → p.ttl ≠ 0 → s.ring.ready = true →
      ¬(s.assigned = true ∧ p.srch = 0 ∧ p.src = s.ringAddr) → ¬(s.assigned = true ∧ p.dsth = 0 ∧ p.dst = s.ringAddr) →
      pktBroadcast p = false → ∃ t, exec (.transitPacket inp p) s = .next t ∧ Leaves s t inp { p with ttl := p.ttl - 1, bad := pktBad p }
      ∧ (p.bad = false → pktBad p = true → t.fget (ringErr inp) F.RING_ERR_A.CRC_ERR
          = min (s.fget (ringErr inp) F.RING_ERR_A.CRC_ERR + 1) F.RING_ERR_A.CRC_ERR.max)
      ∧ (p.bad = true ∨ pktBad p = false → t.reg = s.reg) ∧ RegBits [bitsOf (ringErr inp) [F.RING_ERR_A.CRC_ERR]] s t)
  ∧ (∀ (s : State) (inp : Side) (p : Pkt), s.unit.ringOut = true → p.ttl = 0 → ∃ t, exec (.transitPacket inp p) s = .next t
      ∧ t.ring = s.ring ∧ t.fget (ringErr inp) F.RING_ERR_A.TTL_DROP
          = min (s.fget (ringErr inp) F.RING_ERR_A.TTL_DROP + 1) F.RING_ERR_A.TTL_DROP.max
      ∧ t.fget (ringErr inp) F.RING_ERR_A.SYM_ERR = (if p.viol = true
          then min (s.fget (ringErr inp) F.RING_ERR_A.SYM_ERR + 1) F.RING_ERR_A.SYM_ERR.max else s.fget (ringErr inp) F.RING_ERR_A.SYM_ERR)
      ∧ RegBits [bitsOf (ringErr inp) [F.RING_ERR_A.TTL_DROP, F.RING_ERR_A.SYM_ERR]] s t)
  ∧ (∀ (s : State) (inp : Side) (p : Pkt), s.unit.ringOut = true → p.viol = false → p.ttl ≠ 0 → s.ring.ready = false →
      ¬(s.assigned = true ∧ p.srch = 0 ∧ p.src = s.ringAddr) → ¬(s.assigned = true ∧ p.dsth = 0 ∧ p.dst = s.ringAddr) →
      pktBroadcast p = false → exec (.transitPacket inp p) s = .next s)
  ∧ (∀ (s : State) (inp : Side) (p : Pkt) (cyc : Nat) (c : Instr), s.unit.ringOut = true → p.viol = false → p.ttl ≠ 0 → s.assigned = true →
      p.dsth = 0 → p.dst = s.ringAddr → ¬(p.srch = 0 ∧ p.src = s.ringAddr) →
      (c = .transitPacket inp p ∨ c = .read inp p cyc ∧ p.ptype = ptRead ∨ c = .write inp p cyc ∧ p.ptype = ptWrite
        ∨ c = .writeNr inp p cyc ∧ p.ptype = ptWriteNr ∨ c = .command inp p cyc ∧ p.ptype = ptCommand) →
      (p.bad = false → pktMalformed p = true ∨ pktBad p = true → ∃ t, exec c s = .next t ∧ t.ring = s.ring
        ∧ t.fget (ringErr inp) F.RING_ERR_A.CRC_ERR = min (s.fget (ringErr inp) F.RING_ERR_A.CRC_ERR + 1) F.RING_ERR_A.CRC_ERR.max
        ∧ RegBits [bitsOf (ringErr inp) [F.RING_ERR_A.CRC_ERR]] s t)
      ∧ (p.bad = true → exec c s = .next s))
  ∧ (∀ (s : State) (inp : Side) (p : Pkt), s.unit.ringOut = true → p.viol = false → p.ttl ≠ 0 → s.assigned = true → p.srch = 0 →
      p.src = s.ringAddr → inp = p.ring → ∃ t, exec (.transitPacket inp p) s = .next t ∧ t.ring = s.ring
      ∧ (pktBroadcast p = false → t.fon A.RING_STATUS F.RING_STATUS.UNDELIV = true) ∧ (pktBroadcast p = true → t.reg = s.reg)
      ∧ RegBits [bitsOf A.RING_STATUS [F.RING_STATUS.UNDELIV]] s t)
  ∧ (∀ (s : State) (p : Pkt) (w : Word) (n : Nat), s.unit.ringOut = true → p.ttl ≠ 0 → s.ring.ready = true → p.ptype = ptEnum → p.ring = .a →
      pktBroadcast p = true → p.payload = [w] → p.viol = false → pktBad p = false → (p.srch = 1 ∨ p.srch = 2) →
      (s.assigned = true → s.ringAddr ≠ 63) → n = enCount.get w → ∃ t q, exec (.enum .a p) s = .next t
      ∧ Leaves s t .a q ∧ q.ttl = p.ttl - 1 ∧ pktBad q = false
      ∧ (n = 0 → q.payload = [w] ∧ t.reg = s.reg ∧ t.ring.newAddr = s.ring.newAddr)
      ∧ (n = 63 → q.payload = [enOvf.put w 1] ∧ t.fon A.RING_STATUS F.RING_STATUS.ENUM_OVF = true ∧ t.ring.newAddr = s.ring.newAddr)
      ∧ (1 ≤ n → n ≤ 62 → enMode.on w = false ∨ s.enumAddr = 0 → q.payload = [enCount.put w (n + 1)] ∧ t.enumAddr = n
          ∧ (s.clk.running = true → t.rd A.UNIT_ADDR = s.rd A.UNIT_ADDR) ∧ (s.clk.running = false → t.assigned = true ∧ t.ringAddr = n)
          ∧ (s.unit.st = .starting → s.step_ = 6 → s.clk.running = false → t.step_ = 7))
      ∧ (1 ≤ n → n ≤ 62 → enMode.on w = true → s.enumAddr ≠ 0 → t.enumAddr = s.enumAddr
          ∧ (∃ x, q.payload = [x] ∧ enCount.get x = (s.enumAddr + 1) % 64 ∧ (s.enumAddr < n → enConflict.on x = true)
              ∧ (n < s.enumAddr → enGap.on x = true))
          ∧ (s.enumAddr < n → t.fon A.RING_STATUS F.RING_STATUS.ENUM_CONFLICT = true)
          ∧ (n < s.enumAddr → t.fon A.RING_STATUS F.RING_STATUS.ENUM_GAP = true)
          ∧ (s.enumAddr = n → t.reg = s.reg))
      ∧ (s.unit.st ≠ .starting → RegBits [wholeReg A.RING_STATUS, wholeReg A.UNIT_ADDR] s t))
  ∧ (∀ (s : State) (inp : Side) (p : Pkt), p.ptype ≠ ptEnum ∨ s.unit.ringOut = false → exec (.enum inp p) s = .next s)
  ∧ (∀ (s : State) (h : Side), s.assigned = true → s.unit.ringOut = true → s.ring.ready = true →
      (∀ q rest, s.outQ h = q :: rest → ∃ t, exec (.packetSend h) s = .next t ∧ Leaves s t (ringTo h) q ∧ t.outQ h = rest ∧ t.rt = s.rt
        ∧ t.reg = s.reg)
      ∧ (∀ k rest, s.outQ h = [] → s.rt.notes = k :: rest → noteFor h k = true → ∃ t q, exec (.packetSend h) s = .next t
        ∧ Leaves s t (ringTo h) q ∧ q.ptype = (if k.intr then ptInterrupt else ptNotice)
        ∧ q.tag = (match h with | .a => s.ring.tagA | .b => s.ring.tagB)
        ∧ q.payload = [BitVec.ofNat 36 (k.idx % 128), k.st.word0, k.st.word1, k.info] ∧ pktBad q = false ∧ t.reg = s.reg
        ∧ (noteFor (ringTo h) k = false → (∀ m ∈ rest, m.toA = true ∨ m.toB = true) → t.rt.notes = rest))
      ∧ (s.outQ h = [] → (∀ k ∈ s.rt.notes, noteFor h k = false) → exec (.packetSend h) s = .next s))
  ∧ ∀ (s : State) (h : Side), s.assigned = false ∨ s.unit.ringOut = false ∨ s.ring.ready = false → exec (.packetSend h) s = .next s

/-- R387, R388, R402, R404, R405: the inputs. WORD_ALIGNMENT locks an input, ALIGNMENT_LOSS unlocks it and counts the violation; an
ALIVE on a locked input makes it fresh and up, and on another does nothing; INPUT_DOWN takes it down and wraps its side, with WRAP_EV
where it was not wrapped; UNWRAP ends the wrap of an input that is up and whose last ALIVE carried READY, and does nothing to another;
ALIVE_SEND sends READY, whether a side is wrapped and the address on both outputs, where the unit drives them.
That ALIVE goes out on both outputs whatever is wrapped is the model's reading (assumption 41). -/
def Obligations.RingInputs : Prop :=
  (∀ (s : State) (inp : Side), ∃ t, exec (.wordAlignment inp) s = .next t ∧ t.fon A.CLK_STATUS (lockFld inp) = true
      ∧ t.fon A.RING_STATUS (upFld inp) = s.isFresh inp ∧ t.ring = s.ring
      ∧ RegBits [bitsOf A.CLK_STATUS [lockFld inp], bitsOf A.RING_STATUS [upFld inp]] s t)
  ∧ (∀ (s : State) (inp : Side), ∃ t, exec (.alignmentLoss inp) s = .next t ∧ t.fon A.CLK_STATUS (lockFld inp) = false
      ∧ t.fon A.RING_STATUS (upFld inp) = false ∧ t.ring = s.ring
      ∧ t.fget (ringErr inp) F.RING_ERR_A.SYM_ERR = min (s.fget (ringErr inp) F.RING_ERR_A.SYM_ERR + 1) F.RING_ERR_A.SYM_ERR.max
      ∧ RegBits [bitsOf A.CLK_STATUS [lockFld inp], bitsOf A.RING_STATUS [upFld inp], bitsOf (ringErr inp) [F.RING_ERR_A.SYM_ERR]] s t)
  ∧ (∀ (s : State) (inp : Side) (ready wrapped : Bool) (addr : Nat), s.fon A.CLK_STATUS (lockFld inp) = true →
      ∃ t, exec (.alive inp ready wrapped addr) s = .next t ∧ t.isFresh inp = true ∧ t.lastReady inp = ready
      ∧ t.fon A.RING_STATUS (upFld inp) = true ∧ (∀ o, o ≠ inp → t.isFresh o = s.isFresh o ∧ t.lastReady o = s.lastReady o)
      ∧ RegBits [bitsOf A.RING_STATUS [upFld inp]] s t)
  ∧ (∀ (s : State) (inp : Side) (ready wrapped : Bool) (addr : Nat), s.fon A.CLK_STATUS (lockFld inp) = false →
      exec (.alive inp ready wrapped addr) s = .next s)
  ∧ (∀ s : State, s.unit.ringOut = true → ∃ t, exec .aliveSend s = .next t ∧ t.reg = s.reg
      ∧ t.ring = { s.ring with aliveA := some (s.ring.ready, s.wrapped, s.ringAddr), aliveB := some (s.ring.ready, s.wrapped, s.ringAddr) })
  ∧ (∀ s : State, s.unit.ringOut = false → exec .aliveSend s = .next s)
  ∧ (∀ (s : State) (inp : Side), ∃ t, exec (.inputDown inp) s = .next t ∧ t.isFresh inp = false ∧ t.fon A.RING_STATUS (upFld inp) = false
      ∧ t.fon A.RING_STATUS (wrapFld inp) = true
      ∧ (s.fon A.RING_STATUS (wrapFld inp) = false → t.fon A.RING_STATUS F.RING_STATUS.WRAP_EV = true)
      ∧ RegBits [bitsOf A.RING_STATUS [upFld inp, wrapFld inp, F.RING_STATUS.WRAP_EV]] s t)
  ∧ (∀ (s : State) (inp : Side), s.fon A.RING_STATUS (upFld inp) = true → s.lastReady inp = true → ∃ t, exec (.unwrap inp) s = .next t
      ∧ t.fon A.RING_STATUS (wrapFld inp) = false ∧ t.ring = s.ring ∧ RegBits [bitsOf A.RING_STATUS [wrapFld inp]] s t)
  ∧ ∀ (s : State) (inp : Side), s.fon A.RING_STATUS (upFld inp) = false ∨ s.lastReady inp = false → exec (.unwrap inp) s = .next s
end

