-- ==== Sys2Proof/Laws/Bits.lean ====
section
/-! SUPPORT. What a field write leaves in its own field and in the others. -/

namespace Sys2Proof.Machine

theorem Fld.get_eq (f : Fld) (x : Word) : f.get x = (x.toNat >>> f.lo) % 2 ^ f.width := by
  unfold Fld.get
  rw [BitVec.toNat_and, BitVec.toNat_ushiftRight, BitVec.toNat_ofNat]
  apply Nat.eq_of_testBit_eq; intro i
  rw [Nat.testBit_and, Nat.testBit_shiftRight, Nat.testBit_mod_two_pow, Nat.testBit_mod_two_pow, Nat.testBit_shiftRight,
    Nat.testBit_two_pow_sub_one]
  by_cases hi : i < 36
  · simp [hi, Bool.and_comm]
  · have : x.toNat.testBit (f.lo + i) = false :=
      Nat.testBit_lt_two_pow (Nat.lt_of_lt_of_le x.isLt (Nat.pow_le_pow_right (by omega) (by omega)))
    simp [this]

/-- A field holds less than its size. -/
theorem Fld.get_lt (f : Fld) (x : Word) : f.get x < 2 ^ f.width := by
  rw [Fld.get_eq]; exact Nat.mod_lt _ (Nat.two_pow_pos _)

theorem Fld.testBit_get (f : Fld) (x : Word) (i : Nat) :
    (f.get x).testBit i = (decide (i < f.width) && x.getLsbD (f.lo + i)) := by
  rw [Fld.get_eq]; simp [Nat.testBit_mod_two_pow, BitVec.getLsbD]

theorem Fld.getLsbD_put (f : Fld) (x : Word) (v i : Nat) : (f.put x v).getLsbD i =
    if f.lo ≤ i ∧ i < f.lo + f.width then decide (i < 36) && v.testBit (i - f.lo) else x.getLsbD i := by
  unfold Fld.put Fld.mask
  simp only [BitVec.getLsbD_or, BitVec.getLsbD_and, BitVec.getLsbD_not, BitVec.getLsbD_shiftLeft, BitVec.getLsbD_ofNat,
    Nat.testBit_two_pow_sub_one]
  by_cases h1 : f.lo ≤ i <;> by_cases h2 : i < f.lo + f.width <;> by_cases h3 : i < 36
  · have : i - f.lo < f.width := by omega
    have : i - f.lo < 36 := by omega
    have : ¬ i < f.lo := by omega
    simp [*]
  · simp [*, BitVec.getLsbD_of_ge x i (by omega)]
  · have : ¬ i - f.lo < f.width := by omega
    have : ¬ i < f.lo := by omega
    simp [*]
  · simp [*, BitVec.getLsbD_of_ge x i (by omega)]
  · have : i < f.lo := by omega
    simp [*]
  · simp [*, BitVec.getLsbD_of_ge x i (by omega)]
  · have : i < f.lo := by omega
    simp [*]
  · simp [*, BitVec.getLsbD_of_ge x i (by omega)]

/-- A field reads what was put into it, cut to its width. -/
theorem Fld.get_put (f : Fld) (x : Word) (v : Nat) (h : f.lo + f.width ≤ 36) : f.get (f.put x v) = v % 2 ^ f.width := by
  apply Nat.eq_of_testBit_eq; intro i
  rw [Fld.testBit_get, Fld.getLsbD_put, Nat.testBit_mod_two_pow]
  by_cases hi : i < f.width
  · have : f.lo + i < 36 := by omega
    simp [*]
  · simp [*]

theorem Fld.get_put_same (f : Fld) (x : Word) (v : Nat) (h : f.lo + f.width ≤ 36) (hv : v < 2 ^ f.width) :
    f.get (f.put x v) = v := by
  rw [Fld.get_put f x v h, Nat.mod_eq_of_lt hv]

/-- Fields that share no bit do not disturb each other. -/
theorem Fld.get_put_ne (f g : Fld) (x : Word) (v : Nat) (h : f.lo + f.width ≤ g.lo ∨ g.lo + g.width ≤ f.lo) :
    g.get (f.put x v) = g.get x := by
  apply Nat.eq_of_testBit_eq; intro i
  rw [Fld.testBit_get, Fld.testBit_get, Fld.getLsbD_put]
  by_cases hi : i < g.width
  · rw [if_neg (by omega)]
  · simp [hi]

theorem Fld.on_put (f : Fld) (x : Word) (b : Bool) (h : f.lo + f.width ≤ 36) (hw : 0 < f.width) :
    f.on (f.put x (bit01 b)) = b := by
  have : bit01 b < 2 ^ f.width := Nat.lt_of_lt_of_le (by cases b <;> decide) (Nat.pow_le_pow_right (by omega) hw)
  unfold Fld.on; rw [Fld.get_put_same f x _ h this]; cases b <;> rfl

theorem Fld.on_put_ne (f g : Fld) (x : Word) (v : Nat) (h : f.lo + f.width ≤ g.lo ∨ g.lo + g.width ≤ f.lo) :
    g.on (f.put x v) = g.on x := by unfold Fld.on; rw [Fld.get_put_ne f g x v h]

end Sys2Proof.Machine
end

