-- ==== Sys2Proof/Laws/Tab.lean ====
section
/-! SUPPORT. Laws of sparse tables: what a write leaves to read, and that every operation keeps the canonical form. -/

namespace Sys2Proof.Machine

variable {α : Type}

theorem Tab.get_erase_same (d : Nat → α) (t : List (Nat × α)) (k : Nat) : Tab.get d (Tab.erase t k) k = d k := by
  induction t with
  | nil => rfl
  | cons p t ih =>
    unfold Tab.erase at *
    rw [List.filter_cons]
    split <;> rename_i h
    · rw [Tab.get, if_neg (fun e => of_decide_eq_true h e.symm), ih]
    · exact ih

theorem Tab.get_erase_ne (d : Nat → α) (t : List (Nat × α)) {k j : Nat} (h : j ≠ k) :
    Tab.get d (Tab.erase t k) j = Tab.get d t j := by
  induction t with
  | nil => rfl
  | cons p t ih =>
    unfold Tab.erase at *
    rw [List.filter_cons]
    split <;> rename_i hp
    · rw [Tab.get, Tab.get, ih]
    · rw [ih, Tab.get, if_neg]
      rintro rfl
      simp at hp
      exact h hp

theorem Tab.get_ins_same (d : Nat → α) (t : List (Nat × α)) (k : Nat) (v : α) (h : ∀ p ∈ t, p.1 ≠ k) :
    Tab.get d (Tab.ins k v t) k = v := by
  induction t with
  | nil => simp [Tab.ins, Tab.get]
  | cons p t ih =>
    unfold Tab.ins
    split
    · simp [Tab.get]
    · have : k ≠ p.1 := fun e => h p (by simp) e.symm
      simp [Tab.get, this, ih (fun q hq => h q (by simp [hq]))]

theorem Tab.get_ins_ne (d : Nat → α) (t : List (Nat × α)) (v : α) {k j : Nat} (h : j ≠ k) :
    Tab.get d (Tab.ins k v t) j = Tab.get d t j := by
  induction t with
  | nil => simp [Tab.ins, Tab.get, h]
  | cons p t ih =>
    unfold Tab.ins
    split
    · simp [Tab.get, h]
    · simp [Tab.get, ih]

theorem Tab.mem_erase {t : List (Nat × α)} {k : Nat} {p : Nat × α} : p ∈ Tab.erase t k ↔ p ∈ t ∧ p.1 ≠ k := by
  simp [Tab.erase]

/-- A key reads what was written to it last. -/
theorem Tab.get_set_same [DecidableEq α] (d : Nat → α) (t : List (Nat × α)) (k : Nat) (v : α) :
    Tab.get d (Tab.set d t k v) k = v := by
  unfold Tab.set
  split
  · rename_i h; rw [Tab.get_erase_same, h]
  · exact Tab.get_ins_same d _ k v (fun p hp => (Tab.mem_erase.mp hp).2)

/-- Every other key reads what it read before. -/
theorem Tab.get_set_ne [DecidableEq α] (d : Nat → α) (t : List (Nat × α)) (v : α) {k j : Nat} (h : j ≠ k) :
    Tab.get d (Tab.set d t k v) j = Tab.get d t j := by
  unfold Tab.set
  split
  · exact Tab.get_erase_ne d t h
  · rw [Tab.get_ins_ne d _ v h, Tab.get_erase_ne d t h]

theorem Tab.get_set [DecidableEq α] (d : Nat → α) (t : List (Nat × α)) (k j : Nat) (v : α) :
    Tab.get d (Tab.set d t k v) j = if j = k then v else Tab.get d t j := by
  split
  · subst_vars; exact Tab.get_set_same d t _ v
  · exact Tab.get_set_ne d t v ‹_›

theorem Tab.get_upd_same [DecidableEq α] (d : Nat → α) (t : List (Nat × α)) (k : Nat) (f : α → α) :
    Tab.get d (Tab.upd d t k f) k = f (Tab.get d t k) := Tab.get_set_same ..

theorem Tab.get_upd_ne [DecidableEq α] (d : Nat → α) (t : List (Nat × α)) (f : α → α) {k j : Nat} (h : j ≠ k) :
    Tab.get d (Tab.upd d t k f) j = Tab.get d t j := Tab.get_set_ne d t _ h

/-- Every key but those that `p` accepts keeps its value under a drop. -/
theorem Tab.get_drop (d : Nat → α) (p : Nat → Bool) (t : List (Nat × α)) (k : Nat) :
    Tab.get d (Tab.drop p t) k = if p k then d k else Tab.get d t k := by
  induction t with
  | nil => simp [Tab.drop, Tab.get]
  | cons q t ih =>
    unfold Tab.drop at *
    rw [List.filter_cons]
    split <;> rename_i hq
    · simp only [Tab.get, ih]
      by_cases e : k = q.1
      · subst e; simp at hq; simp [hq]
      · simp [e]
    · rw [ih]
      by_cases e : k = q.1
      · subst e; simp at hq; simp [hq]
      · simp [Tab.get, e]

/-! ### The canonical form -/

/-- Keys above `lo`, strictly rising. -/
def Tab.Rises (lo : Option Nat) (t : List (Nat × α)) : Prop :=
  t.Pairwise (fun p q => p.1 < q.1) ∧ ∀ p ∈ t, ∀ j ∈ lo, j < p.1

theorem Tab.rising_iff (lo : Option Nat) (t : List (Nat × α)) : Tab.rising lo t = true ↔ Tab.Rises lo t := by
  induction t generalizing lo with
  | nil => simp [Tab.rising, Tab.Rises]
  | cons p t ih =>
    cases lo with
    | none => simp [Tab.rising, Tab.Rises, ih, and_comm]
    | some j =>
      simp only [Tab.rising, Bool.and_eq_true, decide_eq_true_eq, ih, Tab.Rises, Option.mem_def, List.mem_cons,
        List.pairwise_cons, forall_eq_or_imp]
      constructor
      · rintro ⟨h1, h2, h3⟩
        exact ⟨⟨fun q hq => h3 q hq _ rfl, h2⟩, fun i hi => by cases hi; exact h1,
          fun q hq i hi => by cases hi; exact Nat.lt_trans h1 (h3 q hq _ rfl)⟩
      · rintro ⟨⟨h1, h2⟩, h3, _⟩
        exact ⟨h3 _ rfl, h2, fun q hq i hi => by cases hi; exact h1 q hq⟩

theorem Tab.wf_iff [DecidableEq α] (d : Nat → α) (t : List (Nat × α)) :
    Tab.wf d t = true ↔ t.Pairwise (fun p q => p.1 < q.1) ∧ ∀ p ∈ t, p.2 ≠ d p.1 := by
  simp [Tab.wf, Tab.rising_iff, Tab.Rises]

theorem Tab.wf_nil [DecidableEq α] (d : Nat → α) : Tab.wf d [] = true := rfl

theorem Tab.wf_filter [DecidableEq α] (d : Nat → α) (t : List (Nat × α)) (p : Nat × α → Bool) (h : Tab.wf d t = true) :
    Tab.wf d (t.filter p) = true := by
  rw [Tab.wf_iff] at *
  exact ⟨h.1.filter _, fun q hq => h.2 q ((List.mem_filter.mp hq).1)⟩

theorem Tab.mem_ins {k : Nat} {v : α} {t : List (Nat × α)} {p : Nat × α} :
    p ∈ Tab.ins k v t ↔ p = (k, v) ∨ p ∈ t := by
  induction t with
  | nil => simp [Tab.ins]
  | cons q t ih => unfold Tab.ins; split <;> simp [ih, or_left_comm]

theorem Tab.wf_ins [DecidableEq α] (d : Nat → α) (t : List (Nat × α)) (k : Nat) (v : α) (h : Tab.wf d t = true)
    (hk : ∀ p ∈ t, p.1 ≠ k) (hv : v ≠ d k) : Tab.wf d (Tab.ins k v t) = true := by
  rw [Tab.wf_iff] at *
  refine ⟨?_, fun p hp => ?_⟩
  · obtain ⟨h, -⟩ := h
    induction t with
    | nil => simp [Tab.ins]
    | cons q t ih =>
      obtain ⟨h1, h2⟩ := List.pairwise_cons.mp h
      unfold Tab.ins
      split <;> rename_i hlt
      · refine List.pairwise_cons.mpr ⟨fun p hp => ?_, h⟩
        rcases List.mem_cons.mp hp with rfl | hp
        · exact hlt
        · exact Nat.lt_trans hlt (h1 p hp)
      · refine List.pairwise_cons.mpr ⟨fun p hp => ?_, ih (fun p hp => hk p (by simp [hp])) h2⟩
        rcases Tab.mem_ins.mp hp with rfl | hp
        · have := hk q (by simp); simp only; omega
        · exact h1 p hp
  · rcases Tab.mem_ins.mp hp with rfl | hp
    · exact hv
    · exact h.2 p hp

/-- A write keeps the canonical form. -/
theorem Tab.wf_set [DecidableEq α] (d : Nat → α) (t : List (Nat × α)) (k : Nat) (v : α) (h : Tab.wf d t = true) :
    Tab.wf d (Tab.set d t k v) = true := by
  unfold Tab.set
  split
  · exact Tab.wf_filter d t _ h
  · exact Tab.wf_ins d _ k v (Tab.wf_filter d t _ h) (fun p hp => (Tab.mem_erase.mp hp).2) ‹_›

/-- A change of one value keeps the canonical form. -/
theorem Tab.wf_upd [DecidableEq α] (d : Nat → α) (t : List (Nat × α)) (k : Nat) (f : α → α) (h : Tab.wf d t = true) :
    Tab.wf d (Tab.upd d t k f) = true := Tab.wf_set d t k _ h

/-- A drop keeps the canonical form. -/
theorem Tab.wf_drop [DecidableEq α] (d : Nat → α) (p : Nat → Bool) (t : List (Nat × α)) (h : Tab.wf d t = true) :
    Tab.wf d (Tab.drop p t) = true := Tab.wf_filter d t _ h

/-- Writes one after another keep the canonical form. -/
theorem Tab.wf_foldl_set [DecidableEq α] (d : Nat → α) {β : Type} (l : List β) (k : β → Nat) (v : β → α)
    (t : List (Nat × α)) (h : Tab.wf d t = true) : Tab.wf d (l.foldl (fun t i => Tab.set d t (k i) (v i)) t) = true := by
  induction l generalizing t with
  | nil => exact h
  | cons x l ih => exact ih _ (Tab.wf_set d t _ _ h)

end Sys2Proof.Machine
end

