-- ==== Sys2Proof/Laws/State.lean ====
section
/-! SUPPORT. One lemma per field and accessor of the state per update of it, so that no proof unfolds a record update. -/

namespace Sys2Proof.Machine.State

/-! `wr` -/

@[simp] theorem wr_frc (s : State) (a : Nat) (v : Word) : (s.wr a v).frc = s.frc := rfl
@[simp] theorem wr_mem (s : State) (a : Nat) (v : Word) : (s.wr a v).mem = s.mem := rfl
@[simp] theorem wr_bs (s : State) (a : Nat) (v : Word) : (s.wr a v).bs = s.bs := rfl
@[simp] theorem wr_bsFill (s : State) (a : Nat) (v : Word) : (s.wr a v).bsFill = s.bsFill := rfl
@[simp] theorem wr_setBits (s : State) (a : Nat) (v : Word) : (s.wr a v).setBits = s.setBits := rfl
@[simp] theorem wr_latA (s : State) (a : Nat) (v : Word) : (s.wr a v).latA = s.latA := rfl
@[simp] theorem wr_latB (s : State) (a : Nat) (v : Word) : (s.wr a v).latB = s.latB := rfl
@[simp] theorem wr_staged (s : State) (a : Nat) (v : Word) : (s.wr a v).staged = s.staged := rfl
@[simp] theorem wr_led (s : State) (a : Nat) (v : Word) : (s.wr a v).led = s.led := rfl
@[simp] theorem wr_chan (s : State) (a : Nat) (v : Word) : (s.wr a v).chan = s.chan := rfl
@[simp] theorem wr_bank (s : State) (a : Nat) (v : Word) : (s.wr a v).bank = s.bank := rfl
@[simp] theorem wr_pmc (s : State) (a : Nat) (v : Word) : (s.wr a v).pmc = s.pmc := rfl
@[simp] theorem wr_src (s : State) (a : Nat) (v : Word) : (s.wr a v).src = s.src := rfl
@[simp] theorem wr_ae (s : State) (a : Nat) (v : Word) : (s.wr a v).ae = s.ae := rfl
@[simp] theorem wr_port (s : State) (a : Nat) (v : Word) : (s.wr a v).port = s.port := rfl
@[simp] theorem wr_syn (s : State) (a : Nat) (v : Word) : (s.wr a v).syn = s.syn := rfl
@[simp] theorem wr_isl (s : State) (a : Nat) (v : Word) : (s.wr a v).isl = s.isl := rfl
@[simp] theorem wr_clk (s : State) (a : Nat) (v : Word) : (s.wr a v).clk = s.clk := rfl
@[simp] theorem wr_sea (s : State) (a : Nat) (v : Word) : (s.wr a v).sea = s.sea := rfl
@[simp] theorem wr_unit (s : State) (a : Nat) (v : Word) : (s.wr a v).unit = s.unit := rfl
@[simp] theorem wr_cal (s : State) (a : Nat) (v : Word) : (s.wr a v).cal = s.cal := rfl
@[simp] theorem wr_alm (s : State) (a : Nat) (v : Word) : (s.wr a v).alm = s.alm := rfl
@[simp] theorem wr_ring (s : State) (a : Nat) (v : Word) : (s.wr a v).ring = s.ring := rfl
@[simp] theorem wr_rt (s : State) (a : Nat) (v : Word) : (s.wr a v).rt = s.rt := rfl
@[simp] theorem wr_rfReload (s : State) (a : Nat) (v : Word) : (s.wr a v).rfReload = s.rfReload := rfl
@[simp] theorem wr_free (s : State) (a : Nat) (v : Word) : (s.wr a v).free = s.free := rfl
@[simp] theorem wr_pending (s : State) (a : Nat) (v : Word) : (s.wr a v).pending = s.pending := rfl
@[simp] theorem wr_eff (s : State) (a : Nat) (v : Word) (j : Nat) : (s.wr a v).eff j = s.eff j := rfl
@[simp] theorem wr_memRd (s : State) (a : Nat) (v : Word) (j : Nat) : (s.wr a v).memRd j = s.memRd j := rfl
@[simp] theorem wr_ch (s : State) (a : Nat) (v : Word) (j : Nat) : (s.wr a v).ch j = s.ch j := rfl
@[simp] theorem wr_bk (s : State) (a : Nat) (v : Word) (j : Nat) : (s.wr a v).bk j = s.bk j := rfl
@[simp] theorem wr_pm (s : State) (a : Nat) (v : Word) (j : Nat) : (s.wr a v).pm j = s.pm j := rfl
@[simp] theorem wr_sr (s : State) (a : Nat) (v : Word) (j : Nat) : (s.wr a v).sr j = s.sr j := rfl
@[simp] theorem wr_en (s : State) (a : Nat) (v : Word) (j : Nat) : (s.wr a v).en j = s.en j := rfl
@[simp] theorem wr_pt (s : State) (a : Nat) (v : Word) (j : Nat) : (s.wr a v).pt j = s.pt j := rfl
@[simp] theorem wr_sy (s : State) (a : Nat) (v : Word) (j : Nat) : (s.wr a v).sy j = s.sy j := rfl
@[simp] theorem wr_bsRd (s : State) (a : Nat) (v : Word) (j : Nat) : (s.wr a v).bsRd j = s.bsRd j := rfl
@[simp] theorem wr_now (s : State) (a : Nat) (v : Word) : (s.wr a v).now = s.now := rfl
@[simp] theorem wr_eget (s : State) (a : Nat) (v : Word) (j : Nat) (g : Fld) : (s.wr a v).eget j g = s.eget j g := rfl
@[simp] theorem wr_eon (s : State) (a : Nat) (v : Word) (j : Nat) (g : Fld) : (s.wr a v).eon j g = s.eon j g := rfl

/-! `setEff` -/

@[simp] theorem setEff_reg (s : State) (a : Nat) (v : Word) : (s.setEff a v).reg = s.reg := rfl
@[simp] theorem setEff_mem (s : State) (a : Nat) (v : Word) : (s.setEff a v).mem = s.mem := rfl
@[simp] theorem setEff_bs (s : State) (a : Nat) (v : Word) : (s.setEff a v).bs = s.bs := rfl
@[simp] theorem setEff_bsFill (s : State) (a : Nat) (v : Word) : (s.setEff a v).bsFill = s.bsFill := rfl
@[simp] theorem setEff_setBits (s : State) (a : Nat) (v : Word) : (s.setEff a v).setBits = s.setBits := rfl
@[simp] theorem setEff_latA (s : State) (a : Nat) (v : Word) : (s.setEff a v).latA = s.latA := rfl
@[simp] theorem setEff_latB (s : State) (a : Nat) (v : Word) : (s.setEff a v).latB = s.latB := rfl
@[simp] theorem setEff_staged (s : State) (a : Nat) (v : Word) : (s.setEff a v).staged = s.staged := rfl
@[simp] theorem setEff_led (s : State) (a : Nat) (v : Word) : (s.setEff a v).led = s.led := rfl
@[simp] theorem setEff_chan (s : State) (a : Nat) (v : Word) : (s.setEff a v).chan = s.chan := rfl
@[simp] theorem setEff_bank (s : State) (a : Nat) (v : Word) : (s.setEff a v).bank = s.bank := rfl
@[simp] theorem setEff_pmc (s : State) (a : Nat) (v : Word) : (s.setEff a v).pmc = s.pmc := rfl
@[simp] theorem setEff_src (s : State) (a : Nat) (v : Word) : (s.setEff a v).src = s.src := rfl
@[simp] theorem setEff_ae (s : State) (a : Nat) (v : Word) : (s.setEff a v).ae = s.ae := rfl
@[simp] theorem setEff_port (s : State) (a : Nat) (v : Word) : (s.setEff a v).port = s.port := rfl
@[simp] theorem setEff_syn (s : State) (a : Nat) (v : Word) : (s.setEff a v).syn = s.syn := rfl
@[simp] theorem setEff_isl (s : State) (a : Nat) (v : Word) : (s.setEff a v).isl = s.isl := rfl
@[simp] theorem setEff_clk (s : State) (a : Nat) (v : Word) : (s.setEff a v).clk = s.clk := rfl
@[simp] theorem setEff_sea (s : State) (a : Nat) (v : Word) : (s.setEff a v).sea = s.sea := rfl
@[simp] theorem setEff_unit (s : State) (a : Nat) (v : Word) : (s.setEff a v).unit = s.unit := rfl
@[simp] theorem setEff_cal (s : State) (a : Nat) (v : Word) : (s.setEff a v).cal = s.cal := rfl
@[simp] theorem setEff_alm (s : State) (a : Nat) (v : Word) : (s.setEff a v).alm = s.alm := rfl
@[simp] theorem setEff_ring (s : State) (a : Nat) (v : Word) : (s.setEff a v).ring = s.ring := rfl
@[simp] theorem setEff_rt (s : State) (a : Nat) (v : Word) : (s.setEff a v).rt = s.rt := rfl
@[simp] theorem setEff_rfReload (s : State) (a : Nat) (v : Word) : (s.setEff a v).rfReload = s.rfReload := rfl
@[simp] theorem setEff_free (s : State) (a : Nat) (v : Word) : (s.setEff a v).free = s.free := rfl
@[simp] theorem setEff_pending (s : State) (a : Nat) (v : Word) : (s.setEff a v).pending = s.pending := rfl
@[simp] theorem setEff_rd (s : State) (a : Nat) (v : Word) (j : Nat) : (s.setEff a v).rd j = s.rd j := rfl
@[simp] theorem setEff_memRd (s : State) (a : Nat) (v : Word) (j : Nat) : (s.setEff a v).memRd j = s.memRd j := rfl
@[simp] theorem setEff_ch (s : State) (a : Nat) (v : Word) (j : Nat) : (s.setEff a v).ch j = s.ch j := rfl
@[simp] theorem setEff_bk (s : State) (a : Nat) (v : Word) (j : Nat) : (s.setEff a v).bk j = s.bk j := rfl
@[simp] theorem setEff_pm (s : State) (a : Nat) (v : Word) (j : Nat) : (s.setEff a v).pm j = s.pm j := rfl
@[simp] theorem setEff_sr (s : State) (a : Nat) (v : Word) (j : Nat) : (s.setEff a v).sr j = s.sr j := rfl
@[simp] theorem setEff_en (s : State) (a : Nat) (v : Word) (j : Nat) : (s.setEff a v).en j = s.en j := rfl
@[simp] theorem setEff_pt (s : State) (a : Nat) (v : Word) (j : Nat) : (s.setEff a v).pt j = s.pt j := rfl
@[simp] theorem setEff_sy (s : State) (a : Nat) (v : Word) (j : Nat) : (s.setEff a v).sy j = s.sy j := rfl
@[simp] theorem setEff_bsRd (s : State) (a : Nat) (v : Word) (j : Nat) : (s.setEff a v).bsRd j = s.bsRd j := rfl
@[simp] theorem setEff_now (s : State) (a : Nat) (v : Word) : (s.setEff a v).now = s.now := rfl
@[simp] theorem setEff_fget (s : State) (a : Nat) (v : Word) (j : Nat) (g : Fld) : (s.setEff a v).fget j g = s.fget j g := rfl
@[simp] theorem setEff_fon (s : State) (a : Nat) (v : Word) (j : Nat) (g : Fld) : (s.setEff a v).fon j g = s.fon j g := rfl

/-! `fset` -/

@[simp] theorem fset_frc (s : State) (a : Nat) (f : Fld) (v : Nat) : (s.fset a f v).frc = s.frc := rfl
@[simp] theorem fset_mem (s : State) (a : Nat) (f : Fld) (v : Nat) : (s.fset a f v).mem = s.mem := rfl
@[simp] theorem fset_bs (s : State) (a : Nat) (f : Fld) (v : Nat) : (s.fset a f v).bs = s.bs := rfl
@[simp] theorem fset_bsFill (s : State) (a : Nat) (f : Fld) (v : Nat) : (s.fset a f v).bsFill = s.bsFill := rfl
@[simp] theorem fset_setBits (s : State) (a : Nat) (f : Fld) (v : Nat) : (s.fset a f v).setBits = s.setBits := rfl
@[simp] theorem fset_latA (s : State) (a : Nat) (f : Fld) (v : Nat) : (s.fset a f v).latA = s.latA := rfl
@[simp] theorem fset_latB (s : State) (a : Nat) (f : Fld) (v : Nat) : (s.fset a f v).latB = s.latB := rfl
@[simp] theorem fset_staged (s : State) (a : Nat) (f : Fld) (v : Nat) : (s.fset a f v).staged = s.staged := rfl
@[simp] theorem fset_led (s : State) (a : Nat) (f : Fld) (v : Nat) : (s.fset a f v).led = s.led := rfl
@[simp] theorem fset_chan (s : State) (a : Nat) (f : Fld) (v : Nat) : (s.fset a f v).chan = s.chan := rfl
@[simp] theorem fset_bank (s : State) (a : Nat) (f : Fld) (v : Nat) : (s.fset a f v).bank = s.bank := rfl
@[simp] theorem fset_pmc (s : State) (a : Nat) (f : Fld) (v : Nat) : (s.fset a f v).pmc = s.pmc := rfl
@[simp] theorem fset_src (s : State) (a : Nat) (f : Fld) (v : Nat) : (s.fset a f v).src = s.src := rfl
@[simp] theorem fset_ae (s : State) (a : Nat) (f : Fld) (v : Nat) : (s.fset a f v).ae = s.ae := rfl
@[simp] theorem fset_port (s : State) (a : Nat) (f : Fld) (v : Nat) : (s.fset a f v).port = s.port := rfl
@[simp] theorem fset_syn (s : State) (a : Nat) (f : Fld) (v : Nat) : (s.fset a f v).syn = s.syn := rfl
@[simp] theorem fset_isl (s : State) (a : Nat) (f : Fld) (v : Nat) : (s.fset a f v).isl = s.isl := rfl
@[simp] theorem fset_clk (s : State) (a : Nat) (f : Fld) (v : Nat) : (s.fset a f v).clk = s.clk := rfl
@[simp] theorem fset_sea (s : State) (a : Nat) (f : Fld) (v : Nat) : (s.fset a f v).sea = s.sea := rfl
@[simp] theorem fset_unit (s : State) (a : Nat) (f : Fld) (v : Nat) : (s.fset a f v).unit = s.unit := rfl
@[simp] theorem fset_cal (s : State) (a : Nat) (f : Fld) (v : Nat) : (s.fset a f v).cal = s.cal := rfl
@[simp] theorem fset_alm (s : State) (a : Nat) (f : Fld) (v : Nat) : (s.fset a f v).alm = s.alm := rfl
@[simp] theorem fset_ring (s : State) (a : Nat) (f : Fld) (v : Nat) : (s.fset a f v).ring = s.ring := rfl
@[simp] theorem fset_rt (s : State) (a : Nat) (f : Fld) (v : Nat) : (s.fset a f v).rt = s.rt := rfl
@[simp] theorem fset_rfReload (s : State) (a : Nat) (f : Fld) (v : Nat) : (s.fset a f v).rfReload = s.rfReload := rfl
@[simp] theorem fset_free (s : State) (a : Nat) (f : Fld) (v : Nat) : (s.fset a f v).free = s.free := rfl
@[simp] theorem fset_pending (s : State) (a : Nat) (f : Fld) (v : Nat) : (s.fset a f v).pending = s.pending := rfl
@[simp] theorem fset_eff (s : State) (a : Nat) (f : Fld) (v : Nat) (j : Nat) : (s.fset a f v).eff j = s.eff j := rfl
@[simp] theorem fset_memRd (s : State) (a : Nat) (f : Fld) (v : Nat) (j : Nat) : (s.fset a f v).memRd j = s.memRd j := rfl
@[simp] theorem fset_ch (s : State) (a : Nat) (f : Fld) (v : Nat) (j : Nat) : (s.fset a f v).ch j = s.ch j := rfl
@[simp] theorem fset_bk (s : State) (a : Nat) (f : Fld) (v : Nat) (j : Nat) : (s.fset a f v).bk j = s.bk j := rfl
@[simp] theorem fset_pm (s : State) (a : Nat) (f : Fld) (v : Nat) (j : Nat) : (s.fset a f v).pm j = s.pm j := rfl
@[simp] theorem fset_sr (s : State) (a : Nat) (f : Fld) (v : Nat) (j : Nat) : (s.fset a f v).sr j = s.sr j := rfl
@[simp] theorem fset_en (s : State) (a : Nat) (f : Fld) (v : Nat) (j : Nat) : (s.fset a f v).en j = s.en j := rfl
@[simp] theorem fset_pt (s : State) (a : Nat) (f : Fld) (v : Nat) (j : Nat) : (s.fset a f v).pt j = s.pt j := rfl
@[simp] theorem fset_sy (s : State) (a : Nat) (f : Fld) (v : Nat) (j : Nat) : (s.fset a f v).sy j = s.sy j := rfl
@[simp] theorem fset_bsRd (s : State) (a : Nat) (f : Fld) (v : Nat) (j : Nat) : (s.fset a f v).bsRd j = s.bsRd j := rfl
@[simp] theorem fset_now (s : State) (a : Nat) (f : Fld) (v : Nat) : (s.fset a f v).now = s.now := rfl
@[simp] theorem fset_eget (s : State) (a : Nat) (f : Fld) (v : Nat) (j : Nat) (g : Fld) : (s.fset a f v).eget j g = s.eget j g := rfl
@[simp] theorem fset_eon (s : State) (a : Nat) (f : Fld) (v : Nat) (j : Nat) (g : Fld) : (s.fset a f v).eon j g = s.eon j g := rfl

/-! `fbit` -/

@[simp] theorem fbit_frc (s : State) (a : Nat) (f : Fld) (v : Bool) : (s.fbit a f v).frc = s.frc := rfl
@[simp] theorem fbit_mem (s : State) (a : Nat) (f : Fld) (v : Bool) : (s.fbit a f v).mem = s.mem := rfl
@[simp] theorem fbit_bs (s : State) (a : Nat) (f : Fld) (v : Bool) : (s.fbit a f v).bs = s.bs := rfl
@[simp] theorem fbit_bsFill (s : State) (a : Nat) (f : Fld) (v : Bool) : (s.fbit a f v).bsFill = s.bsFill := rfl
@[simp] theorem fbit_setBits (s : State) (a : Nat) (f : Fld) (v : Bool) : (s.fbit a f v).setBits = s.setBits := rfl
@[simp] theorem fbit_latA (s : State) (a : Nat) (f : Fld) (v : Bool) : (s.fbit a f v).latA = s.latA := rfl
@[simp] theorem fbit_latB (s : State) (a : Nat) (f : Fld) (v : Bool) : (s.fbit a f v).latB = s.latB := rfl
@[simp] theorem fbit_staged (s : State) (a : Nat) (f : Fld) (v : Bool) : (s.fbit a f v).staged = s.staged := rfl
@[simp] theorem fbit_led (s : State) (a : Nat) (f : Fld) (v : Bool) : (s.fbit a f v).led = s.led := rfl
@[simp] theorem fbit_chan (s : State) (a : Nat) (f : Fld) (v : Bool) : (s.fbit a f v).chan = s.chan := rfl
@[simp] theorem fbit_bank (s : State) (a : Nat) (f : Fld) (v : Bool) : (s.fbit a f v).bank = s.bank := rfl
@[simp] theorem fbit_pmc (s : State) (a : Nat) (f : Fld) (v : Bool) : (s.fbit a f v).pmc = s.pmc := rfl
@[simp] theorem fbit_src (s : State) (a : Nat) (f : Fld) (v : Bool) : (s.fbit a f v).src = s.src := rfl
@[simp] theorem fbit_ae (s : State) (a : Nat) (f : Fld) (v : Bool) : (s.fbit a f v).ae = s.ae := rfl
@[simp] theorem fbit_port (s : State) (a : Nat) (f : Fld) (v : Bool) : (s.fbit a f v).port = s.port := rfl
@[simp] theorem fbit_syn (s : State) (a : Nat) (f : Fld) (v : Bool) : (s.fbit a f v).syn = s.syn := rfl
@[simp] theorem fbit_isl (s : State) (a : Nat) (f : Fld) (v : Bool) : (s.fbit a f v).isl = s.isl := rfl
@[simp] theorem fbit_clk (s : State) (a : Nat) (f : Fld) (v : Bool) : (s.fbit a f v).clk = s.clk := rfl
@[simp] theorem fbit_sea (s : State) (a : Nat) (f : Fld) (v : Bool) : (s.fbit a f v).sea = s.sea := rfl
@[simp] theorem fbit_unit (s : State) (a : Nat) (f : Fld) (v : Bool) : (s.fbit a f v).unit = s.unit := rfl
@[simp] theorem fbit_cal (s : State) (a : Nat) (f : Fld) (v : Bool) : (s.fbit a f v).cal = s.cal := rfl
@[simp] theorem fbit_alm (s : State) (a : Nat) (f : Fld) (v : Bool) : (s.fbit a f v).alm = s.alm := rfl
@[simp] theorem fbit_ring (s : State) (a : Nat) (f : Fld) (v : Bool) : (s.fbit a f v).ring = s.ring := rfl
@[simp] theorem fbit_rt (s : State) (a : Nat) (f : Fld) (v : Bool) : (s.fbit a f v).rt = s.rt := rfl
@[simp] theorem fbit_rfReload (s : State) (a : Nat) (f : Fld) (v : Bool) : (s.fbit a f v).rfReload = s.rfReload := rfl
@[simp] theorem fbit_free (s : State) (a : Nat) (f : Fld) (v : Bool) : (s.fbit a f v).free = s.free := rfl
@[simp] theorem fbit_pending (s : State) (a : Nat) (f : Fld) (v : Bool) : (s.fbit a f v).pending = s.pending := rfl
@[simp] theorem fbit_eff (s : State) (a : Nat) (f : Fld) (v : Bool) (j : Nat) : (s.fbit a f v).eff j = s.eff j := rfl
@[simp] theorem fbit_memRd (s : State) (a : Nat) (f : Fld) (v : Bool) (j : Nat) : (s.fbit a f v).memRd j = s.memRd j := rfl
@[simp] theorem fbit_ch (s : State) (a : Nat) (f : Fld) (v : Bool) (j : Nat) : (s.fbit a f v).ch j = s.ch j := rfl
@[simp] theorem fbit_bk (s : State) (a : Nat) (f : Fld) (v : Bool) (j : Nat) : (s.fbit a f v).bk j = s.bk j := rfl
@[simp] theorem fbit_pm (s : State) (a : Nat) (f : Fld) (v : Bool) (j : Nat) : (s.fbit a f v).pm j = s.pm j := rfl
@[simp] theorem fbit_sr (s : State) (a : Nat) (f : Fld) (v : Bool) (j : Nat) : (s.fbit a f v).sr j = s.sr j := rfl
@[simp] theorem fbit_en (s : State) (a : Nat) (f : Fld) (v : Bool) (j : Nat) : (s.fbit a f v).en j = s.en j := rfl
@[simp] theorem fbit_pt (s : State) (a : Nat) (f : Fld) (v : Bool) (j : Nat) : (s.fbit a f v).pt j = s.pt j := rfl
@[simp] theorem fbit_sy (s : State) (a : Nat) (f : Fld) (v : Bool) (j : Nat) : (s.fbit a f v).sy j = s.sy j := rfl
@[simp] theorem fbit_bsRd (s : State) (a : Nat) (f : Fld) (v : Bool) (j : Nat) : (s.fbit a f v).bsRd j = s.bsRd j := rfl
@[simp] theorem fbit_now (s : State) (a : Nat) (f : Fld) (v : Bool) : (s.fbit a f v).now = s.now := rfl
@[simp] theorem fbit_eget (s : State) (a : Nat) (f : Fld) (v : Bool) (j : Nat) (g : Fld) : (s.fbit a f v).eget j g = s.eget j g := rfl
@[simp] theorem fbit_eon (s : State) (a : Nat) (f : Fld) (v : Bool) (j : Nat) (g : Fld) : (s.fbit a f v).eon j g = s.eon j g := rfl

/-! `inc` -/

@[simp] theorem inc_frc (s : State) (a : Nat) (f : Fld) (v : Nat) : (s.inc a f v).frc = s.frc := rfl
@[simp] theorem inc_mem (s : State) (a : Nat) (f : Fld) (v : Nat) : (s.inc a f v).mem = s.mem := rfl
@[simp] theorem inc_bs (s : State) (a : Nat) (f : Fld) (v : Nat) : (s.inc a f v).bs = s.bs := rfl
@[simp] theorem inc_bsFill (s : State) (a : Nat) (f : Fld) (v : Nat) : (s.inc a f v).bsFill = s.bsFill := rfl
@[simp] theorem inc_setBits (s : State) (a : Nat) (f : Fld) (v : Nat) : (s.inc a f v).setBits = s.setBits := rfl
@[simp] theorem inc_latA (s : State) (a : Nat) (f : Fld) (v : Nat) : (s.inc a f v).latA = s.latA := rfl
@[simp] theorem inc_latB (s : State) (a : Nat) (f : Fld) (v : Nat) : (s.inc a f v).latB = s.latB := rfl
@[simp] theorem inc_staged (s : State) (a : Nat) (f : Fld) (v : Nat) : (s.inc a f v).staged = s.staged := rfl
@[simp] theorem inc_led (s : State) (a : Nat) (f : Fld) (v : Nat) : (s.inc a f v).led = s.led := rfl
@[simp] theorem inc_chan (s : State) (a : Nat) (f : Fld) (v : Nat) : (s.inc a f v).chan = s.chan := rfl
@[simp] theorem inc_bank (s : State) (a : Nat) (f : Fld) (v : Nat) : (s.inc a f v).bank = s.bank := rfl
@[simp] theorem inc_pmc (s : State) (a : Nat) (f : Fld) (v : Nat) : (s.inc a f v).pmc = s.pmc := rfl
@[simp] theorem inc_src (s : State) (a : Nat) (f : Fld) (v : Nat) : (s.inc a f v).src = s.src := rfl
@[simp] theorem inc_ae (s : State) (a : Nat) (f : Fld) (v : Nat) : (s.inc a f v).ae = s.ae := rfl
@[simp] theorem inc_port (s : State) (a : Nat) (f : Fld) (v : Nat) : (s.inc a f v).port = s.port := rfl
@[simp] theorem inc_syn (s : State) (a : Nat) (f : Fld) (v : Nat) : (s.inc a f v).syn = s.syn := rfl
@[simp] theorem inc_isl (s : State) (a : Nat) (f : Fld) (v : Nat) : (s.inc a f v).isl = s.isl := rfl
@[simp] theorem inc_clk (s : State) (a : Nat) (f : Fld) (v : Nat) : (s.inc a f v).clk = s.clk := rfl
@[simp] theorem inc_sea (s : State) (a : Nat) (f : Fld) (v : Nat) : (s.inc a f v).sea = s.sea := rfl
@[simp] theorem inc_unit (s : State) (a : Nat) (f : Fld) (v : Nat) : (s.inc a f v).unit = s.unit := rfl
@[simp] theorem inc_cal (s : State) (a : Nat) (f : Fld) (v : Nat) : (s.inc a f v).cal = s.cal := rfl
@[simp] theorem inc_alm (s : State) (a : Nat) (f : Fld) (v : Nat) : (s.inc a f v).alm = s.alm := rfl
@[simp] theorem inc_ring (s : State) (a : Nat) (f : Fld) (v : Nat) : (s.inc a f v).ring = s.ring := rfl
@[simp] theorem inc_rt (s : State) (a : Nat) (f : Fld) (v : Nat) : (s.inc a f v).rt = s.rt := rfl
@[simp] theorem inc_rfReload (s : State) (a : Nat) (f : Fld) (v : Nat) : (s.inc a f v).rfReload = s.rfReload := rfl
@[simp] theorem inc_free (s : State) (a : Nat) (f : Fld) (v : Nat) : (s.inc a f v).free = s.free := rfl
@[simp] theorem inc_pending (s : State) (a : Nat) (f : Fld) (v : Nat) : (s.inc a f v).pending = s.pending := rfl
@[simp] theorem inc_eff (s : State) (a : Nat) (f : Fld) (v : Nat) (j : Nat) : (s.inc a f v).eff j = s.eff j := rfl
@[simp] theorem inc_memRd (s : State) (a : Nat) (f : Fld) (v : Nat) (j : Nat) : (s.inc a f v).memRd j = s.memRd j := rfl
@[simp] theorem inc_ch (s : State) (a : Nat) (f : Fld) (v : Nat) (j : Nat) : (s.inc a f v).ch j = s.ch j := rfl
@[simp] theorem inc_bk (s : State) (a : Nat) (f : Fld) (v : Nat) (j : Nat) : (s.inc a f v).bk j = s.bk j := rfl
@[simp] theorem inc_pm (s : State) (a : Nat) (f : Fld) (v : Nat) (j : Nat) : (s.inc a f v).pm j = s.pm j := rfl
@[simp] theorem inc_sr (s : State) (a : Nat) (f : Fld) (v : Nat) (j : Nat) : (s.inc a f v).sr j = s.sr j := rfl
@[simp] theorem inc_en (s : State) (a : Nat) (f : Fld) (v : Nat) (j : Nat) : (s.inc a f v).en j = s.en j := rfl
@[simp] theorem inc_pt (s : State) (a : Nat) (f : Fld) (v : Nat) (j : Nat) : (s.inc a f v).pt j = s.pt j := rfl
@[simp] theorem inc_sy (s : State) (a : Nat) (f : Fld) (v : Nat) (j : Nat) : (s.inc a f v).sy j = s.sy j := rfl
@[simp] theorem inc_bsRd (s : State) (a : Nat) (f : Fld) (v : Nat) (j : Nat) : (s.inc a f v).bsRd j = s.bsRd j := rfl
@[simp] theorem inc_now (s : State) (a : Nat) (f : Fld) (v : Nat) : (s.inc a f v).now = s.now := rfl
@[simp] theorem inc_eget (s : State) (a : Nat) (f : Fld) (v : Nat) (j : Nat) (g : Fld) : (s.inc a f v).eget j g = s.eget j g := rfl
@[simp] theorem inc_eon (s : State) (a : Nat) (f : Fld) (v : Nat) (j : Nat) (g : Fld) : (s.inc a f v).eon j g = s.eon j g := rfl

/-! `w1c` -/

@[simp] theorem w1c_frc (s : State) (a : Nat) (v : Word) : (s.w1c a v).frc = s.frc := rfl
@[simp] theorem w1c_mem (s : State) (a : Nat) (v : Word) : (s.w1c a v).mem = s.mem := rfl
@[simp] theorem w1c_bs (s : State) (a : Nat) (v : Word) : (s.w1c a v).bs = s.bs := rfl
@[simp] theorem w1c_bsFill (s : State) (a : Nat) (v : Word) : (s.w1c a v).bsFill = s.bsFill := rfl
@[simp] theorem w1c_setBits (s : State) (a : Nat) (v : Word) : (s.w1c a v).setBits = s.setBits := rfl
@[simp] theorem w1c_latA (s : State) (a : Nat) (v : Word) : (s.w1c a v).latA = s.latA := rfl
@[simp] theorem w1c_latB (s : State) (a : Nat) (v : Word) : (s.w1c a v).latB = s.latB := rfl
@[simp] theorem w1c_staged (s : State) (a : Nat) (v : Word) : (s.w1c a v).staged = s.staged := rfl
@[simp] theorem w1c_led (s : State) (a : Nat) (v : Word) : (s.w1c a v).led = s.led := rfl
@[simp] theorem w1c_chan (s : State) (a : Nat) (v : Word) : (s.w1c a v).chan = s.chan := rfl
@[simp] theorem w1c_bank (s : State) (a : Nat) (v : Word) : (s.w1c a v).bank = s.bank := rfl
@[simp] theorem w1c_pmc (s : State) (a : Nat) (v : Word) : (s.w1c a v).pmc = s.pmc := rfl
@[simp] theorem w1c_src (s : State) (a : Nat) (v : Word) : (s.w1c a v).src = s.src := rfl
@[simp] theorem w1c_ae (s : State) (a : Nat) (v : Word) : (s.w1c a v).ae = s.ae := rfl
@[simp] theorem w1c_port (s : State) (a : Nat) (v : Word) : (s.w1c a v).port = s.port := rfl
@[simp] theorem w1c_syn (s : State) (a : Nat) (v : Word) : (s.w1c a v).syn = s.syn := rfl
@[simp] theorem w1c_isl (s : State) (a : Nat) (v : Word) : (s.w1c a v).isl = s.isl := rfl
@[simp] theorem w1c_clk (s : State) (a : Nat) (v : Word) : (s.w1c a v).clk = s.clk := rfl
@[simp] theorem w1c_sea (s : State) (a : Nat) (v : Word) : (s.w1c a v).sea = s.sea := rfl
@[simp] theorem w1c_unit (s : State) (a : Nat) (v : Word) : (s.w1c a v).unit = s.unit := rfl
@[simp] theorem w1c_cal (s : State) (a : Nat) (v : Word) : (s.w1c a v).cal = s.cal := rfl
@[simp] theorem w1c_alm (s : State) (a : Nat) (v : Word) : (s.w1c a v).alm = s.alm := rfl
@[simp] theorem w1c_ring (s : State) (a : Nat) (v : Word) : (s.w1c a v).ring = s.ring := rfl
@[simp] theorem w1c_rt (s : State) (a : Nat) (v : Word) : (s.w1c a v).rt = s.rt := rfl
@[simp] theorem w1c_rfReload (s : State) (a : Nat) (v : Word) : (s.w1c a v).rfReload = s.rfReload := rfl
@[simp] theorem w1c_free (s : State) (a : Nat) (v : Word) : (s.w1c a v).free = s.free := rfl
@[simp] theorem w1c_pending (s : State) (a : Nat) (v : Word) : (s.w1c a v).pending = s.pending := rfl
@[simp] theorem w1c_eff (s : State) (a : Nat) (v : Word) (j : Nat) : (s.w1c a v).eff j = s.eff j := rfl
@[simp] theorem w1c_memRd (s : State) (a : Nat) (v : Word) (j : Nat) : (s.w1c a v).memRd j = s.memRd j := rfl
@[simp] theorem w1c_ch (s : State) (a : Nat) (v : Word) (j : Nat) : (s.w1c a v).ch j = s.ch j := rfl
@[simp] theorem w1c_bk (s : State) (a : Nat) (v : Word) (j : Nat) : (s.w1c a v).bk j = s.bk j := rfl
@[simp] theorem w1c_pm (s : State) (a : Nat) (v : Word) (j : Nat) : (s.w1c a v).pm j = s.pm j := rfl
@[simp] theorem w1c_sr (s : State) (a : Nat) (v : Word) (j : Nat) : (s.w1c a v).sr j = s.sr j := rfl
@[simp] theorem w1c_en (s : State) (a : Nat) (v : Word) (j : Nat) : (s.w1c a v).en j = s.en j := rfl
@[simp] theorem w1c_pt (s : State) (a : Nat) (v : Word) (j : Nat) : (s.w1c a v).pt j = s.pt j := rfl
@[simp] theorem w1c_sy (s : State) (a : Nat) (v : Word) (j : Nat) : (s.w1c a v).sy j = s.sy j := rfl
@[simp] theorem w1c_bsRd (s : State) (a : Nat) (v : Word) (j : Nat) : (s.w1c a v).bsRd j = s.bsRd j := rfl
@[simp] theorem w1c_now (s : State) (a : Nat) (v : Word) : (s.w1c a v).now = s.now := rfl
@[simp] theorem w1c_eget (s : State) (a : Nat) (v : Word) (j : Nat) (g : Fld) : (s.w1c a v).eget j g = s.eget j g := rfl
@[simp] theorem w1c_eon (s : State) (a : Nat) (v : Word) (j : Nat) (g : Fld) : (s.w1c a v).eon j g = s.eon j g := rfl

/-! `putBoth` -/

@[simp] theorem putBoth_mem (s : State) (a : Nat) (v : Word) : (s.putBoth a v).mem = s.mem := rfl
@[simp] theorem putBoth_bs (s : State) (a : Nat) (v : Word) : (s.putBoth a v).bs = s.bs := rfl
@[simp] theorem putBoth_bsFill (s : State) (a : Nat) (v : Word) : (s.putBoth a v).bsFill = s.bsFill := rfl
@[simp] theorem putBoth_setBits (s : State) (a : Nat) (v : Word) : (s.putBoth a v).setBits = s.setBits := rfl
@[simp] theorem putBoth_latA (s : State) (a : Nat) (v : Word) : (s.putBoth a v).latA = s.latA := rfl
@[simp] theorem putBoth_latB (s : State) (a : Nat) (v : Word) : (s.putBoth a v).latB = s.latB := rfl
@[simp] theorem putBoth_staged (s : State) (a : Nat) (v : Word) : (s.putBoth a v).staged = s.staged := rfl
@[simp] theorem putBoth_led (s : State) (a : Nat) (v : Word) : (s.putBoth a v).led = s.led := rfl
@[simp] theorem putBoth_chan (s : State) (a : Nat) (v : Word) : (s.putBoth a v).chan = s.chan := rfl
@[simp] theorem putBoth_bank (s : State) (a : Nat) (v : Word) : (s.putBoth a v).bank = s.bank := rfl
@[simp] theorem putBoth_pmc (s : State) (a : Nat) (v : Word) : (s.putBoth a v).pmc = s.pmc := rfl
@[simp] theorem putBoth_src (s : State) (a : Nat) (v : Word) : (s.putBoth a v).src = s.src := rfl
@[simp] theorem putBoth_ae (s : State) (a : Nat) (v : Word) : (s.putBoth a v).ae = s.ae := rfl
@[simp] theorem putBoth_port (s : State) (a : Nat) (v : Word) : (s.putBoth a v).port = s.port := rfl
@[simp] theorem putBoth_syn (s : State) (a : Nat) (v : Word) : (s.putBoth a v).syn = s.syn := rfl
@[simp] theorem putBoth_isl (s : State) (a : Nat) (v : Word) : (s.putBoth a v).isl = s.isl := rfl
@[simp] theorem putBoth_clk (s : State) (a : Nat) (v : Word) : (s.putBoth a v).clk = s.clk := rfl
@[simp] theorem putBoth_sea (s : State) (a : Nat) (v : Word) : (s.putBoth a v).sea = s.sea := rfl
@[simp] theorem putBoth_unit (s : State) (a : Nat) (v : Word) : (s.putBoth a v).unit = s.unit := rfl
@[simp] theorem putBoth_cal (s : State) (a : Nat) (v : Word) : (s.putBoth a v).cal = s.cal := rfl
@[simp] theorem putBoth_alm (s : State) (a : Nat) (v : Word) : (s.putBoth a v).alm = s.alm := rfl
@[simp] theorem putBoth_ring (s : State) (a : Nat) (v : Word) : (s.putBoth a v).ring = s.ring := rfl
@[simp] theorem putBoth_rt (s : State) (a : Nat) (v : Word) : (s.putBoth a v).rt = s.rt := rfl
@[simp] theorem putBoth_rfReload (s : State) (a : Nat) (v : Word) : (s.putBoth a v).rfReload = s.rfReload := rfl
@[simp] theorem putBoth_free (s : State) (a : Nat) (v : Word) : (s.putBoth a v).free = s.free := rfl
@[simp] theorem putBoth_pending (s : State) (a : Nat) (v : Word) : (s.putBoth a v).pending = s.pending := rfl
@[simp] theorem putBoth_memRd (s : State) (a : Nat) (v : Word) (j : Nat) : (s.putBoth a v).memRd j = s.memRd j := rfl
@[simp] theorem putBoth_ch (s : State) (a : Nat) (v : Word) (j : Nat) : (s.putBoth a v).ch j = s.ch j := rfl
@[simp] theorem putBoth_bk (s : State) (a : Nat) (v : Word) (j : Nat) : (s.putBoth a v).bk j = s.bk j := rfl
@[simp] theorem putBoth_pm (s : State) (a : Nat) (v : Word) (j : Nat) : (s.putBoth a v).pm j = s.pm j := rfl
@[simp] theorem putBoth_sr (s : State) (a : Nat) (v : Word) (j : Nat) : (s.putBoth a v).sr j = s.sr j := rfl
@[simp] theorem putBoth_en (s : State) (a : Nat) (v : Word) (j : Nat) : (s.putBoth a v).en j = s.en j := rfl
@[simp] theorem putBoth_pt (s : State) (a : Nat) (v : Word) (j : Nat) : (s.putBoth a v).pt j = s.pt j := rfl
@[simp] theorem putBoth_sy (s : State) (a : Nat) (v : Word) (j : Nat) : (s.putBoth a v).sy j = s.sy j := rfl
@[simp] theorem putBoth_bsRd (s : State) (a : Nat) (v : Word) (j : Nat) : (s.putBoth a v).bsRd j = s.bsRd j := rfl
@[simp] theorem putBoth_now (s : State) (a : Nat) (v : Word) : (s.putBoth a v).now = s.now := rfl

/-! `fsetBoth` -/

@[simp] theorem fsetBoth_mem (s : State) (a : Nat) (f : Fld) (v : Nat) : (s.fsetBoth a f v).mem = s.mem := rfl
@[simp] theorem fsetBoth_bs (s : State) (a : Nat) (f : Fld) (v : Nat) : (s.fsetBoth a f v).bs = s.bs := rfl
@[simp] theorem fsetBoth_bsFill (s : State) (a : Nat) (f : Fld) (v : Nat) : (s.fsetBoth a f v).bsFill = s.bsFill := rfl
@[simp] theorem fsetBoth_setBits (s : State) (a : Nat) (f : Fld) (v : Nat) : (s.fsetBoth a f v).setBits = s.setBits := rfl
@[simp] theorem fsetBoth_latA (s : State) (a : Nat) (f : Fld) (v : Nat) : (s.fsetBoth a f v).latA = s.latA := rfl
@[simp] theorem fsetBoth_latB (s : State) (a : Nat) (f : Fld) (v : Nat) : (s.fsetBoth a f v).latB = s.latB := rfl
@[simp] theorem fsetBoth_staged (s : State) (a : Nat) (f : Fld) (v : Nat) : (s.fsetBoth a f v).staged = s.staged := rfl
@[simp] theorem fsetBoth_led (s : State) (a : Nat) (f : Fld) (v : Nat) : (s.fsetBoth a f v).led = s.led := rfl
@[simp] theorem fsetBoth_chan (s : State) (a : Nat) (f : Fld) (v : Nat) : (s.fsetBoth a f v).chan = s.chan := rfl
@[simp] theorem fsetBoth_bank (s : State) (a : Nat) (f : Fld) (v : Nat) : (s.fsetBoth a f v).bank = s.bank := rfl
@[simp] theorem fsetBoth_pmc (s : State) (a : Nat) (f : Fld) (v : Nat) : (s.fsetBoth a f v).pmc = s.pmc := rfl
@[simp] theorem fsetBoth_src (s : State) (a : Nat) (f : Fld) (v : Nat) : (s.fsetBoth a f v).src = s.src := rfl
@[simp] theorem fsetBoth_ae (s : State) (a : Nat) (f : Fld) (v : Nat) : (s.fsetBoth a f v).ae = s.ae := rfl
@[simp] theorem fsetBoth_port (s : State) (a : Nat) (f : Fld) (v : Nat) : (s.fsetBoth a f v).port = s.port := rfl
@[simp] theorem fsetBoth_syn (s : State) (a : Nat) (f : Fld) (v : Nat) : (s.fsetBoth a f v).syn = s.syn := rfl
@[simp] theorem fsetBoth_isl (s : State) (a : Nat) (f : Fld) (v : Nat) : (s.fsetBoth a f v).isl = s.isl := rfl
@[simp] theorem fsetBoth_clk (s : State) (a : Nat) (f : Fld) (v : Nat) : (s.fsetBoth a f v).clk = s.clk := rfl
@[simp] theorem fsetBoth_sea (s : State) (a : Nat) (f : Fld) (v : Nat) : (s.fsetBoth a f v).sea = s.sea := rfl
@[simp] theorem fsetBoth_unit (s : State) (a : Nat) (f : Fld) (v : Nat) : (s.fsetBoth a f v).unit = s.unit := rfl
@[simp] theorem fsetBoth_cal (s : State) (a : Nat) (f : Fld) (v : Nat) : (s.fsetBoth a f v).cal = s.cal := rfl
@[simp] theorem fsetBoth_alm (s : State) (a : Nat) (f : Fld) (v : Nat) : (s.fsetBoth a f v).alm = s.alm := rfl
@[simp] theorem fsetBoth_ring (s : State) (a : Nat) (f : Fld) (v : Nat) : (s.fsetBoth a f v).ring = s.ring := rfl
@[simp] theorem fsetBoth_rt (s : State) (a : Nat) (f : Fld) (v : Nat) : (s.fsetBoth a f v).rt = s.rt := rfl
@[simp] theorem fsetBoth_rfReload (s : State) (a : Nat) (f : Fld) (v : Nat) : (s.fsetBoth a f v).rfReload = s.rfReload := rfl
@[simp] theorem fsetBoth_free (s : State) (a : Nat) (f : Fld) (v : Nat) : (s.fsetBoth a f v).free = s.free := rfl
@[simp] theorem fsetBoth_pending (s : State) (a : Nat) (f : Fld) (v : Nat) : (s.fsetBoth a f v).pending = s.pending := rfl
@[simp] theorem fsetBoth_memRd (s : State) (a : Nat) (f : Fld) (v : Nat) (j : Nat) : (s.fsetBoth a f v).memRd j = s.memRd j := rfl
@[simp] theorem fsetBoth_ch (s : State) (a : Nat) (f : Fld) (v : Nat) (j : Nat) : (s.fsetBoth a f v).ch j = s.ch j := rfl
@[simp] theorem fsetBoth_bk (s : State) (a : Nat) (f : Fld) (v : Nat) (j : Nat) : (s.fsetBoth a f v).bk j = s.bk j := rfl
@[simp] theorem fsetBoth_pm (s : State) (a : Nat) (f : Fld) (v : Nat) (j : Nat) : (s.fsetBoth a f v).pm j = s.pm j := rfl
@[simp] theorem fsetBoth_sr (s : State) (a : Nat) (f : Fld) (v : Nat) (j : Nat) : (s.fsetBoth a f v).sr j = s.sr j := rfl
@[simp] theorem fsetBoth_en (s : State) (a : Nat) (f : Fld) (v : Nat) (j : Nat) : (s.fsetBoth a f v).en j = s.en j := rfl
@[simp] theorem fsetBoth_pt (s : State) (a : Nat) (f : Fld) (v : Nat) (j : Nat) : (s.fsetBoth a f v).pt j = s.pt j := rfl
@[simp] theorem fsetBoth_sy (s : State) (a : Nat) (f : Fld) (v : Nat) (j : Nat) : (s.fsetBoth a f v).sy j = s.sy j := rfl
@[simp] theorem fsetBoth_bsRd (s : State) (a : Nat) (f : Fld) (v : Nat) (j : Nat) : (s.fsetBoth a f v).bsRd j = s.bsRd j := rfl
@[simp] theorem fsetBoth_now (s : State) (a : Nat) (f : Fld) (v : Nat) : (s.fsetBoth a f v).now = s.now := rfl

/-! `raise` -/

@[simp] theorem raise_frc (s : State) (a : Nat) (v : Word) : (s.raise a v).frc = s.frc := rfl
@[simp] theorem raise_mem (s : State) (a : Nat) (v : Word) : (s.raise a v).mem = s.mem := rfl
@[simp] theorem raise_bs (s : State) (a : Nat) (v : Word) : (s.raise a v).bs = s.bs := rfl
@[simp] theorem raise_bsFill (s : State) (a : Nat) (v : Word) : (s.raise a v).bsFill = s.bsFill := rfl
@[simp] theorem raise_latA (s : State) (a : Nat) (v : Word) : (s.raise a v).latA = s.latA := rfl
@[simp] theorem raise_latB (s : State) (a : Nat) (v : Word) : (s.raise a v).latB = s.latB := rfl
@[simp] theorem raise_staged (s : State) (a : Nat) (v : Word) : (s.raise a v).staged = s.staged := rfl
@[simp] theorem raise_led (s : State) (a : Nat) (v : Word) : (s.raise a v).led = s.led := rfl
@[simp] theorem raise_chan (s : State) (a : Nat) (v : Word) : (s.raise a v).chan = s.chan := rfl
@[simp] theorem raise_bank (s : State) (a : Nat) (v : Word) : (s.raise a v).bank = s.bank := rfl
@[simp] theorem raise_pmc (s : State) (a : Nat) (v : Word) : (s.raise a v).pmc = s.pmc := rfl
@[simp] theorem raise_src (s : State) (a : Nat) (v : Word) : (s.raise a v).src = s.src := rfl
@[simp] theorem raise_ae (s : State) (a : Nat) (v : Word) : (s.raise a v).ae = s.ae := rfl
@[simp] theorem raise_port (s : State) (a : Nat) (v : Word) : (s.raise a v).port = s.port := rfl
@[simp] theorem raise_syn (s : State) (a : Nat) (v : Word) : (s.raise a v).syn = s.syn := rfl
@[simp] theorem raise_isl (s : State) (a : Nat) (v : Word) : (s.raise a v).isl = s.isl := rfl
@[simp] theorem raise_clk (s : State) (a : Nat) (v : Word) : (s.raise a v).clk = s.clk := rfl
@[simp] theorem raise_sea (s : State) (a : Nat) (v : Word) : (s.raise a v).sea = s.sea := rfl
@[simp] theorem raise_unit (s : State) (a : Nat) (v : Word) : (s.raise a v).unit = s.unit := rfl
@[simp] theorem raise_cal (s : State) (a : Nat) (v : Word) : (s.raise a v).cal = s.cal := rfl
@[simp] theorem raise_alm (s : State) (a : Nat) (v : Word) : (s.raise a v).alm = s.alm := rfl
@[simp] theorem raise_ring (s : State) (a : Nat) (v : Word) : (s.raise a v).ring = s.ring := rfl
@[simp] theorem raise_rt (s : State) (a : Nat) (v : Word) : (s.raise a v).rt = s.rt := rfl
@[simp] theorem raise_rfReload (s : State) (a : Nat) (v : Word) : (s.raise a v).rfReload = s.rfReload := rfl
@[simp] theorem raise_free (s : State) (a : Nat) (v : Word) : (s.raise a v).free = s.free := rfl
@[simp] theorem raise_pending (s : State) (a : Nat) (v : Word) : (s.raise a v).pending = s.pending := rfl
@[simp] theorem raise_eff (s : State) (a : Nat) (v : Word) (j : Nat) : (s.raise a v).eff j = s.eff j := rfl
@[simp] theorem raise_memRd (s : State) (a : Nat) (v : Word) (j : Nat) : (s.raise a v).memRd j = s.memRd j := rfl
@[simp] theorem raise_ch (s : State) (a : Nat) (v : Word) (j : Nat) : (s.raise a v).ch j = s.ch j := rfl
@[simp] theorem raise_bk (s : State) (a : Nat) (v : Word) (j : Nat) : (s.raise a v).bk j = s.bk j := rfl
@[simp] theorem raise_pm (s : State) (a : Nat) (v : Word) (j : Nat) : (s.raise a v).pm j = s.pm j := rfl
@[simp] theorem raise_sr (s : State) (a : Nat) (v : Word) (j : Nat) : (s.raise a v).sr j = s.sr j := rfl
@[simp] theorem raise_en (s : State) (a : Nat) (v : Word) (j : Nat) : (s.raise a v).en j = s.en j := rfl
@[simp] theorem raise_pt (s : State) (a : Nat) (v : Word) (j : Nat) : (s.raise a v).pt j = s.pt j := rfl
@[simp] theorem raise_sy (s : State) (a : Nat) (v : Word) (j : Nat) : (s.raise a v).sy j = s.sy j := rfl
@[simp] theorem raise_bsRd (s : State) (a : Nat) (v : Word) (j : Nat) : (s.raise a v).bsRd j = s.bsRd j := rfl
@[simp] theorem raise_now (s : State) (a : Nat) (v : Word) : (s.raise a v).now = s.now := rfl
@[simp] theorem raise_eget (s : State) (a : Nat) (v : Word) (j : Nat) (g : Fld) : (s.raise a v).eget j g = s.eget j g := rfl
@[simp] theorem raise_eon (s : State) (a : Nat) (v : Word) (j : Nat) (g : Fld) : (s.raise a v).eon j g = s.eon j g := rfl

/-! `raiseF` -/

@[simp] theorem raiseF_frc (s : State) (a : Nat) (f : Fld) : (s.raiseF a f).frc = s.frc := rfl
@[simp] theorem raiseF_mem (s : State) (a : Nat) (f : Fld) : (s.raiseF a f).mem = s.mem := rfl
@[simp] theorem raiseF_bs (s : State) (a : Nat) (f : Fld) : (s.raiseF a f).bs = s.bs := rfl
@[simp] theorem raiseF_bsFill (s : State) (a : Nat) (f : Fld) : (s.raiseF a f).bsFill = s.bsFill := rfl
@[simp] theorem raiseF_latA (s : State) (a : Nat) (f : Fld) : (s.raiseF a f).latA = s.latA := rfl
@[simp] theorem raiseF_latB (s : State) (a : Nat) (f : Fld) : (s.raiseF a f).latB = s.latB := rfl
@[simp] theorem raiseF_staged (s : State) (a : Nat) (f : Fld) : (s.raiseF a f).staged = s.staged := rfl
@[simp] theorem raiseF_led (s : State) (a : Nat) (f : Fld) : (s.raiseF a f).led = s.led := rfl
@[simp] theorem raiseF_chan (s : State) (a : Nat) (f : Fld) : (s.raiseF a f).chan = s.chan := rfl
@[simp] theorem raiseF_bank (s : State) (a : Nat) (f : Fld) : (s.raiseF a f).bank = s.bank := rfl
@[simp] theorem raiseF_pmc (s : State) (a : Nat) (f : Fld) : (s.raiseF a f).pmc = s.pmc := rfl
@[simp] theorem raiseF_src (s : State) (a : Nat) (f : Fld) : (s.raiseF a f).src = s.src := rfl
@[simp] theorem raiseF_ae (s : State) (a : Nat) (f : Fld) : (s.raiseF a f).ae = s.ae := rfl
@[simp] theorem raiseF_port (s : State) (a : Nat) (f : Fld) : (s.raiseF a f).port = s.port := rfl
@[simp] theorem raiseF_syn (s : State) (a : Nat) (f : Fld) : (s.raiseF a f).syn = s.syn := rfl
@[simp] theorem raiseF_isl (s : State) (a : Nat) (f : Fld) : (s.raiseF a f).isl = s.isl := rfl
@[simp] theorem raiseF_clk (s : State) (a : Nat) (f : Fld) : (s.raiseF a f).clk = s.clk := rfl
@[simp] theorem raiseF_sea (s : State) (a : Nat) (f : Fld) : (s.raiseF a f).sea = s.sea := rfl
@[simp] theorem raiseF_unit (s : State) (a : Nat) (f : Fld) : (s.raiseF a f).unit = s.unit := rfl
@[simp] theorem raiseF_cal (s : State) (a : Nat) (f : Fld) : (s.raiseF a f).cal = s.cal := rfl
@[simp] theorem raiseF_alm (s : State) (a : Nat) (f : Fld) : (s.raiseF a f).alm = s.alm := rfl
@[simp] theorem raiseF_ring (s : State) (a : Nat) (f : Fld) : (s.raiseF a f).ring = s.ring := rfl
@[simp] theorem raiseF_rt (s : State) (a : Nat) (f : Fld) : (s.raiseF a f).rt = s.rt := rfl
@[simp] theorem raiseF_rfReload (s : State) (a : Nat) (f : Fld) : (s.raiseF a f).rfReload = s.rfReload := rfl
@[simp] theorem raiseF_free (s : State) (a : Nat) (f : Fld) : (s.raiseF a f).free = s.free := rfl
@[simp] theorem raiseF_pending (s : State) (a : Nat) (f : Fld) : (s.raiseF a f).pending = s.pending := rfl
@[simp] theorem raiseF_eff (s : State) (a : Nat) (f : Fld) (j : Nat) : (s.raiseF a f).eff j = s.eff j := rfl
@[simp] theorem raiseF_memRd (s : State) (a : Nat) (f : Fld) (j : Nat) : (s.raiseF a f).memRd j = s.memRd j := rfl
@[simp] theorem raiseF_ch (s : State) (a : Nat) (f : Fld) (j : Nat) : (s.raiseF a f).ch j = s.ch j := rfl
@[simp] theorem raiseF_bk (s : State) (a : Nat) (f : Fld) (j : Nat) : (s.raiseF a f).bk j = s.bk j := rfl
@[simp] theorem raiseF_pm (s : State) (a : Nat) (f : Fld) (j : Nat) : (s.raiseF a f).pm j = s.pm j := rfl
@[simp] theorem raiseF_sr (s : State) (a : Nat) (f : Fld) (j : Nat) : (s.raiseF a f).sr j = s.sr j := rfl
@[simp] theorem raiseF_en (s : State) (a : Nat) (f : Fld) (j : Nat) : (s.raiseF a f).en j = s.en j := rfl
@[simp] theorem raiseF_pt (s : State) (a : Nat) (f : Fld) (j : Nat) : (s.raiseF a f).pt j = s.pt j := rfl
@[simp] theorem raiseF_sy (s : State) (a : Nat) (f : Fld) (j : Nat) : (s.raiseF a f).sy j = s.sy j := rfl
@[simp] theorem raiseF_bsRd (s : State) (a : Nat) (f : Fld) (j : Nat) : (s.raiseF a f).bsRd j = s.bsRd j := rfl
@[simp] theorem raiseF_now (s : State) (a : Nat) (f : Fld) : (s.raiseF a f).now = s.now := rfl
@[simp] theorem raiseF_eget (s : State) (a : Nat) (f : Fld) (j : Nat) (g : Fld) : (s.raiseF a f).eget j g = s.eget j g := rfl
@[simp] theorem raiseF_eon (s : State) (a : Nat) (f : Fld) (j : Nat) (g : Fld) : (s.raiseF a f).eon j g = s.eon j g := rfl

/-! `noSetBits` -/

@[simp] theorem noSetBits_reg (s : State) : (s.noSetBits).reg = s.reg := rfl
@[simp] theorem noSetBits_frc (s : State) : (s.noSetBits).frc = s.frc := rfl
@[simp] theorem noSetBits_mem (s : State) : (s.noSetBits).mem = s.mem := rfl
@[simp] theorem noSetBits_bs (s : State) : (s.noSetBits).bs = s.bs := rfl
@[simp] theorem noSetBits_bsFill (s : State) : (s.noSetBits).bsFill = s.bsFill := rfl
@[simp] theorem noSetBits_latA (s : State) : (s.noSetBits).latA = s.latA := rfl
@[simp] theorem noSetBits_latB (s : State) : (s.noSetBits).latB = s.latB := rfl
@[simp] theorem noSetBits_staged (s : State) : (s.noSetBits).staged = s.staged := rfl
@[simp] theorem noSetBits_led (s : State) : (s.noSetBits).led = s.led := rfl
@[simp] theorem noSetBits_chan (s : State) : (s.noSetBits).chan = s.chan := rfl
@[simp] theorem noSetBits_bank (s : State) : (s.noSetBits).bank = s.bank := rfl
@[simp] theorem noSetBits_pmc (s : State) : (s.noSetBits).pmc = s.pmc := rfl
@[simp] theorem noSetBits_src (s : State) : (s.noSetBits).src = s.src := rfl
@[simp] theorem noSetBits_ae (s : State) : (s.noSetBits).ae = s.ae := rfl
@[simp] theorem noSetBits_port (s : State) : (s.noSetBits).port = s.port := rfl
@[simp] theorem noSetBits_syn (s : State) : (s.noSetBits).syn = s.syn := rfl
@[simp] theorem noSetBits_isl (s : State) : (s.noSetBits).isl = s.isl := rfl
@[simp] theorem noSetBits_clk (s : State) : (s.noSetBits).clk = s.clk := rfl
@[simp] theorem noSetBits_sea (s : State) : (s.noSetBits).sea = s.sea := rfl
@[simp] theorem noSetBits_unit (s : State) : (s.noSetBits).unit = s.unit := rfl
@[simp] theorem noSetBits_cal (s : State) : (s.noSetBits).cal = s.cal := rfl
@[simp] theorem noSetBits_alm (s : State) : (s.noSetBits).alm = s.alm := rfl
@[simp] theorem noSetBits_ring (s : State) : (s.noSetBits).ring = s.ring := rfl
@[simp] theorem noSetBits_rt (s : State) : (s.noSetBits).rt = s.rt := rfl
@[simp] theorem noSetBits_rfReload (s : State) : (s.noSetBits).rfReload = s.rfReload := rfl
@[simp] theorem noSetBits_free (s : State) : (s.noSetBits).free = s.free := rfl
@[simp] theorem noSetBits_pending (s : State) : (s.noSetBits).pending = s.pending := rfl
@[simp] theorem noSetBits_rd (s : State) (j : Nat) : (s.noSetBits).rd j = s.rd j := rfl
@[simp] theorem noSetBits_eff (s : State) (j : Nat) : (s.noSetBits).eff j = s.eff j := rfl
@[simp] theorem noSetBits_memRd (s : State) (j : Nat) : (s.noSetBits).memRd j = s.memRd j := rfl
@[simp] theorem noSetBits_ch (s : State) (j : Nat) : (s.noSetBits).ch j = s.ch j := rfl
@[simp] theorem noSetBits_bk (s : State) (j : Nat) : (s.noSetBits).bk j = s.bk j := rfl
@[simp] theorem noSetBits_pm (s : State) (j : Nat) : (s.noSetBits).pm j = s.pm j := rfl
@[simp] theorem noSetBits_sr (s : State) (j : Nat) : (s.noSetBits).sr j = s.sr j := rfl
@[simp] theorem noSetBits_en (s : State) (j : Nat) : (s.noSetBits).en j = s.en j := rfl
@[simp] theorem noSetBits_pt (s : State) (j : Nat) : (s.noSetBits).pt j = s.pt j := rfl
@[simp] theorem noSetBits_sy (s : State) (j : Nat) : (s.noSetBits).sy j = s.sy j := rfl
@[simp] theorem noSetBits_bsRd (s : State) (j : Nat) : (s.noSetBits).bsRd j = s.bsRd j := rfl
@[simp] theorem noSetBits_now (s : State) : (s.noSetBits).now = s.now := rfl
@[simp] theorem noSetBits_fget (s : State) (j : Nat) (g : Fld) : (s.noSetBits).fget j g = s.fget j g := rfl
@[simp] theorem noSetBits_fon (s : State) (j : Nat) (g : Fld) : (s.noSetBits).fon j g = s.fon j g := rfl
@[simp] theorem noSetBits_eget (s : State) (j : Nat) (g : Fld) : (s.noSetBits).eget j g = s.eget j g := rfl
@[simp] theorem noSetBits_eon (s : State) (j : Nat) (g : Fld) : (s.noSetBits).eon j g = s.eon j g := rfl

/-! `memWr` -/

@[simp] theorem memWr_reg (s : State) (a : Nat) (v : Word) : (s.memWr a v).reg = s.reg := rfl
@[simp] theorem memWr_frc (s : State) (a : Nat) (v : Word) : (s.memWr a v).frc = s.frc := rfl
@[simp] theorem memWr_bs (s : State) (a : Nat) (v : Word) : (s.memWr a v).bs = s.bs := rfl
@[simp] theorem memWr_bsFill (s : State) (a : Nat) (v : Word) : (s.memWr a v).bsFill = s.bsFill := rfl
@[simp] theorem memWr_setBits (s : State) (a : Nat) (v : Word) : (s.memWr a v).setBits = s.setBits := rfl
@[simp] theorem memWr_latA (s : State) (a : Nat) (v : Word) : (s.memWr a v).latA = s.latA := rfl
@[simp] theorem memWr_latB (s : State) (a : Nat) (v : Word) : (s.memWr a v).latB = s.latB := rfl
@[simp] theorem memWr_staged (s : State) (a : Nat) (v : Word) : (s.memWr a v).staged = s.staged := rfl
@[simp] theorem memWr_led (s : State) (a : Nat) (v : Word) : (s.memWr a v).led = s.led := rfl
@[simp] theorem memWr_chan (s : State) (a : Nat) (v : Word) : (s.memWr a v).chan = s.chan := rfl
@[simp] theorem memWr_bank (s : State) (a : Nat) (v : Word) : (s.memWr a v).bank = s.bank := rfl
@[simp] theorem memWr_pmc (s : State) (a : Nat) (v : Word) : (s.memWr a v).pmc = s.pmc := rfl
@[simp] theorem memWr_src (s : State) (a : Nat) (v : Word) : (s.memWr a v).src = s.src := rfl
@[simp] theorem memWr_ae (s : State) (a : Nat) (v : Word) : (s.memWr a v).ae = s.ae := rfl
@[simp] theorem memWr_port (s : State) (a : Nat) (v : Word) : (s.memWr a v).port = s.port := rfl
@[simp] theorem memWr_syn (s : State) (a : Nat) (v : Word) : (s.memWr a v).syn = s.syn := rfl
@[simp] theorem memWr_isl (s : State) (a : Nat) (v : Word) : (s.memWr a v).isl = s.isl := rfl
@[simp] theorem memWr_clk (s : State) (a : Nat) (v : Word) : (s.memWr a v).clk = s.clk := rfl
@[simp] theorem memWr_sea (s : State) (a : Nat) (v : Word) : (s.memWr a v).sea = s.sea := rfl
@[simp] theorem memWr_unit (s : State) (a : Nat) (v : Word) : (s.memWr a v).unit = s.unit := rfl
@[simp] theorem memWr_cal (s : State) (a : Nat) (v : Word) : (s.memWr a v).cal = s.cal := rfl
@[simp] theorem memWr_alm (s : State) (a : Nat) (v : Word) : (s.memWr a v).alm = s.alm := rfl
@[simp] theorem memWr_ring (s : State) (a : Nat) (v : Word) : (s.memWr a v).ring = s.ring := rfl
@[simp] theorem memWr_rt (s : State) (a : Nat) (v : Word) : (s.memWr a v).rt = s.rt := rfl
@[simp] theorem memWr_rfReload (s : State) (a : Nat) (v : Word) : (s.memWr a v).rfReload = s.rfReload := rfl
@[simp] theorem memWr_free (s : State) (a : Nat) (v : Word) : (s.memWr a v).free = s.free := rfl
@[simp] theorem memWr_pending (s : State) (a : Nat) (v : Word) : (s.memWr a v).pending = s.pending := rfl
@[simp] theorem memWr_rd (s : State) (a : Nat) (v : Word) (j : Nat) : (s.memWr a v).rd j = s.rd j := rfl
@[simp] theorem memWr_eff (s : State) (a : Nat) (v : Word) (j : Nat) : (s.memWr a v).eff j = s.eff j := rfl
@[simp] theorem memWr_ch (s : State) (a : Nat) (v : Word) (j : Nat) : (s.memWr a v).ch j = s.ch j := rfl
@[simp] theorem memWr_bk (s : State) (a : Nat) (v : Word) (j : Nat) : (s.memWr a v).bk j = s.bk j := rfl
@[simp] theorem memWr_pm (s : State) (a : Nat) (v : Word) (j : Nat) : (s.memWr a v).pm j = s.pm j := rfl
@[simp] theorem memWr_sr (s : State) (a : Nat) (v : Word) (j : Nat) : (s.memWr a v).sr j = s.sr j := rfl
@[simp] theorem memWr_en (s : State) (a : Nat) (v : Word) (j : Nat) : (s.memWr a v).en j = s.en j := rfl
@[simp] theorem memWr_pt (s : State) (a : Nat) (v : Word) (j : Nat) : (s.memWr a v).pt j = s.pt j := rfl
@[simp] theorem memWr_sy (s : State) (a : Nat) (v : Word) (j : Nat) : (s.memWr a v).sy j = s.sy j := rfl
@[simp] theorem memWr_bsRd (s : State) (a : Nat) (v : Word) (j : Nat) : (s.memWr a v).bsRd j = s.bsRd j := rfl
@[simp] theorem memWr_now (s : State) (a : Nat) (v : Word) : (s.memWr a v).now = s.now := rfl
@[simp] theorem memWr_fget (s : State) (a : Nat) (v : Word) (j : Nat) (g : Fld) : (s.memWr a v).fget j g = s.fget j g := rfl
@[simp] theorem memWr_fon (s : State) (a : Nat) (v : Word) (j : Nat) (g : Fld) : (s.memWr a v).fon j g = s.fon j g := rfl
@[simp] theorem memWr_eget (s : State) (a : Nat) (v : Word) (j : Nat) (g : Fld) : (s.memWr a v).eget j g = s.eget j g := rfl
@[simp] theorem memWr_eon (s : State) (a : Nat) (v : Word) (j : Nat) (g : Fld) : (s.memWr a v).eon j g = s.eon j g := rfl

/-! `memDrop` -/

@[simp] theorem memDrop_reg (s : State) (p : Nat → Bool) : (s.memDrop p).reg = s.reg := rfl
@[simp] theorem memDrop_frc (s : State) (p : Nat → Bool) : (s.memDrop p).frc = s.frc := rfl
@[simp] theorem memDrop_bs (s : State) (p : Nat → Bool) : (s.memDrop p).bs = s.bs := rfl
@[simp] theorem memDrop_bsFill (s : State) (p : Nat → Bool) : (s.memDrop p).bsFill = s.bsFill := rfl
@[simp] theorem memDrop_setBits (s : State) (p : Nat → Bool) : (s.memDrop p).setBits = s.setBits := rfl
@[simp] theorem memDrop_latA (s : State) (p : Nat → Bool) : (s.memDrop p).latA = s.latA := rfl
@[simp] theorem memDrop_latB (s : State) (p : Nat → Bool) : (s.memDrop p).latB = s.latB := rfl
@[simp] theorem memDrop_staged (s : State) (p : Nat → Bool) : (s.memDrop p).staged = s.staged := rfl
@[simp] theorem memDrop_led (s : State) (p : Nat → Bool) : (s.memDrop p).led = s.led := rfl
@[simp] theorem memDrop_chan (s : State) (p : Nat → Bool) : (s.memDrop p).chan = s.chan := rfl
@[simp] theorem memDrop_bank (s : State) (p : Nat → Bool) : (s.memDrop p).bank = s.bank := rfl
@[simp] theorem memDrop_pmc (s : State) (p : Nat → Bool) : (s.memDrop p).pmc = s.pmc := rfl
@[simp] theorem memDrop_src (s : State) (p : Nat → Bool) : (s.memDrop p).src = s.src := rfl
@[simp] theorem memDrop_ae (s : State) (p : Nat → Bool) : (s.memDrop p).ae = s.ae := rfl
@[simp] theorem memDrop_port (s : State) (p : Nat → Bool) : (s.memDrop p).port = s.port := rfl
@[simp] theorem memDrop_syn (s : State) (p : Nat → Bool) : (s.memDrop p).syn = s.syn := rfl
@[simp] theorem memDrop_isl (s : State) (p : Nat → Bool) : (s.memDrop p).isl = s.isl := rfl
@[simp] theorem memDrop_clk (s : State) (p : Nat → Bool) : (s.memDrop p).clk = s.clk := rfl
@[simp] theorem memDrop_sea (s : State) (p : Nat → Bool) : (s.memDrop p).sea = s.sea := rfl
@[simp] theorem memDrop_unit (s : State) (p : Nat → Bool) : (s.memDrop p).unit = s.unit := rfl
@[simp] theorem memDrop_cal (s : State) (p : Nat → Bool) : (s.memDrop p).cal = s.cal := rfl
@[simp] theorem memDrop_alm (s : State) (p : Nat → Bool) : (s.memDrop p).alm = s.alm := rfl
@[simp] theorem memDrop_ring (s : State) (p : Nat → Bool) : (s.memDrop p).ring = s.ring := rfl
@[simp] theorem memDrop_rt (s : State) (p : Nat → Bool) : (s.memDrop p).rt = s.rt := rfl
@[simp] theorem memDrop_rfReload (s : State) (p : Nat → Bool) : (s.memDrop p).rfReload = s.rfReload := rfl
@[simp] theorem memDrop_free (s : State) (p : Nat → Bool) : (s.memDrop p).free = s.free := rfl
@[simp] theorem memDrop_pending (s : State) (p : Nat → Bool) : (s.memDrop p).pending = s.pending := rfl
@[simp] theorem memDrop_rd (s : State) (p : Nat → Bool) (j : Nat) : (s.memDrop p).rd j = s.rd j := rfl
@[simp] theorem memDrop_eff (s : State) (p : Nat → Bool) (j : Nat) : (s.memDrop p).eff j = s.eff j := rfl
@[simp] theorem memDrop_ch (s : State) (p : Nat → Bool) (j : Nat) : (s.memDrop p).ch j = s.ch j := rfl
@[simp] theorem memDrop_bk (s : State) (p : Nat → Bool) (j : Nat) : (s.memDrop p).bk j = s.bk j := rfl
@[simp] theorem memDrop_pm (s : State) (p : Nat → Bool) (j : Nat) : (s.memDrop p).pm j = s.pm j := rfl
@[simp] theorem memDrop_sr (s : State) (p : Nat → Bool) (j : Nat) : (s.memDrop p).sr j = s.sr j := rfl
@[simp] theorem memDrop_en (s : State) (p : Nat → Bool) (j : Nat) : (s.memDrop p).en j = s.en j := rfl
@[simp] theorem memDrop_pt (s : State) (p : Nat → Bool) (j : Nat) : (s.memDrop p).pt j = s.pt j := rfl
@[simp] theorem memDrop_sy (s : State) (p : Nat → Bool) (j : Nat) : (s.memDrop p).sy j = s.sy j := rfl
@[simp] theorem memDrop_bsRd (s : State) (p : Nat → Bool) (j : Nat) : (s.memDrop p).bsRd j = s.bsRd j := rfl
@[simp] theorem memDrop_now (s : State) (p : Nat → Bool) : (s.memDrop p).now = s.now := rfl
@[simp] theorem memDrop_fget (s : State) (p : Nat → Bool) (j : Nat) (g : Fld) : (s.memDrop p).fget j g = s.fget j g := rfl
@[simp] theorem memDrop_fon (s : State) (p : Nat → Bool) (j : Nat) (g : Fld) : (s.memDrop p).fon j g = s.fon j g := rfl
@[simp] theorem memDrop_eget (s : State) (p : Nat → Bool) (j : Nat) (g : Fld) : (s.memDrop p).eget j g = s.eget j g := rfl
@[simp] theorem memDrop_eon (s : State) (p : Nat → Bool) (j : Nat) (g : Fld) : (s.memDrop p).eon j g = s.eon j g := rfl

/-! `bsPut` -/

@[simp] theorem bsPut_reg (s : State) (a : Nat) (v : Word) : (s.bsPut a v).reg = s.reg := rfl
@[simp] theorem bsPut_frc (s : State) (a : Nat) (v : Word) : (s.bsPut a v).frc = s.frc := rfl
@[simp] theorem bsPut_mem (s : State) (a : Nat) (v : Word) : (s.bsPut a v).mem = s.mem := rfl
@[simp] theorem bsPut_bsFill (s : State) (a : Nat) (v : Word) : (s.bsPut a v).bsFill = s.bsFill := rfl
@[simp] theorem bsPut_setBits (s : State) (a : Nat) (v : Word) : (s.bsPut a v).setBits = s.setBits := rfl
@[simp] theorem bsPut_latA (s : State) (a : Nat) (v : Word) : (s.bsPut a v).latA = s.latA := rfl
@[simp] theorem bsPut_latB (s : State) (a : Nat) (v : Word) : (s.bsPut a v).latB = s.latB := rfl
@[simp] theorem bsPut_staged (s : State) (a : Nat) (v : Word) : (s.bsPut a v).staged = s.staged := rfl
@[simp] theorem bsPut_led (s : State) (a : Nat) (v : Word) : (s.bsPut a v).led = s.led := rfl
@[simp] theorem bsPut_chan (s : State) (a : Nat) (v : Word) : (s.bsPut a v).chan = s.chan := rfl
@[simp] theorem bsPut_bank (s : State) (a : Nat) (v : Word) : (s.bsPut a v).bank = s.bank := rfl
@[simp] theorem bsPut_pmc (s : State) (a : Nat) (v : Word) : (s.bsPut a v).pmc = s.pmc := rfl
@[simp] theorem bsPut_src (s : State) (a : Nat) (v : Word) : (s.bsPut a v).src = s.src := rfl
@[simp] theorem bsPut_ae (s : State) (a : Nat) (v : Word) : (s.bsPut a v).ae = s.ae := rfl
@[simp] theorem bsPut_port (s : State) (a : Nat) (v : Word) : (s.bsPut a v).port = s.port := rfl
@[simp] theorem bsPut_syn (s : State) (a : Nat) (v : Word) : (s.bsPut a v).syn = s.syn := rfl
@[simp] theorem bsPut_isl (s : State) (a : Nat) (v : Word) : (s.bsPut a v).isl = s.isl := rfl
@[simp] theorem bsPut_clk (s : State) (a : Nat) (v : Word) : (s.bsPut a v).clk = s.clk := rfl
@[simp] theorem bsPut_sea (s : State) (a : Nat) (v : Word) : (s.bsPut a v).sea = s.sea := rfl
@[simp] theorem bsPut_unit (s : State) (a : Nat) (v : Word) : (s.bsPut a v).unit = s.unit := rfl
@[simp] theorem bsPut_cal (s : State) (a : Nat) (v : Word) : (s.bsPut a v).cal = s.cal := rfl
@[simp] theorem bsPut_alm (s : State) (a : Nat) (v : Word) : (s.bsPut a v).alm = s.alm := rfl
@[simp] theorem bsPut_ring (s : State) (a : Nat) (v : Word) : (s.bsPut a v).ring = s.ring := rfl
@[simp] theorem bsPut_rt (s : State) (a : Nat) (v : Word) : (s.bsPut a v).rt = s.rt := rfl
@[simp] theorem bsPut_rfReload (s : State) (a : Nat) (v : Word) : (s.bsPut a v).rfReload = s.rfReload := rfl
@[simp] theorem bsPut_free (s : State) (a : Nat) (v : Word) : (s.bsPut a v).free = s.free := rfl
@[simp] theorem bsPut_pending (s : State) (a : Nat) (v : Word) : (s.bsPut a v).pending = s.pending := rfl
@[simp] theorem bsPut_rd (s : State) (a : Nat) (v : Word) (j : Nat) : (s.bsPut a v).rd j = s.rd j := rfl
@[simp] theorem bsPut_eff (s : State) (a : Nat) (v : Word) (j : Nat) : (s.bsPut a v).eff j = s.eff j := rfl
@[simp] theorem bsPut_memRd (s : State) (a : Nat) (v : Word) (j : Nat) : (s.bsPut a v).memRd j = s.memRd j := rfl
@[simp] theorem bsPut_ch (s : State) (a : Nat) (v : Word) (j : Nat) : (s.bsPut a v).ch j = s.ch j := rfl
@[simp] theorem bsPut_bk (s : State) (a : Nat) (v : Word) (j : Nat) : (s.bsPut a v).bk j = s.bk j := rfl
@[simp] theorem bsPut_pm (s : State) (a : Nat) (v : Word) (j : Nat) : (s.bsPut a v).pm j = s.pm j := rfl
@[simp] theorem bsPut_sr (s : State) (a : Nat) (v : Word) (j : Nat) : (s.bsPut a v).sr j = s.sr j := rfl
@[simp] theorem bsPut_en (s : State) (a : Nat) (v : Word) (j : Nat) : (s.bsPut a v).en j = s.en j := rfl
@[simp] theorem bsPut_pt (s : State) (a : Nat) (v : Word) (j : Nat) : (s.bsPut a v).pt j = s.pt j := rfl
@[simp] theorem bsPut_sy (s : State) (a : Nat) (v : Word) (j : Nat) : (s.bsPut a v).sy j = s.sy j := rfl
@[simp] theorem bsPut_now (s : State) (a : Nat) (v : Word) : (s.bsPut a v).now = s.now := rfl
@[simp] theorem bsPut_fget (s : State) (a : Nat) (v : Word) (j : Nat) (g : Fld) : (s.bsPut a v).fget j g = s.fget j g := rfl
@[simp] theorem bsPut_fon (s : State) (a : Nat) (v : Word) (j : Nat) (g : Fld) : (s.bsPut a v).fon j g = s.fon j g := rfl
@[simp] theorem bsPut_eget (s : State) (a : Nat) (v : Word) (j : Nat) (g : Fld) : (s.bsPut a v).eget j g = s.eget j g := rfl
@[simp] theorem bsPut_eon (s : State) (a : Nat) (v : Word) (j : Nat) (g : Fld) : (s.bsPut a v).eon j g = s.eon j g := rfl

/-! `bsRefill` -/

@[simp] theorem bsRefill_reg (s : State) (f : StoreFill) : (s.bsRefill f).reg = s.reg := rfl
@[simp] theorem bsRefill_frc (s : State) (f : StoreFill) : (s.bsRefill f).frc = s.frc := rfl
@[simp] theorem bsRefill_mem (s : State) (f : StoreFill) : (s.bsRefill f).mem = s.mem := rfl
@[simp] theorem bsRefill_setBits (s : State) (f : StoreFill) : (s.bsRefill f).setBits = s.setBits := rfl
@[simp] theorem bsRefill_latA (s : State) (f : StoreFill) : (s.bsRefill f).latA = s.latA := rfl
@[simp] theorem bsRefill_latB (s : State) (f : StoreFill) : (s.bsRefill f).latB = s.latB := rfl
@[simp] theorem bsRefill_staged (s : State) (f : StoreFill) : (s.bsRefill f).staged = s.staged := rfl
@[simp] theorem bsRefill_led (s : State) (f : StoreFill) : (s.bsRefill f).led = s.led := rfl
@[simp] theorem bsRefill_chan (s : State) (f : StoreFill) : (s.bsRefill f).chan = s.chan := rfl
@[simp] theorem bsRefill_bank (s : State) (f : StoreFill) : (s.bsRefill f).bank = s.bank := rfl
@[simp] theorem bsRefill_pmc (s : State) (f : StoreFill) : (s.bsRefill f).pmc = s.pmc := rfl
@[simp] theorem bsRefill_src (s : State) (f : StoreFill) : (s.bsRefill f).src = s.src := rfl
@[simp] theorem bsRefill_ae (s : State) (f : StoreFill) : (s.bsRefill f).ae = s.ae := rfl
@[simp] theorem bsRefill_port (s : State) (f : StoreFill) : (s.bsRefill f).port = s.port := rfl
@[simp] theorem bsRefill_syn (s : State) (f : StoreFill) : (s.bsRefill f).syn = s.syn := rfl
@[simp] theorem bsRefill_isl (s : State) (f : StoreFill) : (s.bsRefill f).isl = s.isl := rfl
@[simp] theorem bsRefill_clk (s : State) (f : StoreFill) : (s.bsRefill f).clk = s.clk := rfl
@[simp] theorem bsRefill_sea (s : State) (f : StoreFill) : (s.bsRefill f).sea = s.sea := rfl
@[simp] theorem bsRefill_unit (s : State) (f : StoreFill) : (s.bsRefill f).unit = s.unit := rfl
@[simp] theorem bsRefill_cal (s : State) (f : StoreFill) : (s.bsRefill f).cal = s.cal := rfl
@[simp] theorem bsRefill_alm (s : State) (f : StoreFill) : (s.bsRefill f).alm = s.alm := rfl
@[simp] theorem bsRefill_ring (s : State) (f : StoreFill) : (s.bsRefill f).ring = s.ring := rfl
@[simp] theorem bsRefill_rt (s : State) (f : StoreFill) : (s.bsRefill f).rt = s.rt := rfl
@[simp] theorem bsRefill_rfReload (s : State) (f : StoreFill) : (s.bsRefill f).rfReload = s.rfReload := rfl
@[simp] theorem bsRefill_free (s : State) (f : StoreFill) : (s.bsRefill f).free = s.free := rfl
@[simp] theorem bsRefill_pending (s : State) (f : StoreFill) : (s.bsRefill f).pending = s.pending := rfl
@[simp] theorem bsRefill_rd (s : State) (f : StoreFill) (j : Nat) : (s.bsRefill f).rd j = s.rd j := rfl
@[simp] theorem bsRefill_eff (s : State) (f : StoreFill) (j : Nat) : (s.bsRefill f).eff j = s.eff j := rfl
@[simp] theorem bsRefill_memRd (s : State) (f : StoreFill) (j : Nat) : (s.bsRefill f).memRd j = s.memRd j := rfl
@[simp] theorem bsRefill_ch (s : State) (f : StoreFill) (j : Nat) : (s.bsRefill f).ch j = s.ch j := rfl
@[simp] theorem bsRefill_bk (s : State) (f : StoreFill) (j : Nat) : (s.bsRefill f).bk j = s.bk j := rfl
@[simp] theorem bsRefill_pm (s : State) (f : StoreFill) (j : Nat) : (s.bsRefill f).pm j = s.pm j := rfl
@[simp] theorem bsRefill_sr (s : State) (f : StoreFill) (j : Nat) : (s.bsRefill f).sr j = s.sr j := rfl
@[simp] theorem bsRefill_en (s : State) (f : StoreFill) (j : Nat) : (s.bsRefill f).en j = s.en j := rfl
@[simp] theorem bsRefill_pt (s : State) (f : StoreFill) (j : Nat) : (s.bsRefill f).pt j = s.pt j := rfl
@[simp] theorem bsRefill_sy (s : State) (f : StoreFill) (j : Nat) : (s.bsRefill f).sy j = s.sy j := rfl
@[simp] theorem bsRefill_now (s : State) (f : StoreFill) : (s.bsRefill f).now = s.now := rfl
@[simp] theorem bsRefill_fget (s : State) (f : StoreFill) (j : Nat) (g : Fld) : (s.bsRefill f).fget j g = s.fget j g := rfl
@[simp] theorem bsRefill_fon (s : State) (f : StoreFill) (j : Nat) (g : Fld) : (s.bsRefill f).fon j g = s.fon j g := rfl
@[simp] theorem bsRefill_eget (s : State) (f : StoreFill) (j : Nat) (g : Fld) : (s.bsRefill f).eget j g = s.eget j g := rfl
@[simp] theorem bsRefill_eon (s : State) (f : StoreFill) (j : Nat) (g : Fld) : (s.bsRefill f).eon j g = s.eon j g := rfl

/-! `updCh` -/

@[simp] theorem updCh_reg (s : State) (a : Nat) (f : Chan → Chan) : (s.updCh a f).reg = s.reg := rfl
@[simp] theorem updCh_frc (s : State) (a : Nat) (f : Chan → Chan) : (s.updCh a f).frc = s.frc := rfl
@[simp] theorem updCh_mem (s : State) (a : Nat) (f : Chan → Chan) : (s.updCh a f).mem = s.mem := rfl
@[simp] theorem updCh_bs (s : State) (a : Nat) (f : Chan → Chan) : (s.updCh a f).bs = s.bs := rfl
@[simp] theorem updCh_bsFill (s : State) (a : Nat) (f : Chan → Chan) : (s.updCh a f).bsFill = s.bsFill := rfl
@[simp] theorem updCh_setBits (s : State) (a : Nat) (f : Chan → Chan) : (s.updCh a f).setBits = s.setBits := rfl
@[simp] theorem updCh_latA (s : State) (a : Nat) (f : Chan → Chan) : (s.updCh a f).latA = s.latA := rfl
@[simp] theorem updCh_latB (s : State) (a : Nat) (f : Chan → Chan) : (s.updCh a f).latB = s.latB := rfl
@[simp] theorem updCh_staged (s : State) (a : Nat) (f : Chan → Chan) : (s.updCh a f).staged = s.staged := rfl
@[simp] theorem updCh_led (s : State) (a : Nat) (f : Chan → Chan) : (s.updCh a f).led = s.led := rfl
@[simp] theorem updCh_bank (s : State) (a : Nat) (f : Chan → Chan) : (s.updCh a f).bank = s.bank := rfl
@[simp] theorem updCh_pmc (s : State) (a : Nat) (f : Chan → Chan) : (s.updCh a f).pmc = s.pmc := rfl
@[simp] theorem updCh_src (s : State) (a : Nat) (f : Chan → Chan) : (s.updCh a f).src = s.src := rfl
@[simp] theorem updCh_ae (s : State) (a : Nat) (f : Chan → Chan) : (s.updCh a f).ae = s.ae := rfl
@[simp] theorem updCh_port (s : State) (a : Nat) (f : Chan → Chan) : (s.updCh a f).port = s.port := rfl
@[simp] theorem updCh_syn (s : State) (a : Nat) (f : Chan → Chan) : (s.updCh a f).syn = s.syn := rfl
@[simp] theorem updCh_isl (s : State) (a : Nat) (f : Chan → Chan) : (s.updCh a f).isl = s.isl := rfl
@[simp] theorem updCh_clk (s : State) (a : Nat) (f : Chan → Chan) : (s.updCh a f).clk = s.clk := rfl
@[simp] theorem updCh_sea (s : State) (a : Nat) (f : Chan → Chan) : (s.updCh a f).sea = s.sea := rfl
@[simp] theorem updCh_unit (s : State) (a : Nat) (f : Chan → Chan) : (s.updCh a f).unit = s.unit := rfl
@[simp] theorem updCh_cal (s : State) (a : Nat) (f : Chan → Chan) : (s.updCh a f).cal = s.cal := rfl
@[simp] theorem updCh_alm (s : State) (a : Nat) (f : Chan → Chan) : (s.updCh a f).alm = s.alm := rfl
@[simp] theorem updCh_ring (s : State) (a : Nat) (f : Chan → Chan) : (s.updCh a f).ring = s.ring := rfl
@[simp] theorem updCh_rt (s : State) (a : Nat) (f : Chan → Chan) : (s.updCh a f).rt = s.rt := rfl
@[simp] theorem updCh_rfReload (s : State) (a : Nat) (f : Chan → Chan) : (s.updCh a f).rfReload = s.rfReload := rfl
@[simp] theorem updCh_free (s : State) (a : Nat) (f : Chan → Chan) : (s.updCh a f).free = s.free := rfl
@[simp] theorem updCh_pending (s : State) (a : Nat) (f : Chan → Chan) : (s.updCh a f).pending = s.pending := rfl
@[simp] theorem updCh_rd (s : State) (a : Nat) (f : Chan → Chan) (j : Nat) : (s.updCh a f).rd j = s.rd j := rfl
@[simp] theorem updCh_eff (s : State) (a : Nat) (f : Chan → Chan) (j : Nat) : (s.updCh a f).eff j = s.eff j := rfl
@[simp] theorem updCh_memRd (s : State) (a : Nat) (f : Chan → Chan) (j : Nat) : (s.updCh a f).memRd j = s.memRd j := rfl
@[simp] theorem updCh_bk (s : State) (a : Nat) (f : Chan → Chan) (j : Nat) : (s.updCh a f).bk j = s.bk j := rfl
@[simp] theorem updCh_pm (s : State) (a : Nat) (f : Chan → Chan) (j : Nat) : (s.updCh a f).pm j = s.pm j := rfl
@[simp] theorem updCh_sr (s : State) (a : Nat) (f : Chan → Chan) (j : Nat) : (s.updCh a f).sr j = s.sr j := rfl
@[simp] theorem updCh_en (s : State) (a : Nat) (f : Chan → Chan) (j : Nat) : (s.updCh a f).en j = s.en j := rfl
@[simp] theorem updCh_pt (s : State) (a : Nat) (f : Chan → Chan) (j : Nat) : (s.updCh a f).pt j = s.pt j := rfl
@[simp] theorem updCh_sy (s : State) (a : Nat) (f : Chan → Chan) (j : Nat) : (s.updCh a f).sy j = s.sy j := rfl
@[simp] theorem updCh_bsRd (s : State) (a : Nat) (f : Chan → Chan) (j : Nat) : (s.updCh a f).bsRd j = s.bsRd j := rfl
@[simp] theorem updCh_now (s : State) (a : Nat) (f : Chan → Chan) : (s.updCh a f).now = s.now := rfl
@[simp] theorem updCh_fget (s : State) (a : Nat) (f : Chan → Chan) (j : Nat) (g : Fld) : (s.updCh a f).fget j g = s.fget j g := rfl
@[simp] theorem updCh_fon (s : State) (a : Nat) (f : Chan → Chan) (j : Nat) (g : Fld) : (s.updCh a f).fon j g = s.fon j g := rfl
@[simp] theorem updCh_eget (s : State) (a : Nat) (f : Chan → Chan) (j : Nat) (g : Fld) : (s.updCh a f).eget j g = s.eget j g := rfl
@[simp] theorem updCh_eon (s : State) (a : Nat) (f : Chan → Chan) (j : Nat) (g : Fld) : (s.updCh a f).eon j g = s.eon j g := rfl

/-! `updBk` -/

@[simp] theorem updBk_reg (s : State) (a : Nat) (f : Bank → Bank) : (s.updBk a f).reg = s.reg := rfl
@[simp] theorem updBk_frc (s : State) (a : Nat) (f : Bank → Bank) : (s.updBk a f).frc = s.frc := rfl
@[simp] theorem updBk_mem (s : State) (a : Nat) (f : Bank → Bank) : (s.updBk a f).mem = s.mem := rfl
@[simp] theorem updBk_bs (s : State) (a : Nat) (f : Bank → Bank) : (s.updBk a f).bs = s.bs := rfl
@[simp] theorem updBk_bsFill (s : State) (a : Nat) (f : Bank → Bank) : (s.updBk a f).bsFill = s.bsFill := rfl
@[simp] theorem updBk_setBits (s : State) (a : Nat) (f : Bank → Bank) : (s.updBk a f).setBits = s.setBits := rfl
@[simp] theorem updBk_latA (s : State) (a : Nat) (f : Bank → Bank) : (s.updBk a f).latA = s.latA := rfl
@[simp] theorem updBk_latB (s : State) (a : Nat) (f : Bank → Bank) : (s.updBk a f).latB = s.latB := rfl
@[simp] theorem updBk_staged (s : State) (a : Nat) (f : Bank → Bank) : (s.updBk a f).staged = s.staged := rfl
@[simp] theorem updBk_led (s : State) (a : Nat) (f : Bank → Bank) : (s.updBk a f).led = s.led := rfl
@[simp] theorem updBk_chan (s : State) (a : Nat) (f : Bank → Bank) : (s.updBk a f).chan = s.chan := rfl
@[simp] theorem updBk_pmc (s : State) (a : Nat) (f : Bank → Bank) : (s.updBk a f).pmc = s.pmc := rfl
@[simp] theorem updBk_src (s : State) (a : Nat) (f : Bank → Bank) : (s.updBk a f).src = s.src := rfl
@[simp] theorem updBk_ae (s : State) (a : Nat) (f : Bank → Bank) : (s.updBk a f).ae = s.ae := rfl
@[simp] theorem updBk_port (s : State) (a : Nat) (f : Bank → Bank) : (s.updBk a f).port = s.port := rfl
@[simp] theorem updBk_syn (s : State) (a : Nat) (f : Bank → Bank) : (s.updBk a f).syn = s.syn := rfl
@[simp] theorem updBk_isl (s : State) (a : Nat) (f : Bank → Bank) : (s.updBk a f).isl = s.isl := rfl
@[simp] theorem updBk_clk (s : State) (a : Nat) (f : Bank → Bank) : (s.updBk a f).clk = s.clk := rfl
@[simp] theorem updBk_sea (s : State) (a : Nat) (f : Bank → Bank) : (s.updBk a f).sea = s.sea := rfl
@[simp] theorem updBk_unit (s : State) (a : Nat) (f : Bank → Bank) : (s.updBk a f).unit = s.unit := rfl
@[simp] theorem updBk_cal (s : State) (a : Nat) (f : Bank → Bank) : (s.updBk a f).cal = s.cal := rfl
@[simp] theorem updBk_alm (s : State) (a : Nat) (f : Bank → Bank) : (s.updBk a f).alm = s.alm := rfl
@[simp] theorem updBk_ring (s : State) (a : Nat) (f : Bank → Bank) : (s.updBk a f).ring = s.ring := rfl
@[simp] theorem updBk_rt (s : State) (a : Nat) (f : Bank → Bank) : (s.updBk a f).rt = s.rt := rfl
@[simp] theorem updBk_rfReload (s : State) (a : Nat) (f : Bank → Bank) : (s.updBk a f).rfReload = s.rfReload := rfl
@[simp] theorem updBk_free (s : State) (a : Nat) (f : Bank → Bank) : (s.updBk a f).free = s.free := rfl
@[simp] theorem updBk_pending (s : State) (a : Nat) (f : Bank → Bank) : (s.updBk a f).pending = s.pending := rfl
@[simp] theorem updBk_rd (s : State) (a : Nat) (f : Bank → Bank) (j : Nat) : (s.updBk a f).rd j = s.rd j := rfl
@[simp] theorem updBk_eff (s : State) (a : Nat) (f : Bank → Bank) (j : Nat) : (s.updBk a f).eff j = s.eff j := rfl
@[simp] theorem updBk_memRd (s : State) (a : Nat) (f : Bank → Bank) (j : Nat) : (s.updBk a f).memRd j = s.memRd j := rfl
@[simp] theorem updBk_ch (s : State) (a : Nat) (f : Bank → Bank) (j : Nat) : (s.updBk a f).ch j = s.ch j := rfl
@[simp] theorem updBk_pm (s : State) (a : Nat) (f : Bank → Bank) (j : Nat) : (s.updBk a f).pm j = s.pm j := rfl
@[simp] theorem updBk_sr (s : State) (a : Nat) (f : Bank → Bank) (j : Nat) : (s.updBk a f).sr j = s.sr j := rfl
@[simp] theorem updBk_en (s : State) (a : Nat) (f : Bank → Bank) (j : Nat) : (s.updBk a f).en j = s.en j := rfl
@[simp] theorem updBk_pt (s : State) (a : Nat) (f : Bank → Bank) (j : Nat) : (s.updBk a f).pt j = s.pt j := rfl
@[simp] theorem updBk_sy (s : State) (a : Nat) (f : Bank → Bank) (j : Nat) : (s.updBk a f).sy j = s.sy j := rfl
@[simp] theorem updBk_bsRd (s : State) (a : Nat) (f : Bank → Bank) (j : Nat) : (s.updBk a f).bsRd j = s.bsRd j := rfl
@[simp] theorem updBk_now (s : State) (a : Nat) (f : Bank → Bank) : (s.updBk a f).now = s.now := rfl
@[simp] theorem updBk_fget (s : State) (a : Nat) (f : Bank → Bank) (j : Nat) (g : Fld) : (s.updBk a f).fget j g = s.fget j g := rfl
@[simp] theorem updBk_fon (s : State) (a : Nat) (f : Bank → Bank) (j : Nat) (g : Fld) : (s.updBk a f).fon j g = s.fon j g := rfl
@[simp] theorem updBk_eget (s : State) (a : Nat) (f : Bank → Bank) (j : Nat) (g : Fld) : (s.updBk a f).eget j g = s.eget j g := rfl
@[simp] theorem updBk_eon (s : State) (a : Nat) (f : Bank → Bank) (j : Nat) (g : Fld) : (s.updBk a f).eon j g = s.eon j g := rfl

/-! `updPm` -/

@[simp] theorem updPm_reg (s : State) (a : Nat) (f : Pmc → Pmc) : (s.updPm a f).reg = s.reg := rfl
@[simp] theorem updPm_frc (s : State) (a : Nat) (f : Pmc → Pmc) : (s.updPm a f).frc = s.frc := rfl
@[simp] theorem updPm_mem (s : State) (a : Nat) (f : Pmc → Pmc) : (s.updPm a f).mem = s.mem := rfl
@[simp] theorem updPm_bs (s : State) (a : Nat) (f : Pmc → Pmc) : (s.updPm a f).bs = s.bs := rfl
@[simp] theorem updPm_bsFill (s : State) (a : Nat) (f : Pmc → Pmc) : (s.updPm a f).bsFill = s.bsFill := rfl
@[simp] theorem updPm_setBits (s : State) (a : Nat) (f : Pmc → Pmc) : (s.updPm a f).setBits = s.setBits := rfl
@[simp] theorem updPm_latA (s : State) (a : Nat) (f : Pmc → Pmc) : (s.updPm a f).latA = s.latA := rfl
@[simp] theorem updPm_latB (s : State) (a : Nat) (f : Pmc → Pmc) : (s.updPm a f).latB = s.latB := rfl
@[simp] theorem updPm_staged (s : State) (a : Nat) (f : Pmc → Pmc) : (s.updPm a f).staged = s.staged := rfl
@[simp] theorem updPm_led (s : State) (a : Nat) (f : Pmc → Pmc) : (s.updPm a f).led = s.led := rfl
@[simp] theorem updPm_chan (s : State) (a : Nat) (f : Pmc → Pmc) : (s.updPm a f).chan = s.chan := rfl
@[simp] theorem updPm_bank (s : State) (a : Nat) (f : Pmc → Pmc) : (s.updPm a f).bank = s.bank := rfl
@[simp] theorem updPm_src (s : State) (a : Nat) (f : Pmc → Pmc) : (s.updPm a f).src = s.src := rfl
@[simp] theorem updPm_ae (s : State) (a : Nat) (f : Pmc → Pmc) : (s.updPm a f).ae = s.ae := rfl
@[simp] theorem updPm_port (s : State) (a : Nat) (f : Pmc → Pmc) : (s.updPm a f).port = s.port := rfl
@[simp] theorem updPm_syn (s : State) (a : Nat) (f : Pmc → Pmc) : (s.updPm a f).syn = s.syn := rfl
@[simp] theorem updPm_isl (s : State) (a : Nat) (f : Pmc → Pmc) : (s.updPm a f).isl = s.isl := rfl
@[simp] theorem updPm_clk (s : State) (a : Nat) (f : Pmc → Pmc) : (s.updPm a f).clk = s.clk := rfl
@[simp] theorem updPm_sea (s : State) (a : Nat) (f : Pmc → Pmc) : (s.updPm a f).sea = s.sea := rfl
@[simp] theorem updPm_unit (s : State) (a : Nat) (f : Pmc → Pmc) : (s.updPm a f).unit = s.unit := rfl
@[simp] theorem updPm_cal (s : State) (a : Nat) (f : Pmc → Pmc) : (s.updPm a f).cal = s.cal := rfl
@[simp] theorem updPm_alm (s : State) (a : Nat) (f : Pmc → Pmc) : (s.updPm a f).alm = s.alm := rfl
@[simp] theorem updPm_ring (s : State) (a : Nat) (f : Pmc → Pmc) : (s.updPm a f).ring = s.ring := rfl
@[simp] theorem updPm_rt (s : State) (a : Nat) (f : Pmc → Pmc) : (s.updPm a f).rt = s.rt := rfl
@[simp] theorem updPm_rfReload (s : State) (a : Nat) (f : Pmc → Pmc) : (s.updPm a f).rfReload = s.rfReload := rfl
@[simp] theorem updPm_free (s : State) (a : Nat) (f : Pmc → Pmc) : (s.updPm a f).free = s.free := rfl
@[simp] theorem updPm_pending (s : State) (a : Nat) (f : Pmc → Pmc) : (s.updPm a f).pending = s.pending := rfl
@[simp] theorem updPm_rd (s : State) (a : Nat) (f : Pmc → Pmc) (j : Nat) : (s.updPm a f).rd j = s.rd j := rfl
@[simp] theorem updPm_eff (s : State) (a : Nat) (f : Pmc → Pmc) (j : Nat) : (s.updPm a f).eff j = s.eff j := rfl
@[simp] theorem updPm_memRd (s : State) (a : Nat) (f : Pmc → Pmc) (j : Nat) : (s.updPm a f).memRd j = s.memRd j := rfl
@[simp] theorem updPm_ch (s : State) (a : Nat) (f : Pmc → Pmc) (j : Nat) : (s.updPm a f).ch j = s.ch j := rfl
@[simp] theorem updPm_bk (s : State) (a : Nat) (f : Pmc → Pmc) (j : Nat) : (s.updPm a f).bk j = s.bk j := rfl
@[simp] theorem updPm_sr (s : State) (a : Nat) (f : Pmc → Pmc) (j : Nat) : (s.updPm a f).sr j = s.sr j := rfl
@[simp] theorem updPm_en (s : State) (a : Nat) (f : Pmc → Pmc) (j : Nat) : (s.updPm a f).en j = s.en j := rfl
@[simp] theorem updPm_pt (s : State) (a : Nat) (f : Pmc → Pmc) (j : Nat) : (s.updPm a f).pt j = s.pt j := rfl
@[simp] theorem updPm_sy (s : State) (a : Nat) (f : Pmc → Pmc) (j : Nat) : (s.updPm a f).sy j = s.sy j := rfl
@[simp] theorem updPm_bsRd (s : State) (a : Nat) (f : Pmc → Pmc) (j : Nat) : (s.updPm a f).bsRd j = s.bsRd j := rfl
@[simp] theorem updPm_now (s : State) (a : Nat) (f : Pmc → Pmc) : (s.updPm a f).now = s.now := rfl
@[simp] theorem updPm_fget (s : State) (a : Nat) (f : Pmc → Pmc) (j : Nat) (g : Fld) : (s.updPm a f).fget j g = s.fget j g := rfl
@[simp] theorem updPm_fon (s : State) (a : Nat) (f : Pmc → Pmc) (j : Nat) (g : Fld) : (s.updPm a f).fon j g = s.fon j g := rfl
@[simp] theorem updPm_eget (s : State) (a : Nat) (f : Pmc → Pmc) (j : Nat) (g : Fld) : (s.updPm a f).eget j g = s.eget j g := rfl
@[simp] theorem updPm_eon (s : State) (a : Nat) (f : Pmc → Pmc) (j : Nat) (g : Fld) : (s.updPm a f).eon j g = s.eon j g := rfl

/-! `updSr` -/

@[simp] theorem updSr_reg (s : State) (a : Nat) (f : Src → Src) : (s.updSr a f).reg = s.reg := rfl
@[simp] theorem updSr_frc (s : State) (a : Nat) (f : Src → Src) : (s.updSr a f).frc = s.frc := rfl
@[simp] theorem updSr_mem (s : State) (a : Nat) (f : Src → Src) : (s.updSr a f).mem = s.mem := rfl
@[simp] theorem updSr_bs (s : State) (a : Nat) (f : Src → Src) : (s.updSr a f).bs = s.bs := rfl
@[simp] theorem updSr_bsFill (s : State) (a : Nat) (f : Src → Src) : (s.updSr a f).bsFill = s.bsFill := rfl
@[simp] theorem updSr_setBits (s : State) (a : Nat) (f : Src → Src) : (s.updSr a f).setBits = s.setBits := rfl
@[simp] theorem updSr_latA (s : State) (a : Nat) (f : Src → Src) : (s.updSr a f).latA = s.latA := rfl
@[simp] theorem updSr_latB (s : State) (a : Nat) (f : Src → Src) : (s.updSr a f).latB = s.latB := rfl
@[simp] theorem updSr_staged (s : State) (a : Nat) (f : Src → Src) : (s.updSr a f).staged = s.staged := rfl
@[simp] theorem updSr_led (s : State) (a : Nat) (f : Src → Src) : (s.updSr a f).led = s.led := rfl
@[simp] theorem updSr_chan (s : State) (a : Nat) (f : Src → Src) : (s.updSr a f).chan = s.chan := rfl
@[simp] theorem updSr_bank (s : State) (a : Nat) (f : Src → Src) : (s.updSr a f).bank = s.bank := rfl
@[simp] theorem updSr_pmc (s : State) (a : Nat) (f : Src → Src) : (s.updSr a f).pmc = s.pmc := rfl
@[simp] theorem updSr_ae (s : State) (a : Nat) (f : Src → Src) : (s.updSr a f).ae = s.ae := rfl
@[simp] theorem updSr_port (s : State) (a : Nat) (f : Src → Src) : (s.updSr a f).port = s.port := rfl
@[simp] theorem updSr_syn (s : State) (a : Nat) (f : Src → Src) : (s.updSr a f).syn = s.syn := rfl
@[simp] theorem updSr_isl (s : State) (a : Nat) (f : Src → Src) : (s.updSr a f).isl = s.isl := rfl
@[simp] theorem updSr_clk (s : State) (a : Nat) (f : Src → Src) : (s.updSr a f).clk = s.clk := rfl
@[simp] theorem updSr_sea (s : State) (a : Nat) (f : Src → Src) : (s.updSr a f).sea = s.sea := rfl
@[simp] theorem updSr_unit (s : State) (a : Nat) (f : Src → Src) : (s.updSr a f).unit = s.unit := rfl
@[simp] theorem updSr_cal (s : State) (a : Nat) (f : Src → Src) : (s.updSr a f).cal = s.cal := rfl
@[simp] theorem updSr_alm (s : State) (a : Nat) (f : Src → Src) : (s.updSr a f).alm = s.alm := rfl
@[simp] theorem updSr_ring (s : State) (a : Nat) (f : Src → Src) : (s.updSr a f).ring = s.ring := rfl
@[simp] theorem updSr_rt (s : State) (a : Nat) (f : Src → Src) : (s.updSr a f).rt = s.rt := rfl
@[simp] theorem updSr_rfReload (s : State) (a : Nat) (f : Src → Src) : (s.updSr a f).rfReload = s.rfReload := rfl
@[simp] theorem updSr_free (s : State) (a : Nat) (f : Src → Src) : (s.updSr a f).free = s.free := rfl
@[simp] theorem updSr_pending (s : State) (a : Nat) (f : Src → Src) : (s.updSr a f).pending = s.pending := rfl
@[simp] theorem updSr_rd (s : State) (a : Nat) (f : Src → Src) (j : Nat) : (s.updSr a f).rd j = s.rd j := rfl
@[simp] theorem updSr_eff (s : State) (a : Nat) (f : Src → Src) (j : Nat) : (s.updSr a f).eff j = s.eff j := rfl
@[simp] theorem updSr_memRd (s : State) (a : Nat) (f : Src → Src) (j : Nat) : (s.updSr a f).memRd j = s.memRd j := rfl
@[simp] theorem updSr_ch (s : State) (a : Nat) (f : Src → Src) (j : Nat) : (s.updSr a f).ch j = s.ch j := rfl
@[simp] theorem updSr_bk (s : State) (a : Nat) (f : Src → Src) (j : Nat) : (s.updSr a f).bk j = s.bk j := rfl
@[simp] theorem updSr_pm (s : State) (a : Nat) (f : Src → Src) (j : Nat) : (s.updSr a f).pm j = s.pm j := rfl
@[simp] theorem updSr_en (s : State) (a : Nat) (f : Src → Src) (j : Nat) : (s.updSr a f).en j = s.en j := rfl
@[simp] theorem updSr_pt (s : State) (a : Nat) (f : Src → Src) (j : Nat) : (s.updSr a f).pt j = s.pt j := rfl
@[simp] theorem updSr_sy (s : State) (a : Nat) (f : Src → Src) (j : Nat) : (s.updSr a f).sy j = s.sy j := rfl
@[simp] theorem updSr_bsRd (s : State) (a : Nat) (f : Src → Src) (j : Nat) : (s.updSr a f).bsRd j = s.bsRd j := rfl
@[simp] theorem updSr_now (s : State) (a : Nat) (f : Src → Src) : (s.updSr a f).now = s.now := rfl
@[simp] theorem updSr_fget (s : State) (a : Nat) (f : Src → Src) (j : Nat) (g : Fld) : (s.updSr a f).fget j g = s.fget j g := rfl
@[simp] theorem updSr_fon (s : State) (a : Nat) (f : Src → Src) (j : Nat) (g : Fld) : (s.updSr a f).fon j g = s.fon j g := rfl
@[simp] theorem updSr_eget (s : State) (a : Nat) (f : Src → Src) (j : Nat) (g : Fld) : (s.updSr a f).eget j g = s.eget j g := rfl
@[simp] theorem updSr_eon (s : State) (a : Nat) (f : Src → Src) (j : Nat) (g : Fld) : (s.updSr a f).eon j g = s.eon j g := rfl

/-! `updEn` -/

@[simp] theorem updEn_reg (s : State) (a : Nat) (f : Ae → Ae) : (s.updEn a f).reg = s.reg := rfl
@[simp] theorem updEn_frc (s : State) (a : Nat) (f : Ae → Ae) : (s.updEn a f).frc = s.frc := rfl
@[simp] theorem updEn_mem (s : State) (a : Nat) (f : Ae → Ae) : (s.updEn a f).mem = s.mem := rfl
@[simp] theorem updEn_bs (s : State) (a : Nat) (f : Ae → Ae) : (s.updEn a f).bs = s.bs := rfl
@[simp] theorem updEn_bsFill (s : State) (a : Nat) (f : Ae → Ae) : (s.updEn a f).bsFill = s.bsFill := rfl
@[simp] theorem updEn_setBits (s : State) (a : Nat) (f : Ae → Ae) : (s.updEn a f).setBits = s.setBits := rfl
@[simp] theorem updEn_latA (s : State) (a : Nat) (f : Ae → Ae) : (s.updEn a f).latA = s.latA := rfl
@[simp] theorem updEn_latB (s : State) (a : Nat) (f : Ae → Ae) : (s.updEn a f).latB = s.latB := rfl
@[simp] theorem updEn_staged (s : State) (a : Nat) (f : Ae → Ae) : (s.updEn a f).staged = s.staged := rfl
@[simp] theorem updEn_led (s : State) (a : Nat) (f : Ae → Ae) : (s.updEn a f).led = s.led := rfl
@[simp] theorem updEn_chan (s : State) (a : Nat) (f : Ae → Ae) : (s.updEn a f).chan = s.chan := rfl
@[simp] theorem updEn_bank (s : State) (a : Nat) (f : Ae → Ae) : (s.updEn a f).bank = s.bank := rfl
@[simp] theorem updEn_pmc (s : State) (a : Nat) (f : Ae → Ae) : (s.updEn a f).pmc = s.pmc := rfl
@[simp] theorem updEn_src (s : State) (a : Nat) (f : Ae → Ae) : (s.updEn a f).src = s.src := rfl
@[simp] theorem updEn_port (s : State) (a : Nat) (f : Ae → Ae) : (s.updEn a f).port = s.port := rfl
@[simp] theorem updEn_syn (s : State) (a : Nat) (f : Ae → Ae) : (s.updEn a f).syn = s.syn := rfl
@[simp] theorem updEn_isl (s : State) (a : Nat) (f : Ae → Ae) : (s.updEn a f).isl = s.isl := rfl
@[simp] theorem updEn_clk (s : State) (a : Nat) (f : Ae → Ae) : (s.updEn a f).clk = s.clk := rfl
@[simp] theorem updEn_sea (s : State) (a : Nat) (f : Ae → Ae) : (s.updEn a f).sea = s.sea := rfl
@[simp] theorem updEn_unit (s : State) (a : Nat) (f : Ae → Ae) : (s.updEn a f).unit = s.unit := rfl
@[simp] theorem updEn_cal (s : State) (a : Nat) (f : Ae → Ae) : (s.updEn a f).cal = s.cal := rfl
@[simp] theorem updEn_alm (s : State) (a : Nat) (f : Ae → Ae) : (s.updEn a f).alm = s.alm := rfl
@[simp] theorem updEn_ring (s : State) (a : Nat) (f : Ae → Ae) : (s.updEn a f).ring = s.ring := rfl
@[simp] theorem updEn_rt (s : State) (a : Nat) (f : Ae → Ae) : (s.updEn a f).rt = s.rt := rfl
@[simp] theorem updEn_rfReload (s : State) (a : Nat) (f : Ae → Ae) : (s.updEn a f).rfReload = s.rfReload := rfl
@[simp] theorem updEn_free (s : State) (a : Nat) (f : Ae → Ae) : (s.updEn a f).free = s.free := rfl
@[simp] theorem updEn_pending (s : State) (a : Nat) (f : Ae → Ae) : (s.updEn a f).pending = s.pending := rfl
@[simp] theorem updEn_rd (s : State) (a : Nat) (f : Ae → Ae) (j : Nat) : (s.updEn a f).rd j = s.rd j := rfl
@[simp] theorem updEn_eff (s : State) (a : Nat) (f : Ae → Ae) (j : Nat) : (s.updEn a f).eff j = s.eff j := rfl
@[simp] theorem updEn_memRd (s : State) (a : Nat) (f : Ae → Ae) (j : Nat) : (s.updEn a f).memRd j = s.memRd j := rfl
@[simp] theorem updEn_ch (s : State) (a : Nat) (f : Ae → Ae) (j : Nat) : (s.updEn a f).ch j = s.ch j := rfl
@[simp] theorem updEn_bk (s : State) (a : Nat) (f : Ae → Ae) (j : Nat) : (s.updEn a f).bk j = s.bk j := rfl
@[simp] theorem updEn_pm (s : State) (a : Nat) (f : Ae → Ae) (j : Nat) : (s.updEn a f).pm j = s.pm j := rfl
@[simp] theorem updEn_sr (s : State) (a : Nat) (f : Ae → Ae) (j : Nat) : (s.updEn a f).sr j = s.sr j := rfl
@[simp] theorem updEn_pt (s : State) (a : Nat) (f : Ae → Ae) (j : Nat) : (s.updEn a f).pt j = s.pt j := rfl
@[simp] theorem updEn_sy (s : State) (a : Nat) (f : Ae → Ae) (j : Nat) : (s.updEn a f).sy j = s.sy j := rfl
@[simp] theorem updEn_bsRd (s : State) (a : Nat) (f : Ae → Ae) (j : Nat) : (s.updEn a f).bsRd j = s.bsRd j := rfl
@[simp] theorem updEn_now (s : State) (a : Nat) (f : Ae → Ae) : (s.updEn a f).now = s.now := rfl
@[simp] theorem updEn_fget (s : State) (a : Nat) (f : Ae → Ae) (j : Nat) (g : Fld) : (s.updEn a f).fget j g = s.fget j g := rfl
@[simp] theorem updEn_fon (s : State) (a : Nat) (f : Ae → Ae) (j : Nat) (g : Fld) : (s.updEn a f).fon j g = s.fon j g := rfl
@[simp] theorem updEn_eget (s : State) (a : Nat) (f : Ae → Ae) (j : Nat) (g : Fld) : (s.updEn a f).eget j g = s.eget j g := rfl
@[simp] theorem updEn_eon (s : State) (a : Nat) (f : Ae → Ae) (j : Nat) (g : Fld) : (s.updEn a f).eon j g = s.eon j g := rfl

/-! `updPt` -/

@[simp] theorem updPt_reg (s : State) (a : Nat) (f : Port → Port) : (s.updPt a f).reg = s.reg := rfl
@[simp] theorem updPt_frc (s : State) (a : Nat) (f : Port → Port) : (s.updPt a f).frc = s.frc := rfl
@[simp] theorem updPt_mem (s : State) (a : Nat) (f : Port → Port) : (s.updPt a f).mem = s.mem := rfl
@[simp] theorem updPt_bs (s : State) (a : Nat) (f : Port → Port) : (s.updPt a f).bs = s.bs := rfl
@[simp] theorem updPt_bsFill (s : State) (a : Nat) (f : Port → Port) : (s.updPt a f).bsFill = s.bsFill := rfl
@[simp] theorem updPt_setBits (s : State) (a : Nat) (f : Port → Port) : (s.updPt a f).setBits = s.setBits := rfl
@[simp] theorem updPt_latA (s : State) (a : Nat) (f : Port → Port) : (s.updPt a f).latA = s.latA := rfl
@[simp] theorem updPt_latB (s : State) (a : Nat) (f : Port → Port) : (s.updPt a f).latB = s.latB := rfl
@[simp] theorem updPt_staged (s : State) (a : Nat) (f : Port → Port) : (s.updPt a f).staged = s.staged := rfl
@[simp] theorem updPt_led (s : State) (a : Nat) (f : Port → Port) : (s.updPt a f).led = s.led := rfl
@[simp] theorem updPt_chan (s : State) (a : Nat) (f : Port → Port) : (s.updPt a f).chan = s.chan := rfl
@[simp] theorem updPt_bank (s : State) (a : Nat) (f : Port → Port) : (s.updPt a f).bank = s.bank := rfl
@[simp] theorem updPt_pmc (s : State) (a : Nat) (f : Port → Port) : (s.updPt a f).pmc = s.pmc := rfl
@[simp] theorem updPt_src (s : State) (a : Nat) (f : Port → Port) : (s.updPt a f).src = s.src := rfl
@[simp] theorem updPt_ae (s : State) (a : Nat) (f : Port → Port) : (s.updPt a f).ae = s.ae := rfl
@[simp] theorem updPt_syn (s : State) (a : Nat) (f : Port → Port) : (s.updPt a f).syn = s.syn := rfl
@[simp] theorem updPt_isl (s : State) (a : Nat) (f : Port → Port) : (s.updPt a f).isl = s.isl := rfl
@[simp] theorem updPt_clk (s : State) (a : Nat) (f : Port → Port) : (s.updPt a f).clk = s.clk := rfl
@[simp] theorem updPt_sea (s : State) (a : Nat) (f : Port → Port) : (s.updPt a f).sea = s.sea := rfl
@[simp] theorem updPt_unit (s : State) (a : Nat) (f : Port → Port) : (s.updPt a f).unit = s.unit := rfl
@[simp] theorem updPt_cal (s : State) (a : Nat) (f : Port → Port) : (s.updPt a f).cal = s.cal := rfl
@[simp] theorem updPt_alm (s : State) (a : Nat) (f : Port → Port) : (s.updPt a f).alm = s.alm := rfl
@[simp] theorem updPt_ring (s : State) (a : Nat) (f : Port → Port) : (s.updPt a f).ring = s.ring := rfl
@[simp] theorem updPt_rt (s : State) (a : Nat) (f : Port → Port) : (s.updPt a f).rt = s.rt := rfl
@[simp] theorem updPt_rfReload (s : State) (a : Nat) (f : Port → Port) : (s.updPt a f).rfReload = s.rfReload := rfl
@[simp] theorem updPt_free (s : State) (a : Nat) (f : Port → Port) : (s.updPt a f).free = s.free := rfl
@[simp] theorem updPt_pending (s : State) (a : Nat) (f : Port → Port) : (s.updPt a f).pending = s.pending := rfl
@[simp] theorem updPt_rd (s : State) (a : Nat) (f : Port → Port) (j : Nat) : (s.updPt a f).rd j = s.rd j := rfl
@[simp] theorem updPt_eff (s : State) (a : Nat) (f : Port → Port) (j : Nat) : (s.updPt a f).eff j = s.eff j := rfl
@[simp] theorem updPt_memRd (s : State) (a : Nat) (f : Port → Port) (j : Nat) : (s.updPt a f).memRd j = s.memRd j := rfl
@[simp] theorem updPt_ch (s : State) (a : Nat) (f : Port → Port) (j : Nat) : (s.updPt a f).ch j = s.ch j := rfl
@[simp] theorem updPt_bk (s : State) (a : Nat) (f : Port → Port) (j : Nat) : (s.updPt a f).bk j = s.bk j := rfl
@[simp] theorem updPt_pm (s : State) (a : Nat) (f : Port → Port) (j : Nat) : (s.updPt a f).pm j = s.pm j := rfl
@[simp] theorem updPt_sr (s : State) (a : Nat) (f : Port → Port) (j : Nat) : (s.updPt a f).sr j = s.sr j := rfl
@[simp] theorem updPt_en (s : State) (a : Nat) (f : Port → Port) (j : Nat) : (s.updPt a f).en j = s.en j := rfl
@[simp] theorem updPt_sy (s : State) (a : Nat) (f : Port → Port) (j : Nat) : (s.updPt a f).sy j = s.sy j := rfl
@[simp] theorem updPt_bsRd (s : State) (a : Nat) (f : Port → Port) (j : Nat) : (s.updPt a f).bsRd j = s.bsRd j := rfl
@[simp] theorem updPt_now (s : State) (a : Nat) (f : Port → Port) : (s.updPt a f).now = s.now := rfl
@[simp] theorem updPt_fget (s : State) (a : Nat) (f : Port → Port) (j : Nat) (g : Fld) : (s.updPt a f).fget j g = s.fget j g := rfl
@[simp] theorem updPt_fon (s : State) (a : Nat) (f : Port → Port) (j : Nat) (g : Fld) : (s.updPt a f).fon j g = s.fon j g := rfl
@[simp] theorem updPt_eget (s : State) (a : Nat) (f : Port → Port) (j : Nat) (g : Fld) : (s.updPt a f).eget j g = s.eget j g := rfl
@[simp] theorem updPt_eon (s : State) (a : Nat) (f : Port → Port) (j : Nat) (g : Fld) : (s.updPt a f).eon j g = s.eon j g := rfl

/-! `updSy` -/

@[simp] theorem updSy_reg (s : State) (a : Nat) (f : Syn → Syn) : (s.updSy a f).reg = s.reg := rfl
@[simp] theorem updSy_frc (s : State) (a : Nat) (f : Syn → Syn) : (s.updSy a f).frc = s.frc := rfl
@[simp] theorem updSy_mem (s : State) (a : Nat) (f : Syn → Syn) : (s.updSy a f).mem = s.mem := rfl
@[simp] theorem updSy_bs (s : State) (a : Nat) (f : Syn → Syn) : (s.updSy a f).bs = s.bs := rfl
@[simp] theorem updSy_bsFill (s : State) (a : Nat) (f : Syn → Syn) : (s.updSy a f).bsFill = s.bsFill := rfl
@[simp] theorem updSy_setBits (s : State) (a : Nat) (f : Syn → Syn) : (s.updSy a f).setBits = s.setBits := rfl
@[simp] theorem updSy_latA (s : State) (a : Nat) (f : Syn → Syn) : (s.updSy a f).latA = s.latA := rfl
@[simp] theorem updSy_latB (s : State) (a : Nat) (f : Syn → Syn) : (s.updSy a f).latB = s.latB := rfl
@[simp] theorem updSy_staged (s : State) (a : Nat) (f : Syn → Syn) : (s.updSy a f).staged = s.staged := rfl
@[simp] theorem updSy_led (s : State) (a : Nat) (f : Syn → Syn) : (s.updSy a f).led = s.led := rfl
@[simp] theorem updSy_chan (s : State) (a : Nat) (f : Syn → Syn) : (s.updSy a f).chan = s.chan := rfl
@[simp] theorem updSy_bank (s : State) (a : Nat) (f : Syn → Syn) : (s.updSy a f).bank = s.bank := rfl
@[simp] theorem updSy_pmc (s : State) (a : Nat) (f : Syn → Syn) : (s.updSy a f).pmc = s.pmc := rfl
@[simp] theorem updSy_src (s : State) (a : Nat) (f : Syn → Syn) : (s.updSy a f).src = s.src := rfl
@[simp] theorem updSy_ae (s : State) (a : Nat) (f : Syn → Syn) : (s.updSy a f).ae = s.ae := rfl
@[simp] theorem updSy_port (s : State) (a : Nat) (f : Syn → Syn) : (s.updSy a f).port = s.port := rfl
@[simp] theorem updSy_isl (s : State) (a : Nat) (f : Syn → Syn) : (s.updSy a f).isl = s.isl := rfl
@[simp] theorem updSy_clk (s : State) (a : Nat) (f : Syn → Syn) : (s.updSy a f).clk = s.clk := rfl
@[simp] theorem updSy_sea (s : State) (a : Nat) (f : Syn → Syn) : (s.updSy a f).sea = s.sea := rfl
@[simp] theorem updSy_unit (s : State) (a : Nat) (f : Syn → Syn) : (s.updSy a f).unit = s.unit := rfl
@[simp] theorem updSy_cal (s : State) (a : Nat) (f : Syn → Syn) : (s.updSy a f).cal = s.cal := rfl
@[simp] theorem updSy_alm (s : State) (a : Nat) (f : Syn → Syn) : (s.updSy a f).alm = s.alm := rfl
@[simp] theorem updSy_ring (s : State) (a : Nat) (f : Syn → Syn) : (s.updSy a f).ring = s.ring := rfl
@[simp] theorem updSy_rt (s : State) (a : Nat) (f : Syn → Syn) : (s.updSy a f).rt = s.rt := rfl
@[simp] theorem updSy_rfReload (s : State) (a : Nat) (f : Syn → Syn) : (s.updSy a f).rfReload = s.rfReload := rfl
@[simp] theorem updSy_free (s : State) (a : Nat) (f : Syn → Syn) : (s.updSy a f).free = s.free := rfl
@[simp] theorem updSy_pending (s : State) (a : Nat) (f : Syn → Syn) : (s.updSy a f).pending = s.pending := rfl
@[simp] theorem updSy_rd (s : State) (a : Nat) (f : Syn → Syn) (j : Nat) : (s.updSy a f).rd j = s.rd j := rfl
@[simp] theorem updSy_eff (s : State) (a : Nat) (f : Syn → Syn) (j : Nat) : (s.updSy a f).eff j = s.eff j := rfl
@[simp] theorem updSy_memRd (s : State) (a : Nat) (f : Syn → Syn) (j : Nat) : (s.updSy a f).memRd j = s.memRd j := rfl
@[simp] theorem updSy_ch (s : State) (a : Nat) (f : Syn → Syn) (j : Nat) : (s.updSy a f).ch j = s.ch j := rfl
@[simp] theorem updSy_bk (s : State) (a : Nat) (f : Syn → Syn) (j : Nat) : (s.updSy a f).bk j = s.bk j := rfl
@[simp] theorem updSy_pm (s : State) (a : Nat) (f : Syn → Syn) (j : Nat) : (s.updSy a f).pm j = s.pm j := rfl
@[simp] theorem updSy_sr (s : State) (a : Nat) (f : Syn → Syn) (j : Nat) : (s.updSy a f).sr j = s.sr j := rfl
@[simp] theorem updSy_en (s : State) (a : Nat) (f : Syn → Syn) (j : Nat) : (s.updSy a f).en j = s.en j := rfl
@[simp] theorem updSy_pt (s : State) (a : Nat) (f : Syn → Syn) (j : Nat) : (s.updSy a f).pt j = s.pt j := rfl
@[simp] theorem updSy_bsRd (s : State) (a : Nat) (f : Syn → Syn) (j : Nat) : (s.updSy a f).bsRd j = s.bsRd j := rfl
@[simp] theorem updSy_now (s : State) (a : Nat) (f : Syn → Syn) : (s.updSy a f).now = s.now := rfl
@[simp] theorem updSy_fget (s : State) (a : Nat) (f : Syn → Syn) (j : Nat) (g : Fld) : (s.updSy a f).fget j g = s.fget j g := rfl
@[simp] theorem updSy_fon (s : State) (a : Nat) (f : Syn → Syn) (j : Nat) (g : Fld) : (s.updSy a f).fon j g = s.fon j g := rfl
@[simp] theorem updSy_eget (s : State) (a : Nat) (f : Syn → Syn) (j : Nat) (g : Fld) : (s.updSy a f).eget j g = s.eget j g := rfl
@[simp] theorem updSy_eon (s : State) (a : Nat) (f : Syn → Syn) (j : Nat) (g : Fld) : (s.updSy a f).eon j g = s.eon j g := rfl

/-! `updClk` -/

@[simp] theorem updClk_reg (s : State) (f : Clk → Clk) : (s.updClk f).reg = s.reg := rfl
@[simp] theorem updClk_frc (s : State) (f : Clk → Clk) : (s.updClk f).frc = s.frc := rfl
@[simp] theorem updClk_mem (s : State) (f : Clk → Clk) : (s.updClk f).mem = s.mem := rfl
@[simp] theorem updClk_bs (s : State) (f : Clk → Clk) : (s.updClk f).bs = s.bs := rfl
@[simp] theorem updClk_bsFill (s : State) (f : Clk → Clk) : (s.updClk f).bsFill = s.bsFill := rfl
@[simp] theorem updClk_setBits (s : State) (f : Clk → Clk) : (s.updClk f).setBits = s.setBits := rfl
@[simp] theorem updClk_latA (s : State) (f : Clk → Clk) : (s.updClk f).latA = s.latA := rfl
@[simp] theorem updClk_latB (s : State) (f : Clk → Clk) : (s.updClk f).latB = s.latB := rfl
@[simp] theorem updClk_staged (s : State) (f : Clk → Clk) : (s.updClk f).staged = s.staged := rfl
@[simp] theorem updClk_led (s : State) (f : Clk → Clk) : (s.updClk f).led = s.led := rfl
@[simp] theorem updClk_chan (s : State) (f : Clk → Clk) : (s.updClk f).chan = s.chan := rfl
@[simp] theorem updClk_bank (s : State) (f : Clk → Clk) : (s.updClk f).bank = s.bank := rfl
@[simp] theorem updClk_pmc (s : State) (f : Clk → Clk) : (s.updClk f).pmc = s.pmc := rfl
@[simp] theorem updClk_src (s : State) (f : Clk → Clk) : (s.updClk f).src = s.src := rfl
@[simp] theorem updClk_ae (s : State) (f : Clk → Clk) : (s.updClk f).ae = s.ae := rfl
@[simp] theorem updClk_port (s : State) (f : Clk → Clk) : (s.updClk f).port = s.port := rfl
@[simp] theorem updClk_syn (s : State) (f : Clk → Clk) : (s.updClk f).syn = s.syn := rfl
@[simp] theorem updClk_isl (s : State) (f : Clk → Clk) : (s.updClk f).isl = s.isl := rfl
@[simp] theorem updClk_sea (s : State) (f : Clk → Clk) : (s.updClk f).sea = s.sea := rfl
@[simp] theorem updClk_unit (s : State) (f : Clk → Clk) : (s.updClk f).unit = s.unit := rfl
@[simp] theorem updClk_cal (s : State) (f : Clk → Clk) : (s.updClk f).cal = s.cal := rfl
@[simp] theorem updClk_alm (s : State) (f : Clk → Clk) : (s.updClk f).alm = s.alm := rfl
@[simp] theorem updClk_ring (s : State) (f : Clk → Clk) : (s.updClk f).ring = s.ring := rfl
@[simp] theorem updClk_rt (s : State) (f : Clk → Clk) : (s.updClk f).rt = s.rt := rfl
@[simp] theorem updClk_rfReload (s : State) (f : Clk → Clk) : (s.updClk f).rfReload = s.rfReload := rfl
@[simp] theorem updClk_free (s : State) (f : Clk → Clk) : (s.updClk f).free = s.free := rfl
@[simp] theorem updClk_pending (s : State) (f : Clk → Clk) : (s.updClk f).pending = s.pending := rfl
@[simp] theorem updClk_rd (s : State) (f : Clk → Clk) (j : Nat) : (s.updClk f).rd j = s.rd j := rfl
@[simp] theorem updClk_eff (s : State) (f : Clk → Clk) (j : Nat) : (s.updClk f).eff j = s.eff j := rfl
@[simp] theorem updClk_memRd (s : State) (f : Clk → Clk) (j : Nat) : (s.updClk f).memRd j = s.memRd j := rfl
@[simp] theorem updClk_ch (s : State) (f : Clk → Clk) (j : Nat) : (s.updClk f).ch j = s.ch j := rfl
@[simp] theorem updClk_bk (s : State) (f : Clk → Clk) (j : Nat) : (s.updClk f).bk j = s.bk j := rfl
@[simp] theorem updClk_pm (s : State) (f : Clk → Clk) (j : Nat) : (s.updClk f).pm j = s.pm j := rfl
@[simp] theorem updClk_sr (s : State) (f : Clk → Clk) (j : Nat) : (s.updClk f).sr j = s.sr j := rfl
@[simp] theorem updClk_en (s : State) (f : Clk → Clk) (j : Nat) : (s.updClk f).en j = s.en j := rfl
@[simp] theorem updClk_pt (s : State) (f : Clk → Clk) (j : Nat) : (s.updClk f).pt j = s.pt j := rfl
@[simp] theorem updClk_sy (s : State) (f : Clk → Clk) (j : Nat) : (s.updClk f).sy j = s.sy j := rfl
@[simp] theorem updClk_bsRd (s : State) (f : Clk → Clk) (j : Nat) : (s.updClk f).bsRd j = s.bsRd j := rfl
@[simp] theorem updClk_fget (s : State) (f : Clk → Clk) (j : Nat) (g : Fld) : (s.updClk f).fget j g = s.fget j g := rfl
@[simp] theorem updClk_fon (s : State) (f : Clk → Clk) (j : Nat) (g : Fld) : (s.updClk f).fon j g = s.fon j g := rfl
@[simp] theorem updClk_eget (s : State) (f : Clk → Clk) (j : Nat) (g : Fld) : (s.updClk f).eget j g = s.eget j g := rfl
@[simp] theorem updClk_eon (s : State) (f : Clk → Clk) (j : Nat) (g : Fld) : (s.updClk f).eon j g = s.eon j g := rfl

/-! `updSea` -/

@[simp] theorem updSea_reg (s : State) (f : Season → Season) : (s.updSea f).reg = s.reg := rfl
@[simp] theorem updSea_frc (s : State) (f : Season → Season) : (s.updSea f).frc = s.frc := rfl
@[simp] theorem updSea_mem (s : State) (f : Season → Season) : (s.updSea f).mem = s.mem := rfl
@[simp] theorem updSea_bs (s : State) (f : Season → Season) : (s.updSea f).bs = s.bs := rfl
@[simp] theorem updSea_bsFill (s : State) (f : Season → Season) : (s.updSea f).bsFill = s.bsFill := rfl
@[simp] theorem updSea_setBits (s : State) (f : Season → Season) : (s.updSea f).setBits = s.setBits := rfl
@[simp] theorem updSea_latA (s : State) (f : Season → Season) : (s.updSea f).latA = s.latA := rfl
@[simp] theorem updSea_latB (s : State) (f : Season → Season) : (s.updSea f).latB = s.latB := rfl
@[simp] theorem updSea_staged (s : State) (f : Season → Season) : (s.updSea f).staged = s.staged := rfl
@[simp] theorem updSea_led (s : State) (f : Season → Season) : (s.updSea f).led = s.led := rfl
@[simp] theorem updSea_chan (s : State) (f : Season → Season) : (s.updSea f).chan = s.chan := rfl
@[simp] theorem updSea_bank (s : State) (f : Season → Season) : (s.updSea f).bank = s.bank := rfl
@[simp] theorem updSea_pmc (s : State) (f : Season → Season) : (s.updSea f).pmc = s.pmc := rfl
@[simp] theorem updSea_src (s : State) (f : Season → Season) : (s.updSea f).src = s.src := rfl
@[simp] theorem updSea_ae (s : State) (f : Season → Season) : (s.updSea f).ae = s.ae := rfl
@[simp] theorem updSea_port (s : State) (f : Season → Season) : (s.updSea f).port = s.port := rfl
@[simp] theorem updSea_syn (s : State) (f : Season → Season) : (s.updSea f).syn = s.syn := rfl
@[simp] theorem updSea_isl (s : State) (f : Season → Season) : (s.updSea f).isl = s.isl := rfl
@[simp] theorem updSea_clk (s : State) (f : Season → Season) : (s.updSea f).clk = s.clk := rfl
@[simp] theorem updSea_unit (s : State) (f : Season → Season) : (s.updSea f).unit = s.unit := rfl
@[simp] theorem updSea_cal (s : State) (f : Season → Season) : (s.updSea f).cal = s.cal := rfl
@[simp] theorem updSea_alm (s : State) (f : Season → Season) : (s.updSea f).alm = s.alm := rfl
@[simp] theorem updSea_ring (s : State) (f : Season → Season) : (s.updSea f).ring = s.ring := rfl
@[simp] theorem updSea_rt (s : State) (f : Season → Season) : (s.updSea f).rt = s.rt := rfl
@[simp] theorem updSea_rfReload (s : State) (f : Season → Season) : (s.updSea f).rfReload = s.rfReload := rfl
@[simp] theorem updSea_free (s : State) (f : Season → Season) : (s.updSea f).free = s.free := rfl
@[simp] theorem updSea_pending (s : State) (f : Season → Season) : (s.updSea f).pending = s.pending := rfl
@[simp] theorem updSea_rd (s : State) (f : Season → Season) (j : Nat) : (s.updSea f).rd j = s.rd j := rfl
@[simp] theorem updSea_eff (s : State) (f : Season → Season) (j : Nat) : (s.updSea f).eff j = s.eff j := rfl
@[simp] theorem updSea_memRd (s : State) (f : Season → Season) (j : Nat) : (s.updSea f).memRd j = s.memRd j := rfl
@[simp] theorem updSea_ch (s : State) (f : Season → Season) (j : Nat) : (s.updSea f).ch j = s.ch j := rfl
@[simp] theorem updSea_bk (s : State) (f : Season → Season) (j : Nat) : (s.updSea f).bk j = s.bk j := rfl
@[simp] theorem updSea_pm (s : State) (f : Season → Season) (j : Nat) : (s.updSea f).pm j = s.pm j := rfl
@[simp] theorem updSea_sr (s : State) (f : Season → Season) (j : Nat) : (s.updSea f).sr j = s.sr j := rfl
@[simp] theorem updSea_en (s : State) (f : Season → Season) (j : Nat) : (s.updSea f).en j = s.en j := rfl
@[simp] theorem updSea_pt (s : State) (f : Season → Season) (j : Nat) : (s.updSea f).pt j = s.pt j := rfl
@[simp] theorem updSea_sy (s : State) (f : Season → Season) (j : Nat) : (s.updSea f).sy j = s.sy j := rfl
@[simp] theorem updSea_bsRd (s : State) (f : Season → Season) (j : Nat) : (s.updSea f).bsRd j = s.bsRd j := rfl
@[simp] theorem updSea_now (s : State) (f : Season → Season) : (s.updSea f).now = s.now := rfl
@[simp] theorem updSea_fget (s : State) (f : Season → Season) (j : Nat) (g : Fld) : (s.updSea f).fget j g = s.fget j g := rfl
@[simp] theorem updSea_fon (s : State) (f : Season → Season) (j : Nat) (g : Fld) : (s.updSea f).fon j g = s.fon j g := rfl
@[simp] theorem updSea_eget (s : State) (f : Season → Season) (j : Nat) (g : Fld) : (s.updSea f).eget j g = s.eget j g := rfl
@[simp] theorem updSea_eon (s : State) (f : Season → Season) (j : Nat) (g : Fld) : (s.updSea f).eon j g = s.eon j g := rfl

/-! `updUnit` -/

@[simp] theorem updUnit_reg (s : State) (f : UnitSt → UnitSt) : (s.updUnit f).reg = s.reg := rfl
@[simp] theorem updUnit_frc (s : State) (f : UnitSt → UnitSt) : (s.updUnit f).frc = s.frc := rfl
@[simp] theorem updUnit_mem (s : State) (f : UnitSt → UnitSt) : (s.updUnit f).mem = s.mem := rfl
@[simp] theorem updUnit_bs (s : State) (f : UnitSt → UnitSt) : (s.updUnit f).bs = s.bs := rfl
@[simp] theorem updUnit_bsFill (s : State) (f : UnitSt → UnitSt) : (s.updUnit f).bsFill = s.bsFill := rfl
@[simp] theorem updUnit_setBits (s : State) (f : UnitSt → UnitSt) : (s.updUnit f).setBits = s.setBits := rfl
@[simp] theorem updUnit_latA (s : State) (f : UnitSt → UnitSt) : (s.updUnit f).latA = s.latA := rfl
@[simp] theorem updUnit_latB (s : State) (f : UnitSt → UnitSt) : (s.updUnit f).latB = s.latB := rfl
@[simp] theorem updUnit_staged (s : State) (f : UnitSt → UnitSt) : (s.updUnit f).staged = s.staged := rfl
@[simp] theorem updUnit_led (s : State) (f : UnitSt → UnitSt) : (s.updUnit f).led = s.led := rfl
@[simp] theorem updUnit_chan (s : State) (f : UnitSt → UnitSt) : (s.updUnit f).chan = s.chan := rfl
@[simp] theorem updUnit_bank (s : State) (f : UnitSt → UnitSt) : (s.updUnit f).bank = s.bank := rfl
@[simp] theorem updUnit_pmc (s : State) (f : UnitSt → UnitSt) : (s.updUnit f).pmc = s.pmc := rfl
@[simp] theorem updUnit_src (s : State) (f : UnitSt → UnitSt) : (s.updUnit f).src = s.src := rfl
@[simp] theorem updUnit_ae (s : State) (f : UnitSt → UnitSt) : (s.updUnit f).ae = s.ae := rfl
@[simp] theorem updUnit_port (s : State) (f : UnitSt → UnitSt) : (s.updUnit f).port = s.port := rfl
@[simp] theorem updUnit_syn (s : State) (f : UnitSt → UnitSt) : (s.updUnit f).syn = s.syn := rfl
@[simp] theorem updUnit_isl (s : State) (f : UnitSt → UnitSt) : (s.updUnit f).isl = s.isl := rfl
@[simp] theorem updUnit_clk (s : State) (f : UnitSt → UnitSt) : (s.updUnit f).clk = s.clk := rfl
@[simp] theorem updUnit_sea (s : State) (f : UnitSt → UnitSt) : (s.updUnit f).sea = s.sea := rfl
@[simp] theorem updUnit_cal (s : State) (f : UnitSt → UnitSt) : (s.updUnit f).cal = s.cal := rfl
@[simp] theorem updUnit_alm (s : State) (f : UnitSt → UnitSt) : (s.updUnit f).alm = s.alm := rfl
@[simp] theorem updUnit_ring (s : State) (f : UnitSt → UnitSt) : (s.updUnit f).ring = s.ring := rfl
@[simp] theorem updUnit_rt (s : State) (f : UnitSt → UnitSt) : (s.updUnit f).rt = s.rt := rfl
@[simp] theorem updUnit_rfReload (s : State) (f : UnitSt → UnitSt) : (s.updUnit f).rfReload = s.rfReload := rfl
@[simp] theorem updUnit_free (s : State) (f : UnitSt → UnitSt) : (s.updUnit f).free = s.free := rfl
@[simp] theorem updUnit_pending (s : State) (f : UnitSt → UnitSt) : (s.updUnit f).pending = s.pending := rfl
@[simp] theorem updUnit_rd (s : State) (f : UnitSt → UnitSt) (j : Nat) : (s.updUnit f).rd j = s.rd j := rfl
@[simp] theorem updUnit_eff (s : State) (f : UnitSt → UnitSt) (j : Nat) : (s.updUnit f).eff j = s.eff j := rfl
@[simp] theorem updUnit_memRd (s : State) (f : UnitSt → UnitSt) (j : Nat) : (s.updUnit f).memRd j = s.memRd j := rfl
@[simp] theorem updUnit_ch (s : State) (f : UnitSt → UnitSt) (j : Nat) : (s.updUnit f).ch j = s.ch j := rfl
@[simp] theorem updUnit_bk (s : State) (f : UnitSt → UnitSt) (j : Nat) : (s.updUnit f).bk j = s.bk j := rfl
@[simp] theorem updUnit_pm (s : State) (f : UnitSt → UnitSt) (j : Nat) : (s.updUnit f).pm j = s.pm j := rfl
@[simp] theorem updUnit_sr (s : State) (f : UnitSt → UnitSt) (j : Nat) : (s.updUnit f).sr j = s.sr j := rfl
@[simp] theorem updUnit_en (s : State) (f : UnitSt → UnitSt) (j : Nat) : (s.updUnit f).en j = s.en j := rfl
@[simp] theorem updUnit_pt (s : State) (f : UnitSt → UnitSt) (j : Nat) : (s.updUnit f).pt j = s.pt j := rfl
@[simp] theorem updUnit_sy (s : State) (f : UnitSt → UnitSt) (j : Nat) : (s.updUnit f).sy j = s.sy j := rfl
@[simp] theorem updUnit_bsRd (s : State) (f : UnitSt → UnitSt) (j : Nat) : (s.updUnit f).bsRd j = s.bsRd j := rfl
@[simp] theorem updUnit_now (s : State) (f : UnitSt → UnitSt) : (s.updUnit f).now = s.now := rfl
@[simp] theorem updUnit_fget (s : State) (f : UnitSt → UnitSt) (j : Nat) (g : Fld) : (s.updUnit f).fget j g = s.fget j g := rfl
@[simp] theorem updUnit_fon (s : State) (f : UnitSt → UnitSt) (j : Nat) (g : Fld) : (s.updUnit f).fon j g = s.fon j g := rfl
@[simp] theorem updUnit_eget (s : State) (f : UnitSt → UnitSt) (j : Nat) (g : Fld) : (s.updUnit f).eget j g = s.eget j g := rfl
@[simp] theorem updUnit_eon (s : State) (f : UnitSt → UnitSt) (j : Nat) (g : Fld) : (s.updUnit f).eon j g = s.eon j g := rfl

/-! `updCal` -/

@[simp] theorem updCal_reg (s : State) (f : Cal → Cal) : (s.updCal f).reg = s.reg := rfl
@[simp] theorem updCal_frc (s : State) (f : Cal → Cal) : (s.updCal f).frc = s.frc := rfl
@[simp] theorem updCal_mem (s : State) (f : Cal → Cal) : (s.updCal f).mem = s.mem := rfl
@[simp] theorem updCal_bs (s : State) (f : Cal → Cal) : (s.updCal f).bs = s.bs := rfl
@[simp] theorem updCal_bsFill (s : State) (f : Cal → Cal) : (s.updCal f).bsFill = s.bsFill := rfl
@[simp] theorem updCal_setBits (s : State) (f : Cal → Cal) : (s.updCal f).setBits = s.setBits := rfl
@[simp] theorem updCal_latA (s : State) (f : Cal → Cal) : (s.updCal f).latA = s.latA := rfl
@[simp] theorem updCal_latB (s : State) (f : Cal → Cal) : (s.updCal f).latB = s.latB := rfl
@[simp] theorem updCal_staged (s : State) (f : Cal → Cal) : (s.updCal f).staged = s.staged := rfl
@[simp] theorem updCal_led (s : State) (f : Cal → Cal) : (s.updCal f).led = s.led := rfl
@[simp] theorem updCal_chan (s : State) (f : Cal → Cal) : (s.updCal f).chan = s.chan := rfl
@[simp] theorem updCal_bank (s : State) (f : Cal → Cal) : (s.updCal f).bank = s.bank := rfl
@[simp] theorem updCal_pmc (s : State) (f : Cal → Cal) : (s.updCal f).pmc = s.pmc := rfl
@[simp] theorem updCal_src (s : State) (f : Cal → Cal) : (s.updCal f).src = s.src := rfl
@[simp] theorem updCal_ae (s : State) (f : Cal → Cal) : (s.updCal f).ae = s.ae := rfl
@[simp] theorem updCal_port (s : State) (f : Cal → Cal) : (s.updCal f).port = s.port := rfl
@[simp] theorem updCal_syn (s : State) (f : Cal → Cal) : (s.updCal f).syn = s.syn := rfl
@[simp] theorem updCal_isl (s : State) (f : Cal → Cal) : (s.updCal f).isl = s.isl := rfl
@[simp] theorem updCal_clk (s : State) (f : Cal → Cal) : (s.updCal f).clk = s.clk := rfl
@[simp] theorem updCal_sea (s : State) (f : Cal → Cal) : (s.updCal f).sea = s.sea := rfl
@[simp] theorem updCal_unit (s : State) (f : Cal → Cal) : (s.updCal f).unit = s.unit := rfl
@[simp] theorem updCal_alm (s : State) (f : Cal → Cal) : (s.updCal f).alm = s.alm := rfl
@[simp] theorem updCal_ring (s : State) (f : Cal → Cal) : (s.updCal f).ring = s.ring := rfl
@[simp] theorem updCal_rt (s : State) (f : Cal → Cal) : (s.updCal f).rt = s.rt := rfl
@[simp] theorem updCal_rfReload (s : State) (f : Cal → Cal) : (s.updCal f).rfReload = s.rfReload := rfl
@[simp] theorem updCal_free (s : State) (f : Cal → Cal) : (s.updCal f).free = s.free := rfl
@[simp] theorem updCal_pending (s : State) (f : Cal → Cal) : (s.updCal f).pending = s.pending := rfl
@[simp] theorem updCal_rd (s : State) (f : Cal → Cal) (j : Nat) : (s.updCal f).rd j = s.rd j := rfl
@[simp] theorem updCal_eff (s : State) (f : Cal → Cal) (j : Nat) : (s.updCal f).eff j = s.eff j := rfl
@[simp] theorem updCal_memRd (s : State) (f : Cal → Cal) (j : Nat) : (s.updCal f).memRd j = s.memRd j := rfl
@[simp] theorem updCal_ch (s : State) (f : Cal → Cal) (j : Nat) : (s.updCal f).ch j = s.ch j := rfl
@[simp] theorem updCal_bk (s : State) (f : Cal → Cal) (j : Nat) : (s.updCal f).bk j = s.bk j := rfl
@[simp] theorem updCal_pm (s : State) (f : Cal → Cal) (j : Nat) : (s.updCal f).pm j = s.pm j := rfl
@[simp] theorem updCal_sr (s : State) (f : Cal → Cal) (j : Nat) : (s.updCal f).sr j = s.sr j := rfl
@[simp] theorem updCal_en (s : State) (f : Cal → Cal) (j : Nat) : (s.updCal f).en j = s.en j := rfl
@[simp] theorem updCal_pt (s : State) (f : Cal → Cal) (j : Nat) : (s.updCal f).pt j = s.pt j := rfl
@[simp] theorem updCal_sy (s : State) (f : Cal → Cal) (j : Nat) : (s.updCal f).sy j = s.sy j := rfl
@[simp] theorem updCal_bsRd (s : State) (f : Cal → Cal) (j : Nat) : (s.updCal f).bsRd j = s.bsRd j := rfl
@[simp] theorem updCal_now (s : State) (f : Cal → Cal) : (s.updCal f).now = s.now := rfl
@[simp] theorem updCal_fget (s : State) (f : Cal → Cal) (j : Nat) (g : Fld) : (s.updCal f).fget j g = s.fget j g := rfl
@[simp] theorem updCal_fon (s : State) (f : Cal → Cal) (j : Nat) (g : Fld) : (s.updCal f).fon j g = s.fon j g := rfl
@[simp] theorem updCal_eget (s : State) (f : Cal → Cal) (j : Nat) (g : Fld) : (s.updCal f).eget j g = s.eget j g := rfl
@[simp] theorem updCal_eon (s : State) (f : Cal → Cal) (j : Nat) (g : Fld) : (s.updCal f).eon j g = s.eon j g := rfl

/-! `updAlm` -/

@[simp] theorem updAlm_reg (s : State) (f : Alm → Alm) : (s.updAlm f).reg = s.reg := rfl
@[simp] theorem updAlm_frc (s : State) (f : Alm → Alm) : (s.updAlm f).frc = s.frc := rfl
@[simp] theorem updAlm_mem (s : State) (f : Alm → Alm) : (s.updAlm f).mem = s.mem := rfl
@[simp] theorem updAlm_bs (s : State) (f : Alm → Alm) : (s.updAlm f).bs = s.bs := rfl
@[simp] theorem updAlm_bsFill (s : State) (f : Alm → Alm) : (s.updAlm f).bsFill = s.bsFill := rfl
@[simp] theorem updAlm_setBits (s : State) (f : Alm → Alm) : (s.updAlm f).setBits = s.setBits := rfl
@[simp] theorem updAlm_latA (s : State) (f : Alm → Alm) : (s.updAlm f).latA = s.latA := rfl
@[simp] theorem updAlm_latB (s : State) (f : Alm → Alm) : (s.updAlm f).latB = s.latB := rfl
@[simp] theorem updAlm_staged (s : State) (f : Alm → Alm) : (s.updAlm f).staged = s.staged := rfl
@[simp] theorem updAlm_led (s : State) (f : Alm → Alm) : (s.updAlm f).led = s.led := rfl
@[simp] theorem updAlm_chan (s : State) (f : Alm → Alm) : (s.updAlm f).chan = s.chan := rfl
@[simp] theorem updAlm_bank (s : State) (f : Alm → Alm) : (s.updAlm f).bank = s.bank := rfl
@[simp] theorem updAlm_pmc (s : State) (f : Alm → Alm) : (s.updAlm f).pmc = s.pmc := rfl
@[simp] theorem updAlm_src (s : State) (f : Alm → Alm) : (s.updAlm f).src = s.src := rfl
@[simp] theorem updAlm_ae (s : State) (f : Alm → Alm) : (s.updAlm f).ae = s.ae := rfl
@[simp] theorem updAlm_port (s : State) (f : Alm → Alm) : (s.updAlm f).port = s.port := rfl
@[simp] theorem updAlm_syn (s : State) (f : Alm → Alm) : (s.updAlm f).syn = s.syn := rfl
@[simp] theorem updAlm_isl (s : State) (f : Alm → Alm) : (s.updAlm f).isl = s.isl := rfl
@[simp] theorem updAlm_clk (s : State) (f : Alm → Alm) : (s.updAlm f).clk = s.clk := rfl
@[simp] theorem updAlm_sea (s : State) (f : Alm → Alm) : (s.updAlm f).sea = s.sea := rfl
@[simp] theorem updAlm_unit (s : State) (f : Alm → Alm) : (s.updAlm f).unit = s.unit := rfl
@[simp] theorem updAlm_cal (s : State) (f : Alm → Alm) : (s.updAlm f).cal = s.cal := rfl
@[simp] theorem updAlm_ring (s : State) (f : Alm → Alm) : (s.updAlm f).ring = s.ring := rfl
@[simp] theorem updAlm_rt (s : State) (f : Alm → Alm) : (s.updAlm f).rt = s.rt := rfl
@[simp] theorem updAlm_rfReload (s : State) (f : Alm → Alm) : (s.updAlm f).rfReload = s.rfReload := rfl
@[simp] theorem updAlm_free (s : State) (f : Alm → Alm) : (s.updAlm f).free = s.free := rfl
@[simp] theorem updAlm_pending (s : State) (f : Alm → Alm) : (s.updAlm f).pending = s.pending := rfl
@[simp] theorem updAlm_rd (s : State) (f : Alm → Alm) (j : Nat) : (s.updAlm f).rd j = s.rd j := rfl
@[simp] theorem updAlm_eff (s : State) (f : Alm → Alm) (j : Nat) : (s.updAlm f).eff j = s.eff j := rfl
@[simp] theorem updAlm_memRd (s : State) (f : Alm → Alm) (j : Nat) : (s.updAlm f).memRd j = s.memRd j := rfl
@[simp] theorem updAlm_ch (s : State) (f : Alm → Alm) (j : Nat) : (s.updAlm f).ch j = s.ch j := rfl
@[simp] theorem updAlm_bk (s : State) (f : Alm → Alm) (j : Nat) : (s.updAlm f).bk j = s.bk j := rfl
@[simp] theorem updAlm_pm (s : State) (f : Alm → Alm) (j : Nat) : (s.updAlm f).pm j = s.pm j := rfl
@[simp] theorem updAlm_sr (s : State) (f : Alm → Alm) (j : Nat) : (s.updAlm f).sr j = s.sr j := rfl
@[simp] theorem updAlm_en (s : State) (f : Alm → Alm) (j : Nat) : (s.updAlm f).en j = s.en j := rfl
@[simp] theorem updAlm_pt (s : State) (f : Alm → Alm) (j : Nat) : (s.updAlm f).pt j = s.pt j := rfl
@[simp] theorem updAlm_sy (s : State) (f : Alm → Alm) (j : Nat) : (s.updAlm f).sy j = s.sy j := rfl
@[simp] theorem updAlm_bsRd (s : State) (f : Alm → Alm) (j : Nat) : (s.updAlm f).bsRd j = s.bsRd j := rfl
@[simp] theorem updAlm_now (s : State) (f : Alm → Alm) : (s.updAlm f).now = s.now := rfl
@[simp] theorem updAlm_fget (s : State) (f : Alm → Alm) (j : Nat) (g : Fld) : (s.updAlm f).fget j g = s.fget j g := rfl
@[simp] theorem updAlm_fon (s : State) (f : Alm → Alm) (j : Nat) (g : Fld) : (s.updAlm f).fon j g = s.fon j g := rfl
@[simp] theorem updAlm_eget (s : State) (f : Alm → Alm) (j : Nat) (g : Fld) : (s.updAlm f).eget j g = s.eget j g := rfl
@[simp] theorem updAlm_eon (s : State) (f : Alm → Alm) (j : Nat) (g : Fld) : (s.updAlm f).eon j g = s.eon j g := rfl

/-! `updRing` -/

@[simp] theorem updRing_reg (s : State) (f : Ring → Ring) : (s.updRing f).reg = s.reg := rfl
@[simp] theorem updRing_frc (s : State) (f : Ring → Ring) : (s.updRing f).frc = s.frc := rfl
@[simp] theorem updRing_mem (s : State) (f : Ring → Ring) : (s.updRing f).mem = s.mem := rfl
@[simp] theorem updRing_bs (s : State) (f : Ring → Ring) : (s.updRing f).bs = s.bs := rfl
@[simp] theorem updRing_bsFill (s : State) (f : Ring → Ring) : (s.updRing f).bsFill = s.bsFill := rfl
@[simp] theorem updRing_setBits (s : State) (f : Ring → Ring) : (s.updRing f).setBits = s.setBits := rfl
@[simp] theorem updRing_latA (s : State) (f : Ring → Ring) : (s.updRing f).latA = s.latA := rfl
@[simp] theorem updRing_latB (s : State) (f : Ring → Ring) : (s.updRing f).latB = s.latB := rfl
@[simp] theorem updRing_staged (s : State) (f : Ring → Ring) : (s.updRing f).staged = s.staged := rfl
@[simp] theorem updRing_led (s : State) (f : Ring → Ring) : (s.updRing f).led = s.led := rfl
@[simp] theorem updRing_chan (s : State) (f : Ring → Ring) : (s.updRing f).chan = s.chan := rfl
@[simp] theorem updRing_bank (s : State) (f : Ring → Ring) : (s.updRing f).bank = s.bank := rfl
@[simp] theorem updRing_pmc (s : State) (f : Ring → Ring) : (s.updRing f).pmc = s.pmc := rfl
@[simp] theorem updRing_src (s : State) (f : Ring → Ring) : (s.updRing f).src = s.src := rfl
@[simp] theorem updRing_ae (s : State) (f : Ring → Ring) : (s.updRing f).ae = s.ae := rfl
@[simp] theorem updRing_port (s : State) (f : Ring → Ring) : (s.updRing f).port = s.port := rfl
@[simp] theorem updRing_syn (s : State) (f : Ring → Ring) : (s.updRing f).syn = s.syn := rfl
@[simp] theorem updRing_isl (s : State) (f : Ring → Ring) : (s.updRing f).isl = s.isl := rfl
@[simp] theorem updRing_clk (s : State) (f : Ring → Ring) : (s.updRing f).clk = s.clk := rfl
@[simp] theorem updRing_sea (s : State) (f : Ring → Ring) : (s.updRing f).sea = s.sea := rfl
@[simp] theorem updRing_unit (s : State) (f : Ring → Ring) : (s.updRing f).unit = s.unit := rfl
@[simp] theorem updRing_cal (s : State) (f : Ring → Ring) : (s.updRing f).cal = s.cal := rfl
@[simp] theorem updRing_alm (s : State) (f : Ring → Ring) : (s.updRing f).alm = s.alm := rfl
@[simp] theorem updRing_rt (s : State) (f : Ring → Ring) : (s.updRing f).rt = s.rt := rfl
@[simp] theorem updRing_rfReload (s : State) (f : Ring → Ring) : (s.updRing f).rfReload = s.rfReload := rfl
@[simp] theorem updRing_free (s : State) (f : Ring → Ring) : (s.updRing f).free = s.free := rfl
@[simp] theorem updRing_pending (s : State) (f : Ring → Ring) : (s.updRing f).pending = s.pending := rfl
@[simp] theorem updRing_rd (s : State) (f : Ring → Ring) (j : Nat) : (s.updRing f).rd j = s.rd j := rfl
@[simp] theorem updRing_eff (s : State) (f : Ring → Ring) (j : Nat) : (s.updRing f).eff j = s.eff j := rfl
@[simp] theorem updRing_memRd (s : State) (f : Ring → Ring) (j : Nat) : (s.updRing f).memRd j = s.memRd j := rfl
@[simp] theorem updRing_ch (s : State) (f : Ring → Ring) (j : Nat) : (s.updRing f).ch j = s.ch j := rfl
@[simp] theorem updRing_bk (s : State) (f : Ring → Ring) (j : Nat) : (s.updRing f).bk j = s.bk j := rfl
@[simp] theorem updRing_pm (s : State) (f : Ring → Ring) (j : Nat) : (s.updRing f).pm j = s.pm j := rfl
@[simp] theorem updRing_sr (s : State) (f : Ring → Ring) (j : Nat) : (s.updRing f).sr j = s.sr j := rfl
@[simp] theorem updRing_en (s : State) (f : Ring → Ring) (j : Nat) : (s.updRing f).en j = s.en j := rfl
@[simp] theorem updRing_pt (s : State) (f : Ring → Ring) (j : Nat) : (s.updRing f).pt j = s.pt j := rfl
@[simp] theorem updRing_sy (s : State) (f : Ring → Ring) (j : Nat) : (s.updRing f).sy j = s.sy j := rfl
@[simp] theorem updRing_bsRd (s : State) (f : Ring → Ring) (j : Nat) : (s.updRing f).bsRd j = s.bsRd j := rfl
@[simp] theorem updRing_now (s : State) (f : Ring → Ring) : (s.updRing f).now = s.now := rfl
@[simp] theorem updRing_fget (s : State) (f : Ring → Ring) (j : Nat) (g : Fld) : (s.updRing f).fget j g = s.fget j g := rfl
@[simp] theorem updRing_fon (s : State) (f : Ring → Ring) (j : Nat) (g : Fld) : (s.updRing f).fon j g = s.fon j g := rfl
@[simp] theorem updRing_eget (s : State) (f : Ring → Ring) (j : Nat) (g : Fld) : (s.updRing f).eget j g = s.eget j g := rfl
@[simp] theorem updRing_eon (s : State) (f : Ring → Ring) (j : Nat) (g : Fld) : (s.updRing f).eon j g = s.eon j g := rfl

/-! `updRt` -/

@[simp] theorem updRt_reg (s : State) (f : Router → Router) : (s.updRt f).reg = s.reg := rfl
@[simp] theorem updRt_frc (s : State) (f : Router → Router) : (s.updRt f).frc = s.frc := rfl
@[simp] theorem updRt_mem (s : State) (f : Router → Router) : (s.updRt f).mem = s.mem := rfl
@[simp] theorem updRt_bs (s : State) (f : Router → Router) : (s.updRt f).bs = s.bs := rfl
@[simp] theorem updRt_bsFill (s : State) (f : Router → Router) : (s.updRt f).bsFill = s.bsFill := rfl
@[simp] theorem updRt_setBits (s : State) (f : Router → Router) : (s.updRt f).setBits = s.setBits := rfl
@[simp] theorem updRt_latA (s : State) (f : Router → Router) : (s.updRt f).latA = s.latA := rfl
@[simp] theorem updRt_latB (s : State) (f : Router → Router) : (s.updRt f).latB = s.latB := rfl
@[simp] theorem updRt_staged (s : State) (f : Router → Router) : (s.updRt f).staged = s.staged := rfl
@[simp] theorem updRt_led (s : State) (f : Router → Router) : (s.updRt f).led = s.led := rfl
@[simp] theorem updRt_chan (s : State) (f : Router → Router) : (s.updRt f).chan = s.chan := rfl
@[simp] theorem updRt_bank (s : State) (f : Router → Router) : (s.updRt f).bank = s.bank := rfl
@[simp] theorem updRt_pmc (s : State) (f : Router → Router) : (s.updRt f).pmc = s.pmc := rfl
@[simp] theorem updRt_src (s : State) (f : Router → Router) : (s.updRt f).src = s.src := rfl
@[simp] theorem updRt_ae (s : State) (f : Router → Router) : (s.updRt f).ae = s.ae := rfl
@[simp] theorem updRt_port (s : State) (f : Router → Router) : (s.updRt f).port = s.port := rfl
@[simp] theorem updRt_syn (s : State) (f : Router → Router) : (s.updRt f).syn = s.syn := rfl
@[simp] theorem updRt_isl (s : State) (f : Router → Router) : (s.updRt f).isl = s.isl := rfl
@[simp] theorem updRt_clk (s : State) (f : Router → Router) : (s.updRt f).clk = s.clk := rfl
@[simp] theorem updRt_sea (s : State) (f : Router → Router) : (s.updRt f).sea = s.sea := rfl
@[simp] theorem updRt_unit (s : State) (f : Router → Router) : (s.updRt f).unit = s.unit := rfl
@[simp] theorem updRt_cal (s : State) (f : Router → Router) : (s.updRt f).cal = s.cal := rfl
@[simp] theorem updRt_alm (s : State) (f : Router → Router) : (s.updRt f).alm = s.alm := rfl
@[simp] theorem updRt_ring (s : State) (f : Router → Router) : (s.updRt f).ring = s.ring := rfl
@[simp] theorem updRt_rfReload (s : State) (f : Router → Router) : (s.updRt f).rfReload = s.rfReload := rfl
@[simp] theorem updRt_free (s : State) (f : Router → Router) : (s.updRt f).free = s.free := rfl
@[simp] theorem updRt_pending (s : State) (f : Router → Router) : (s.updRt f).pending = s.pending := rfl
@[simp] theorem updRt_rd (s : State) (f : Router → Router) (j : Nat) : (s.updRt f).rd j = s.rd j := rfl
@[simp] theorem updRt_eff (s : State) (f : Router → Router) (j : Nat) : (s.updRt f).eff j = s.eff j := rfl
@[simp] theorem updRt_memRd (s : State) (f : Router → Router) (j : Nat) : (s.updRt f).memRd j = s.memRd j := rfl
@[simp] theorem updRt_ch (s : State) (f : Router → Router) (j : Nat) : (s.updRt f).ch j = s.ch j := rfl
@[simp] theorem updRt_bk (s : State) (f : Router → Router) (j : Nat) : (s.updRt f).bk j = s.bk j := rfl
@[simp] theorem updRt_pm (s : State) (f : Router → Router) (j : Nat) : (s.updRt f).pm j = s.pm j := rfl
@[simp] theorem updRt_sr (s : State) (f : Router → Router) (j : Nat) : (s.updRt f).sr j = s.sr j := rfl
@[simp] theorem updRt_en (s : State) (f : Router → Router) (j : Nat) : (s.updRt f).en j = s.en j := rfl
@[simp] theorem updRt_pt (s : State) (f : Router → Router) (j : Nat) : (s.updRt f).pt j = s.pt j := rfl
@[simp] theorem updRt_sy (s : State) (f : Router → Router) (j : Nat) : (s.updRt f).sy j = s.sy j := rfl
@[simp] theorem updRt_bsRd (s : State) (f : Router → Router) (j : Nat) : (s.updRt f).bsRd j = s.bsRd j := rfl
@[simp] theorem updRt_now (s : State) (f : Router → Router) : (s.updRt f).now = s.now := rfl
@[simp] theorem updRt_fget (s : State) (f : Router → Router) (j : Nat) (g : Fld) : (s.updRt f).fget j g = s.fget j g := rfl
@[simp] theorem updRt_fon (s : State) (f : Router → Router) (j : Nat) (g : Fld) : (s.updRt f).fon j g = s.fon j g := rfl
@[simp] theorem updRt_eget (s : State) (f : Router → Router) (j : Nat) (g : Fld) : (s.updRt f).eget j g = s.eget j g := rfl
@[simp] theorem updRt_eon (s : State) (f : Router → Router) (j : Nat) (g : Fld) : (s.updRt f).eon j g = s.eon j g := rfl

/-! `updIsl` -/

@[simp] theorem updIsl_reg (s : State) (f : Island → Island) : (s.updIsl f).reg = s.reg := rfl
@[simp] theorem updIsl_frc (s : State) (f : Island → Island) : (s.updIsl f).frc = s.frc := rfl
@[simp] theorem updIsl_mem (s : State) (f : Island → Island) : (s.updIsl f).mem = s.mem := rfl
@[simp] theorem updIsl_bs (s : State) (f : Island → Island) : (s.updIsl f).bs = s.bs := rfl
@[simp] theorem updIsl_bsFill (s : State) (f : Island → Island) : (s.updIsl f).bsFill = s.bsFill := rfl
@[simp] theorem updIsl_setBits (s : State) (f : Island → Island) : (s.updIsl f).setBits = s.setBits := rfl
@[simp] theorem updIsl_latA (s : State) (f : Island → Island) : (s.updIsl f).latA = s.latA := rfl
@[simp] theorem updIsl_latB (s : State) (f : Island → Island) : (s.updIsl f).latB = s.latB := rfl
@[simp] theorem updIsl_staged (s : State) (f : Island → Island) : (s.updIsl f).staged = s.staged := rfl
@[simp] theorem updIsl_led (s : State) (f : Island → Island) : (s.updIsl f).led = s.led := rfl
@[simp] theorem updIsl_chan (s : State) (f : Island → Island) : (s.updIsl f).chan = s.chan := rfl
@[simp] theorem updIsl_bank (s : State) (f : Island → Island) : (s.updIsl f).bank = s.bank := rfl
@[simp] theorem updIsl_pmc (s : State) (f : Island → Island) : (s.updIsl f).pmc = s.pmc := rfl
@[simp] theorem updIsl_src (s : State) (f : Island → Island) : (s.updIsl f).src = s.src := rfl
@[simp] theorem updIsl_ae (s : State) (f : Island → Island) : (s.updIsl f).ae = s.ae := rfl
@[simp] theorem updIsl_port (s : State) (f : Island → Island) : (s.updIsl f).port = s.port := rfl
@[simp] theorem updIsl_syn (s : State) (f : Island → Island) : (s.updIsl f).syn = s.syn := rfl
@[simp] theorem updIsl_clk (s : State) (f : Island → Island) : (s.updIsl f).clk = s.clk := rfl
@[simp] theorem updIsl_sea (s : State) (f : Island → Island) : (s.updIsl f).sea = s.sea := rfl
@[simp] theorem updIsl_unit (s : State) (f : Island → Island) : (s.updIsl f).unit = s.unit := rfl
@[simp] theorem updIsl_cal (s : State) (f : Island → Island) : (s.updIsl f).cal = s.cal := rfl
@[simp] theorem updIsl_alm (s : State) (f : Island → Island) : (s.updIsl f).alm = s.alm := rfl
@[simp] theorem updIsl_ring (s : State) (f : Island → Island) : (s.updIsl f).ring = s.ring := rfl
@[simp] theorem updIsl_rt (s : State) (f : Island → Island) : (s.updIsl f).rt = s.rt := rfl
@[simp] theorem updIsl_rfReload (s : State) (f : Island → Island) : (s.updIsl f).rfReload = s.rfReload := rfl
@[simp] theorem updIsl_free (s : State) (f : Island → Island) : (s.updIsl f).free = s.free := rfl
@[simp] theorem updIsl_pending (s : State) (f : Island → Island) : (s.updIsl f).pending = s.pending := rfl
@[simp] theorem updIsl_rd (s : State) (f : Island → Island) (j : Nat) : (s.updIsl f).rd j = s.rd j := rfl
@[simp] theorem updIsl_eff (s : State) (f : Island → Island) (j : Nat) : (s.updIsl f).eff j = s.eff j := rfl
@[simp] theorem updIsl_memRd (s : State) (f : Island → Island) (j : Nat) : (s.updIsl f).memRd j = s.memRd j := rfl
@[simp] theorem updIsl_ch (s : State) (f : Island → Island) (j : Nat) : (s.updIsl f).ch j = s.ch j := rfl
@[simp] theorem updIsl_bk (s : State) (f : Island → Island) (j : Nat) : (s.updIsl f).bk j = s.bk j := rfl
@[simp] theorem updIsl_pm (s : State) (f : Island → Island) (j : Nat) : (s.updIsl f).pm j = s.pm j := rfl
@[simp] theorem updIsl_sr (s : State) (f : Island → Island) (j : Nat) : (s.updIsl f).sr j = s.sr j := rfl
@[simp] theorem updIsl_en (s : State) (f : Island → Island) (j : Nat) : (s.updIsl f).en j = s.en j := rfl
@[simp] theorem updIsl_pt (s : State) (f : Island → Island) (j : Nat) : (s.updIsl f).pt j = s.pt j := rfl
@[simp] theorem updIsl_sy (s : State) (f : Island → Island) (j : Nat) : (s.updIsl f).sy j = s.sy j := rfl
@[simp] theorem updIsl_bsRd (s : State) (f : Island → Island) (j : Nat) : (s.updIsl f).bsRd j = s.bsRd j := rfl
@[simp] theorem updIsl_now (s : State) (f : Island → Island) : (s.updIsl f).now = s.now := rfl
@[simp] theorem updIsl_fget (s : State) (f : Island → Island) (j : Nat) (g : Fld) : (s.updIsl f).fget j g = s.fget j g := rfl
@[simp] theorem updIsl_fon (s : State) (f : Island → Island) (j : Nat) (g : Fld) : (s.updIsl f).fon j g = s.fon j g := rfl
@[simp] theorem updIsl_eget (s : State) (f : Island → Island) (j : Nat) (g : Fld) : (s.updIsl f).eget j g = s.eget j g := rfl
@[simp] theorem updIsl_eon (s : State) (f : Island → Island) (j : Nat) (g : Fld) : (s.updIsl f).eon j g = s.eon j g := rfl

/-! `updLed` -/

@[simp] theorem updLed_reg (s : State) (f : Ledger → Ledger) : (s.updLed f).reg = s.reg := rfl
@[simp] theorem updLed_frc (s : State) (f : Ledger → Ledger) : (s.updLed f).frc = s.frc := rfl
@[simp] theorem updLed_mem (s : State) (f : Ledger → Ledger) : (s.updLed f).mem = s.mem := rfl
@[simp] theorem updLed_bs (s : State) (f : Ledger → Ledger) : (s.updLed f).bs = s.bs := rfl
@[simp] theorem updLed_bsFill (s : State) (f : Ledger → Ledger) : (s.updLed f).bsFill = s.bsFill := rfl
@[simp] theorem updLed_setBits (s : State) (f : Ledger → Ledger) : (s.updLed f).setBits = s.setBits := rfl
@[simp] theorem updLed_latA (s : State) (f : Ledger → Ledger) : (s.updLed f).latA = s.latA := rfl
@[simp] theorem updLed_latB (s : State) (f : Ledger → Ledger) : (s.updLed f).latB = s.latB := rfl
@[simp] theorem updLed_staged (s : State) (f : Ledger → Ledger) : (s.updLed f).staged = s.staged := rfl
@[simp] theorem updLed_chan (s : State) (f : Ledger → Ledger) : (s.updLed f).chan = s.chan := rfl
@[simp] theorem updLed_bank (s : State) (f : Ledger → Ledger) : (s.updLed f).bank = s.bank := rfl
@[simp] theorem updLed_pmc (s : State) (f : Ledger → Ledger) : (s.updLed f).pmc = s.pmc := rfl
@[simp] theorem updLed_src (s : State) (f : Ledger → Ledger) : (s.updLed f).src = s.src := rfl
@[simp] theorem updLed_ae (s : State) (f : Ledger → Ledger) : (s.updLed f).ae = s.ae := rfl
@[simp] theorem updLed_port (s : State) (f : Ledger → Ledger) : (s.updLed f).port = s.port := rfl
@[simp] theorem updLed_syn (s : State) (f : Ledger → Ledger) : (s.updLed f).syn = s.syn := rfl
@[simp] theorem updLed_isl (s : State) (f : Ledger → Ledger) : (s.updLed f).isl = s.isl := rfl
@[simp] theorem updLed_clk (s : State) (f : Ledger → Ledger) : (s.updLed f).clk = s.clk := rfl
@[simp] theorem updLed_sea (s : State) (f : Ledger → Ledger) : (s.updLed f).sea = s.sea := rfl
@[simp] theorem updLed_unit (s : State) (f : Ledger → Ledger) : (s.updLed f).unit = s.unit := rfl
@[simp] theorem updLed_cal (s : State) (f : Ledger → Ledger) : (s.updLed f).cal = s.cal := rfl
@[simp] theorem updLed_alm (s : State) (f : Ledger → Ledger) : (s.updLed f).alm = s.alm := rfl
@[simp] theorem updLed_ring (s : State) (f : Ledger → Ledger) : (s.updLed f).ring = s.ring := rfl
@[simp] theorem updLed_rt (s : State) (f : Ledger → Ledger) : (s.updLed f).rt = s.rt := rfl
@[simp] theorem updLed_rfReload (s : State) (f : Ledger → Ledger) : (s.updLed f).rfReload = s.rfReload := rfl
@[simp] theorem updLed_free (s : State) (f : Ledger → Ledger) : (s.updLed f).free = s.free := rfl
@[simp] theorem updLed_pending (s : State) (f : Ledger → Ledger) : (s.updLed f).pending = s.pending := rfl
@[simp] theorem updLed_rd (s : State) (f : Ledger → Ledger) (j : Nat) : (s.updLed f).rd j = s.rd j := rfl
@[simp] theorem updLed_eff (s : State) (f : Ledger → Ledger) (j : Nat) : (s.updLed f).eff j = s.eff j := rfl
@[simp] theorem updLed_memRd (s : State) (f : Ledger → Ledger) (j : Nat) : (s.updLed f).memRd j = s.memRd j := rfl
@[simp] theorem updLed_ch (s : State) (f : Ledger → Ledger) (j : Nat) : (s.updLed f).ch j = s.ch j := rfl
@[simp] theorem updLed_bk (s : State) (f : Ledger → Ledger) (j : Nat) : (s.updLed f).bk j = s.bk j := rfl
@[simp] theorem updLed_pm (s : State) (f : Ledger → Ledger) (j : Nat) : (s.updLed f).pm j = s.pm j := rfl
@[simp] theorem updLed_sr (s : State) (f : Ledger → Ledger) (j : Nat) : (s.updLed f).sr j = s.sr j := rfl
@[simp] theorem updLed_en (s : State) (f : Ledger → Ledger) (j : Nat) : (s.updLed f).en j = s.en j := rfl
@[simp] theorem updLed_pt (s : State) (f : Ledger → Ledger) (j : Nat) : (s.updLed f).pt j = s.pt j := rfl
@[simp] theorem updLed_sy (s : State) (f : Ledger → Ledger) (j : Nat) : (s.updLed f).sy j = s.sy j := rfl
@[simp] theorem updLed_bsRd (s : State) (f : Ledger → Ledger) (j : Nat) : (s.updLed f).bsRd j = s.bsRd j := rfl
@[simp] theorem updLed_now (s : State) (f : Ledger → Ledger) : (s.updLed f).now = s.now := rfl
@[simp] theorem updLed_fget (s : State) (f : Ledger → Ledger) (j : Nat) (g : Fld) : (s.updLed f).fget j g = s.fget j g := rfl
@[simp] theorem updLed_fon (s : State) (f : Ledger → Ledger) (j : Nat) (g : Fld) : (s.updLed f).fon j g = s.fon j g := rfl
@[simp] theorem updLed_eget (s : State) (f : Ledger → Ledger) (j : Nat) (g : Fld) : (s.updLed f).eget j g = s.eget j g := rfl
@[simp] theorem updLed_eon (s : State) (f : Ledger → Ledger) (j : Nat) (g : Fld) : (s.updLed f).eon j g = s.eon j g := rfl

/-! `updStaged` -/

@[simp] theorem updStaged_reg (s : State) (f : List Staged → List Staged) : (s.updStaged f).reg = s.reg := rfl
@[simp] theorem updStaged_frc (s : State) (f : List Staged → List Staged) : (s.updStaged f).frc = s.frc := rfl
@[simp] theorem updStaged_mem (s : State) (f : List Staged → List Staged) : (s.updStaged f).mem = s.mem := rfl
@[simp] theorem updStaged_bs (s : State) (f : List Staged → List Staged) : (s.updStaged f).bs = s.bs := rfl
@[simp] theorem updStaged_bsFill (s : State) (f : List Staged → List Staged) : (s.updStaged f).bsFill = s.bsFill := rfl
@[simp] theorem updStaged_setBits (s : State) (f : List Staged → List Staged) : (s.updStaged f).setBits = s.setBits := rfl
@[simp] theorem updStaged_latA (s : State) (f : List Staged → List Staged) : (s.updStaged f).latA = s.latA := rfl
@[simp] theorem updStaged_latB (s : State) (f : List Staged → List Staged) : (s.updStaged f).latB = s.latB := rfl
@[simp] theorem updStaged_led (s : State) (f : List Staged → List Staged) : (s.updStaged f).led = s.led := rfl
@[simp] theorem updStaged_chan (s : State) (f : List Staged → List Staged) : (s.updStaged f).chan = s.chan := rfl
@[simp] theorem updStaged_bank (s : State) (f : List Staged → List Staged) : (s.updStaged f).bank = s.bank := rfl
@[simp] theorem updStaged_pmc (s : State) (f : List Staged → List Staged) : (s.updStaged f).pmc = s.pmc := rfl
@[simp] theorem updStaged_src (s : State) (f : List Staged → List Staged) : (s.updStaged f).src = s.src := rfl
@[simp] theorem updStaged_ae (s : State) (f : List Staged → List Staged) : (s.updStaged f).ae = s.ae := rfl
@[simp] theorem updStaged_port (s : State) (f : List Staged → List Staged) : (s.updStaged f).port = s.port := rfl
@[simp] theorem updStaged_syn (s : State) (f : List Staged → List Staged) : (s.updStaged f).syn = s.syn := rfl
@[simp] theorem updStaged_isl (s : State) (f : List Staged → List Staged) : (s.updStaged f).isl = s.isl := rfl
@[simp] theorem updStaged_clk (s : State) (f : List Staged → List Staged) : (s.updStaged f).clk = s.clk := rfl
@[simp] theorem updStaged_sea (s : State) (f : List Staged → List Staged) : (s.updStaged f).sea = s.sea := rfl
@[simp] theorem updStaged_unit (s : State) (f : List Staged → List Staged) : (s.updStaged f).unit = s.unit := rfl
@[simp] theorem updStaged_cal (s : State) (f : List Staged → List Staged) : (s.updStaged f).cal = s.cal := rfl
@[simp] theorem updStaged_alm (s : State) (f : List Staged → List Staged) : (s.updStaged f).alm = s.alm := rfl
@[simp] theorem updStaged_ring (s : State) (f : List Staged → List Staged) : (s.updStaged f).ring = s.ring := rfl
@[simp] theorem updStaged_rt (s : State) (f : List Staged → List Staged) : (s.updStaged f).rt = s.rt := rfl
@[simp] theorem updStaged_rfReload (s : State) (f : List Staged → List Staged) : (s.updStaged f).rfReload = s.rfReload := rfl
@[simp] theorem updStaged_free (s : State) (f : List Staged → List Staged) : (s.updStaged f).free = s.free := rfl
@[simp] theorem updStaged_pending (s : State) (f : List Staged → List Staged) : (s.updStaged f).pending = s.pending := rfl
@[simp] theorem updStaged_rd (s : State) (f : List Staged → List Staged) (j : Nat) : (s.updStaged f).rd j = s.rd j := rfl
@[simp] theorem updStaged_eff (s : State) (f : List Staged → List Staged) (j : Nat) : (s.updStaged f).eff j = s.eff j := rfl
@[simp] theorem updStaged_memRd (s : State) (f : List Staged → List Staged) (j : Nat) : (s.updStaged f).memRd j = s.memRd j := rfl
@[simp] theorem updStaged_ch (s : State) (f : List Staged → List Staged) (j : Nat) : (s.updStaged f).ch j = s.ch j := rfl
@[simp] theorem updStaged_bk (s : State) (f : List Staged → List Staged) (j : Nat) : (s.updStaged f).bk j = s.bk j := rfl
@[simp] theorem updStaged_pm (s : State) (f : List Staged → List Staged) (j : Nat) : (s.updStaged f).pm j = s.pm j := rfl
@[simp] theorem updStaged_sr (s : State) (f : List Staged → List Staged) (j : Nat) : (s.updStaged f).sr j = s.sr j := rfl
@[simp] theorem updStaged_en (s : State) (f : List Staged → List Staged) (j : Nat) : (s.updStaged f).en j = s.en j := rfl
@[simp] theorem updStaged_pt (s : State) (f : List Staged → List Staged) (j : Nat) : (s.updStaged f).pt j = s.pt j := rfl
@[simp] theorem updStaged_sy (s : State) (f : List Staged → List Staged) (j : Nat) : (s.updStaged f).sy j = s.sy j := rfl
@[simp] theorem updStaged_bsRd (s : State) (f : List Staged → List Staged) (j : Nat) : (s.updStaged f).bsRd j = s.bsRd j := rfl
@[simp] theorem updStaged_now (s : State) (f : List Staged → List Staged) : (s.updStaged f).now = s.now := rfl
@[simp] theorem updStaged_fget (s : State) (f : List Staged → List Staged) (j : Nat) (g : Fld) : (s.updStaged f).fget j g = s.fget j g := rfl
@[simp] theorem updStaged_fon (s : State) (f : List Staged → List Staged) (j : Nat) (g : Fld) : (s.updStaged f).fon j g = s.fon j g := rfl
@[simp] theorem updStaged_eget (s : State) (f : List Staged → List Staged) (j : Nat) (g : Fld) : (s.updStaged f).eget j g = s.eget j g := rfl
@[simp] theorem updStaged_eon (s : State) (f : List Staged → List Staged) (j : Nat) (g : Fld) : (s.updStaged f).eon j g = s.eon j g := rfl

/-! `freshN` -/

@[simp] theorem freshN_reg (s : State) (n : Nat) : (s.freshN n).reg = s.reg := rfl
@[simp] theorem freshN_frc (s : State) (n : Nat) : (s.freshN n).frc = s.frc := rfl
@[simp] theorem freshN_mem (s : State) (n : Nat) : (s.freshN n).mem = s.mem := rfl
@[simp] theorem freshN_bs (s : State) (n : Nat) : (s.freshN n).bs = s.bs := rfl
@[simp] theorem freshN_bsFill (s : State) (n : Nat) : (s.freshN n).bsFill = s.bsFill := rfl
@[simp] theorem freshN_setBits (s : State) (n : Nat) : (s.freshN n).setBits = s.setBits := rfl
@[simp] theorem freshN_latA (s : State) (n : Nat) : (s.freshN n).latA = s.latA := rfl
@[simp] theorem freshN_latB (s : State) (n : Nat) : (s.freshN n).latB = s.latB := rfl
@[simp] theorem freshN_staged (s : State) (n : Nat) : (s.freshN n).staged = s.staged := rfl
@[simp] theorem freshN_led (s : State) (n : Nat) : (s.freshN n).led = s.led := rfl
@[simp] theorem freshN_chan (s : State) (n : Nat) : (s.freshN n).chan = s.chan := rfl
@[simp] theorem freshN_bank (s : State) (n : Nat) : (s.freshN n).bank = s.bank := rfl
@[simp] theorem freshN_pmc (s : State) (n : Nat) : (s.freshN n).pmc = s.pmc := rfl
@[simp] theorem freshN_src (s : State) (n : Nat) : (s.freshN n).src = s.src := rfl
@[simp] theorem freshN_ae (s : State) (n : Nat) : (s.freshN n).ae = s.ae := rfl
@[simp] theorem freshN_port (s : State) (n : Nat) : (s.freshN n).port = s.port := rfl
@[simp] theorem freshN_syn (s : State) (n : Nat) : (s.freshN n).syn = s.syn := rfl
@[simp] theorem freshN_isl (s : State) (n : Nat) : (s.freshN n).isl = s.isl := rfl
@[simp] theorem freshN_clk (s : State) (n : Nat) : (s.freshN n).clk = s.clk := rfl
@[simp] theorem freshN_sea (s : State) (n : Nat) : (s.freshN n).sea = s.sea := rfl
@[simp] theorem freshN_unit (s : State) (n : Nat) : (s.freshN n).unit = s.unit := rfl
@[simp] theorem freshN_cal (s : State) (n : Nat) : (s.freshN n).cal = s.cal := rfl
@[simp] theorem freshN_alm (s : State) (n : Nat) : (s.freshN n).alm = s.alm := rfl
@[simp] theorem freshN_ring (s : State) (n : Nat) : (s.freshN n).ring = s.ring := rfl
@[simp] theorem freshN_rt (s : State) (n : Nat) : (s.freshN n).rt = s.rt := rfl
@[simp] theorem freshN_rfReload (s : State) (n : Nat) : (s.freshN n).rfReload = s.rfReload := rfl
@[simp] theorem freshN_pending (s : State) (n : Nat) : (s.freshN n).pending = s.pending := rfl
@[simp] theorem freshN_rd (s : State) (n : Nat) (j : Nat) : (s.freshN n).rd j = s.rd j := rfl
@[simp] theorem freshN_eff (s : State) (n : Nat) (j : Nat) : (s.freshN n).eff j = s.eff j := rfl
@[simp] theorem freshN_memRd (s : State) (n : Nat) (j : Nat) : (s.freshN n).memRd j = s.memRd j := rfl
@[simp] theorem freshN_ch (s : State) (n : Nat) (j : Nat) : (s.freshN n).ch j = s.ch j := rfl
@[simp] theorem freshN_bk (s : State) (n : Nat) (j : Nat) : (s.freshN n).bk j = s.bk j := rfl
@[simp] theorem freshN_pm (s : State) (n : Nat) (j : Nat) : (s.freshN n).pm j = s.pm j := rfl
@[simp] theorem freshN_sr (s : State) (n : Nat) (j : Nat) : (s.freshN n).sr j = s.sr j := rfl
@[simp] theorem freshN_en (s : State) (n : Nat) (j : Nat) : (s.freshN n).en j = s.en j := rfl
@[simp] theorem freshN_pt (s : State) (n : Nat) (j : Nat) : (s.freshN n).pt j = s.pt j := rfl
@[simp] theorem freshN_sy (s : State) (n : Nat) (j : Nat) : (s.freshN n).sy j = s.sy j := rfl
@[simp] theorem freshN_bsRd (s : State) (n : Nat) (j : Nat) : (s.freshN n).bsRd j = s.bsRd j := rfl
@[simp] theorem freshN_now (s : State) (n : Nat) : (s.freshN n).now = s.now := rfl
@[simp] theorem freshN_fget (s : State) (n : Nat) (j : Nat) (g : Fld) : (s.freshN n).fget j g = s.fget j g := rfl
@[simp] theorem freshN_fon (s : State) (n : Nat) (j : Nat) (g : Fld) : (s.freshN n).fon j g = s.fon j g := rfl
@[simp] theorem freshN_eget (s : State) (n : Nat) (j : Nat) (g : Fld) : (s.freshN n).eget j g = s.eget j g := rfl
@[simp] theorem freshN_eon (s : State) (n : Nat) (j : Nat) (g : Fld) : (s.freshN n).eon j g = s.eon j g := rfl

/-! `setRfReload` -/

@[simp] theorem setRfReload_reg (s : State) (b : Bool) : (s.setRfReload b).reg = s.reg := rfl
@[simp] theorem setRfReload_frc (s : State) (b : Bool) : (s.setRfReload b).frc = s.frc := rfl
@[simp] theorem setRfReload_mem (s : State) (b : Bool) : (s.setRfReload b).mem = s.mem := rfl
@[simp] theorem setRfReload_bs (s : State) (b : Bool) : (s.setRfReload b).bs = s.bs := rfl
@[simp] theorem setRfReload_bsFill (s : State) (b : Bool) : (s.setRfReload b).bsFill = s.bsFill := rfl
@[simp] theorem setRfReload_setBits (s : State) (b : Bool) : (s.setRfReload b).setBits = s.setBits := rfl
@[simp] theorem setRfReload_latA (s : State) (b : Bool) : (s.setRfReload b).latA = s.latA := rfl
@[simp] theorem setRfReload_latB (s : State) (b : Bool) : (s.setRfReload b).latB = s.latB := rfl
@[simp] theorem setRfReload_staged (s : State) (b : Bool) : (s.setRfReload b).staged = s.staged := rfl
@[simp] theorem setRfReload_led (s : State) (b : Bool) : (s.setRfReload b).led = s.led := rfl
@[simp] theorem setRfReload_chan (s : State) (b : Bool) : (s.setRfReload b).chan = s.chan := rfl
@[simp] theorem setRfReload_bank (s : State) (b : Bool) : (s.setRfReload b).bank = s.bank := rfl
@[simp] theorem setRfReload_pmc (s : State) (b : Bool) : (s.setRfReload b).pmc = s.pmc := rfl
@[simp] theorem setRfReload_src (s : State) (b : Bool) : (s.setRfReload b).src = s.src := rfl
@[simp] theorem setRfReload_ae (s : State) (b : Bool) : (s.setRfReload b).ae = s.ae := rfl
@[simp] theorem setRfReload_port (s : State) (b : Bool) : (s.setRfReload b).port = s.port := rfl
@[simp] theorem setRfReload_syn (s : State) (b : Bool) : (s.setRfReload b).syn = s.syn := rfl
@[simp] theorem setRfReload_isl (s : State) (b : Bool) : (s.setRfReload b).isl = s.isl := rfl
@[simp] theorem setRfReload_clk (s : State) (b : Bool) : (s.setRfReload b).clk = s.clk := rfl
@[simp] theorem setRfReload_sea (s : State) (b : Bool) : (s.setRfReload b).sea = s.sea := rfl
@[simp] theorem setRfReload_unit (s : State) (b : Bool) : (s.setRfReload b).unit = s.unit := rfl
@[simp] theorem setRfReload_cal (s : State) (b : Bool) : (s.setRfReload b).cal = s.cal := rfl
@[simp] theorem setRfReload_alm (s : State) (b : Bool) : (s.setRfReload b).alm = s.alm := rfl
@[simp] theorem setRfReload_ring (s : State) (b : Bool) : (s.setRfReload b).ring = s.ring := rfl
@[simp] theorem setRfReload_rt (s : State) (b : Bool) : (s.setRfReload b).rt = s.rt := rfl
@[simp] theorem setRfReload_free (s : State) (b : Bool) : (s.setRfReload b).free = s.free := rfl
@[simp] theorem setRfReload_pending (s : State) (b : Bool) : (s.setRfReload b).pending = s.pending := rfl
@[simp] theorem setRfReload_rd (s : State) (b : Bool) (j : Nat) : (s.setRfReload b).rd j = s.rd j := rfl
@[simp] theorem setRfReload_eff (s : State) (b : Bool) (j : Nat) : (s.setRfReload b).eff j = s.eff j := rfl
@[simp] theorem setRfReload_memRd (s : State) (b : Bool) (j : Nat) : (s.setRfReload b).memRd j = s.memRd j := rfl
@[simp] theorem setRfReload_ch (s : State) (b : Bool) (j : Nat) : (s.setRfReload b).ch j = s.ch j := rfl
@[simp] theorem setRfReload_bk (s : State) (b : Bool) (j : Nat) : (s.setRfReload b).bk j = s.bk j := rfl
@[simp] theorem setRfReload_pm (s : State) (b : Bool) (j : Nat) : (s.setRfReload b).pm j = s.pm j := rfl
@[simp] theorem setRfReload_sr (s : State) (b : Bool) (j : Nat) : (s.setRfReload b).sr j = s.sr j := rfl
@[simp] theorem setRfReload_en (s : State) (b : Bool) (j : Nat) : (s.setRfReload b).en j = s.en j := rfl
@[simp] theorem setRfReload_pt (s : State) (b : Bool) (j : Nat) : (s.setRfReload b).pt j = s.pt j := rfl
@[simp] theorem setRfReload_sy (s : State) (b : Bool) (j : Nat) : (s.setRfReload b).sy j = s.sy j := rfl
@[simp] theorem setRfReload_bsRd (s : State) (b : Bool) (j : Nat) : (s.setRfReload b).bsRd j = s.bsRd j := rfl
@[simp] theorem setRfReload_now (s : State) (b : Bool) : (s.setRfReload b).now = s.now := rfl
@[simp] theorem setRfReload_fget (s : State) (b : Bool) (j : Nat) (g : Fld) : (s.setRfReload b).fget j g = s.fget j g := rfl
@[simp] theorem setRfReload_fon (s : State) (b : Bool) (j : Nat) (g : Fld) : (s.setRfReload b).fon j g = s.fon j g := rfl
@[simp] theorem setRfReload_eget (s : State) (b : Bool) (j : Nat) (g : Fld) : (s.setRfReload b).eget j g = s.eget j g := rfl
@[simp] theorem setRfReload_eon (s : State) (b : Bool) (j : Nat) (g : Fld) : (s.setRfReload b).eon j g = s.eon j g := rfl

/-! `event` -/

@[simp] theorem event_reg (s : State) (c i k : Nat) (t : Stamp) (x : Nat) : (s.event c i k t x).reg = s.reg := rfl
@[simp] theorem event_frc (s : State) (c i k : Nat) (t : Stamp) (x : Nat) : (s.event c i k t x).frc = s.frc := rfl
@[simp] theorem event_mem (s : State) (c i k : Nat) (t : Stamp) (x : Nat) : (s.event c i k t x).mem = s.mem := rfl
@[simp] theorem event_bs (s : State) (c i k : Nat) (t : Stamp) (x : Nat) : (s.event c i k t x).bs = s.bs := rfl
@[simp] theorem event_bsFill (s : State) (c i k : Nat) (t : Stamp) (x : Nat) : (s.event c i k t x).bsFill = s.bsFill := rfl
@[simp] theorem event_setBits (s : State) (c i k : Nat) (t : Stamp) (x : Nat) : (s.event c i k t x).setBits = s.setBits := rfl
@[simp] theorem event_latA (s : State) (c i k : Nat) (t : Stamp) (x : Nat) : (s.event c i k t x).latA = s.latA := rfl
@[simp] theorem event_latB (s : State) (c i k : Nat) (t : Stamp) (x : Nat) : (s.event c i k t x).latB = s.latB := rfl
@[simp] theorem event_staged (s : State) (c i k : Nat) (t : Stamp) (x : Nat) : (s.event c i k t x).staged = s.staged := rfl
@[simp] theorem event_led (s : State) (c i k : Nat) (t : Stamp) (x : Nat) : (s.event c i k t x).led = s.led := rfl
@[simp] theorem event_chan (s : State) (c i k : Nat) (t : Stamp) (x : Nat) : (s.event c i k t x).chan = s.chan := rfl
@[simp] theorem event_bank (s : State) (c i k : Nat) (t : Stamp) (x : Nat) : (s.event c i k t x).bank = s.bank := rfl
@[simp] theorem event_pmc (s : State) (c i k : Nat) (t : Stamp) (x : Nat) : (s.event c i k t x).pmc = s.pmc := rfl
@[simp] theorem event_src (s : State) (c i k : Nat) (t : Stamp) (x : Nat) : (s.event c i k t x).src = s.src := rfl
@[simp] theorem event_ae (s : State) (c i k : Nat) (t : Stamp) (x : Nat) : (s.event c i k t x).ae = s.ae := rfl
@[simp] theorem event_port (s : State) (c i k : Nat) (t : Stamp) (x : Nat) : (s.event c i k t x).port = s.port := rfl
@[simp] theorem event_syn (s : State) (c i k : Nat) (t : Stamp) (x : Nat) : (s.event c i k t x).syn = s.syn := rfl
@[simp] theorem event_isl (s : State) (c i k : Nat) (t : Stamp) (x : Nat) : (s.event c i k t x).isl = s.isl := rfl
@[simp] theorem event_clk (s : State) (c i k : Nat) (t : Stamp) (x : Nat) : (s.event c i k t x).clk = s.clk := rfl
@[simp] theorem event_sea (s : State) (c i k : Nat) (t : Stamp) (x : Nat) : (s.event c i k t x).sea = s.sea := rfl
@[simp] theorem event_unit (s : State) (c i k : Nat) (t : Stamp) (x : Nat) : (s.event c i k t x).unit = s.unit := rfl
@[simp] theorem event_cal (s : State) (c i k : Nat) (t : Stamp) (x : Nat) : (s.event c i k t x).cal = s.cal := rfl
@[simp] theorem event_alm (s : State) (c i k : Nat) (t : Stamp) (x : Nat) : (s.event c i k t x).alm = s.alm := rfl
@[simp] theorem event_ring (s : State) (c i k : Nat) (t : Stamp) (x : Nat) : (s.event c i k t x).ring = s.ring := rfl
@[simp] theorem event_rfReload (s : State) (c i k : Nat) (t : Stamp) (x : Nat) : (s.event c i k t x).rfReload = s.rfReload := rfl
@[simp] theorem event_free (s : State) (c i k : Nat) (t : Stamp) (x : Nat) : (s.event c i k t x).free = s.free := rfl
@[simp] theorem event_pending (s : State) (c i k : Nat) (t : Stamp) (x : Nat) : (s.event c i k t x).pending = s.pending := rfl
@[simp] theorem event_rd (s : State) (c i k : Nat) (t : Stamp) (x : Nat) (j : Nat) : (s.event c i k t x).rd j = s.rd j := rfl
@[simp] theorem event_eff (s : State) (c i k : Nat) (t : Stamp) (x : Nat) (j : Nat) : (s.event c i k t x).eff j = s.eff j := rfl
@[simp] theorem event_memRd (s : State) (c i k : Nat) (t : Stamp) (x : Nat) (j : Nat) : (s.event c i k t x).memRd j = s.memRd j := rfl
@[simp] theorem event_ch (s : State) (c i k : Nat) (t : Stamp) (x : Nat) (j : Nat) : (s.event c i k t x).ch j = s.ch j := rfl
@[simp] theorem event_bk (s : State) (c i k : Nat) (t : Stamp) (x : Nat) (j : Nat) : (s.event c i k t x).bk j = s.bk j := rfl
@[simp] theorem event_pm (s : State) (c i k : Nat) (t : Stamp) (x : Nat) (j : Nat) : (s.event c i k t x).pm j = s.pm j := rfl
@[simp] theorem event_sr (s : State) (c i k : Nat) (t : Stamp) (x : Nat) (j : Nat) : (s.event c i k t x).sr j = s.sr j := rfl
@[simp] theorem event_en (s : State) (c i k : Nat) (t : Stamp) (x : Nat) (j : Nat) : (s.event c i k t x).en j = s.en j := rfl
@[simp] theorem event_pt (s : State) (c i k : Nat) (t : Stamp) (x : Nat) (j : Nat) : (s.event c i k t x).pt j = s.pt j := rfl
@[simp] theorem event_sy (s : State) (c i k : Nat) (t : Stamp) (x : Nat) (j : Nat) : (s.event c i k t x).sy j = s.sy j := rfl
@[simp] theorem event_bsRd (s : State) (c i k : Nat) (t : Stamp) (x : Nat) (j : Nat) : (s.event c i k t x).bsRd j = s.bsRd j := rfl
@[simp] theorem event_now (s : State) (c i k : Nat) (t : Stamp) (x : Nat) : (s.event c i k t x).now = s.now := rfl
@[simp] theorem event_fget (s : State) (c i k : Nat) (t : Stamp) (x : Nat) (j : Nat) (g : Fld) : (s.event c i k t x).fget j g = s.fget j g := rfl
@[simp] theorem event_fon (s : State) (c i k : Nat) (t : Stamp) (x : Nat) (j : Nat) (g : Fld) : (s.event c i k t x).fon j g = s.fon j g := rfl
@[simp] theorem event_eget (s : State) (c i k : Nat) (t : Stamp) (x : Nat) (j : Nat) (g : Fld) : (s.event c i k t x).eget j g = s.eget j g := rfl
@[simp] theorem event_eon (s : State) (c i k : Nat) (t : Stamp) (x : Nat) (j : Nat) (g : Fld) : (s.event c i k t x).eon j g = s.eon j g := rfl

/-! `eventT` -/

@[simp] theorem eventT_reg (s : State) (c i k : Nat) : (s.eventT c i k).reg = s.reg := rfl
@[simp] theorem eventT_frc (s : State) (c i k : Nat) : (s.eventT c i k).frc = s.frc := rfl
@[simp] theorem eventT_mem (s : State) (c i k : Nat) : (s.eventT c i k).mem = s.mem := rfl
@[simp] theorem eventT_bs (s : State) (c i k : Nat) : (s.eventT c i k).bs = s.bs := rfl
@[simp] theorem eventT_bsFill (s : State) (c i k : Nat) : (s.eventT c i k).bsFill = s.bsFill := rfl
@[simp] theorem eventT_setBits (s : State) (c i k : Nat) : (s.eventT c i k).setBits = s.setBits := rfl
@[simp] theorem eventT_latA (s : State) (c i k : Nat) : (s.eventT c i k).latA = s.latA := rfl
@[simp] theorem eventT_latB (s : State) (c i k : Nat) : (s.eventT c i k).latB = s.latB := rfl
@[simp] theorem eventT_staged (s : State) (c i k : Nat) : (s.eventT c i k).staged = s.staged := rfl
@[simp] theorem eventT_led (s : State) (c i k : Nat) : (s.eventT c i k).led = s.led := rfl
@[simp] theorem eventT_chan (s : State) (c i k : Nat) : (s.eventT c i k).chan = s.chan := rfl
@[simp] theorem eventT_bank (s : State) (c i k : Nat) : (s.eventT c i k).bank = s.bank := rfl
@[simp] theorem eventT_pmc (s : State) (c i k : Nat) : (s.eventT c i k).pmc = s.pmc := rfl
@[simp] theorem eventT_src (s : State) (c i k : Nat) : (s.eventT c i k).src = s.src := rfl
@[simp] theorem eventT_ae (s : State) (c i k : Nat) : (s.eventT c i k).ae = s.ae := rfl
@[simp] theorem eventT_port (s : State) (c i k : Nat) : (s.eventT c i k).port = s.port := rfl
@[simp] theorem eventT_syn (s : State) (c i k : Nat) : (s.eventT c i k).syn = s.syn := rfl
@[simp] theorem eventT_isl (s : State) (c i k : Nat) : (s.eventT c i k).isl = s.isl := rfl
@[simp] theorem eventT_clk (s : State) (c i k : Nat) : (s.eventT c i k).clk = s.clk := rfl
@[simp] theorem eventT_sea (s : State) (c i k : Nat) : (s.eventT c i k).sea = s.sea := rfl
@[simp] theorem eventT_unit (s : State) (c i k : Nat) : (s.eventT c i k).unit = s.unit := rfl
@[simp] theorem eventT_cal (s : State) (c i k : Nat) : (s.eventT c i k).cal = s.cal := rfl
@[simp] theorem eventT_alm (s : State) (c i k : Nat) : (s.eventT c i k).alm = s.alm := rfl
@[simp] theorem eventT_ring (s : State) (c i k : Nat) : (s.eventT c i k).ring = s.ring := rfl
@[simp] theorem eventT_rfReload (s : State) (c i k : Nat) : (s.eventT c i k).rfReload = s.rfReload := rfl
@[simp] theorem eventT_free (s : State) (c i k : Nat) : (s.eventT c i k).free = s.free := rfl
@[simp] theorem eventT_pending (s : State) (c i k : Nat) : (s.eventT c i k).pending = s.pending := rfl
@[simp] theorem eventT_rd (s : State) (c i k : Nat) (j : Nat) : (s.eventT c i k).rd j = s.rd j := rfl
@[simp] theorem eventT_eff (s : State) (c i k : Nat) (j : Nat) : (s.eventT c i k).eff j = s.eff j := rfl
@[simp] theorem eventT_memRd (s : State) (c i k : Nat) (j : Nat) : (s.eventT c i k).memRd j = s.memRd j := rfl
@[simp] theorem eventT_ch (s : State) (c i k : Nat) (j : Nat) : (s.eventT c i k).ch j = s.ch j := rfl
@[simp] theorem eventT_bk (s : State) (c i k : Nat) (j : Nat) : (s.eventT c i k).bk j = s.bk j := rfl
@[simp] theorem eventT_pm (s : State) (c i k : Nat) (j : Nat) : (s.eventT c i k).pm j = s.pm j := rfl
@[simp] theorem eventT_sr (s : State) (c i k : Nat) (j : Nat) : (s.eventT c i k).sr j = s.sr j := rfl
@[simp] theorem eventT_en (s : State) (c i k : Nat) (j : Nat) : (s.eventT c i k).en j = s.en j := rfl
@[simp] theorem eventT_pt (s : State) (c i k : Nat) (j : Nat) : (s.eventT c i k).pt j = s.pt j := rfl
@[simp] theorem eventT_sy (s : State) (c i k : Nat) (j : Nat) : (s.eventT c i k).sy j = s.sy j := rfl
@[simp] theorem eventT_bsRd (s : State) (c i k : Nat) (j : Nat) : (s.eventT c i k).bsRd j = s.bsRd j := rfl
@[simp] theorem eventT_now (s : State) (c i k : Nat) : (s.eventT c i k).now = s.now := rfl
@[simp] theorem eventT_fget (s : State) (c i k : Nat) (j : Nat) (g : Fld) : (s.eventT c i k).fget j g = s.fget j g := rfl
@[simp] theorem eventT_fon (s : State) (c i k : Nat) (j : Nat) (g : Fld) : (s.eventT c i k).fon j g = s.fon j g := rfl
@[simp] theorem eventT_eget (s : State) (c i k : Nat) (j : Nat) (g : Fld) : (s.eventT c i k).eget j g = s.eget j g := rfl
@[simp] theorem eventT_eon (s : State) (c i k : Nat) (j : Nat) (g : Fld) : (s.eventT c i k).eon j g = s.eon j g := rfl

/-! ### What the updates set -/

@[simp] theorem wr_rd_same (s : State) (a : Nat) (v : Word) : (s.wr a v).rd a = v := Tab.get_set_same ..
theorem wr_rd_ne (s : State) (a : Nat) (v : Word) {b : Nat} (h : b ≠ a) : (s.wr a v).rd b = s.rd b :=
  Tab.get_set_ne _ _ _ h
@[simp] theorem setEff_eff_same (s : State) (a : Nat) (v : Word) : (s.setEff a v).eff a = v := Tab.get_set_same ..
theorem setEff_eff_ne (s : State) (a : Nat) (v : Word) {b : Nat} (h : b ≠ a) : (s.setEff a v).eff b = s.eff b :=
  Tab.get_set_ne _ _ _ h
@[simp] theorem memWr_memRd_same (s : State) (a : Nat) (v : Word) : (s.memWr a v).memRd a = v := Tab.get_set_same ..
theorem memWr_memRd_ne (s : State) (a : Nat) (v : Word) {b : Nat} (h : b ≠ a) : (s.memWr a v).memRd b = s.memRd b :=
  Tab.get_set_ne _ _ _ h
@[simp] theorem bsPut_bsRd_same (s : State) (a : Nat) (v : Word) : (s.bsPut a v).bsRd a = v := Tab.get_set_same ..
theorem bsPut_bsRd_ne (s : State) (a : Nat) (v : Word) {b : Nat} (h : b ≠ a) : (s.bsPut a v).bsRd b = s.bsRd b :=
  Tab.get_set_ne _ _ _ h
theorem fset_rd_ne (s : State) (a : Nat) (f : Fld) (v : Nat) {b : Nat} (h : b ≠ a) : (s.fset a f v).rd b = s.rd b :=
  Tab.get_set_ne _ _ _ h
theorem inc_rd_ne (s : State) (a : Nat) (f : Fld) (v : Nat) {b : Nat} (h : b ≠ a) : (s.inc a f v).rd b = s.rd b :=
  Tab.get_set_ne _ _ _ h
theorem w1c_rd_ne (s : State) (a : Nat) (v : Word) {b : Nat} (h : b ≠ a) : (s.w1c a v).rd b = s.rd b :=
  Tab.get_set_ne _ _ _ h
theorem fbit_rd_ne (s : State) (a : Nat) (f : Fld) (v : Bool) {b : Nat} (h : b ≠ a) : (s.fbit a f v).rd b = s.rd b :=
  Tab.get_set_ne _ _ _ h
theorem raise_rd_ne (s : State) (a : Nat) (v : Word) {b : Nat} (h : b ≠ a) : (s.raise a v).rd b = s.rd b :=
  Tab.get_set_ne _ _ _ h
theorem raiseF_rd_ne (s : State) (a : Nat) (f : Fld) {b : Nat} (h : b ≠ a) : (s.raiseF a f).rd b = s.rd b :=
  Tab.get_set_ne _ _ _ h
theorem putBoth_rd_ne (s : State) (a : Nat) (v : Word) {b : Nat} (h : b ≠ a) : (s.putBoth a v).rd b = s.rd b :=
  Tab.get_set_ne _ _ _ h
theorem putBoth_eff_ne (s : State) (a : Nat) (v : Word) {b : Nat} (h : b ≠ a) : (s.putBoth a v).eff b = s.eff b :=
  Tab.get_set_ne _ _ _ h
theorem fsetBoth_rd_ne (s : State) (a : Nat) (f : Fld) (v : Nat) {b : Nat} (h : b ≠ a) : (s.fsetBoth a f v).rd b = s.rd b :=
  Tab.get_set_ne _ _ _ h
theorem fsetBoth_eff_ne (s : State) (a : Nat) (f : Fld) (v : Nat) {b : Nat} (h : b ≠ a) : (s.fsetBoth a f v).eff b = s.eff b :=
  Tab.get_set_ne _ _ _ h
@[simp] theorem fset_rd_same (s : State) (a : Nat) (f : Fld) (v : Nat) : (s.fset a f v).rd a = f.put (s.rd a) v := Tab.get_set_same ..
@[simp] theorem fbit_rd_same (s : State) (a : Nat) (f : Fld) (v : Bool) : (s.fbit a f v).rd a = f.put (s.rd a) (bit01 v) :=
  Tab.get_set_same ..
@[simp] theorem inc_rd_same (s : State) (a : Nat) (f : Fld) (n : Nat) :
    (s.inc a f n).rd a = f.put (s.rd a) (satAdd f (s.fget a f) n) := Tab.get_set_same ..
@[simp] theorem raise_rd_same (s : State) (a : Nat) (v : Word) : (s.raise a v).rd a = s.rd a ||| v := Tab.get_set_same ..
@[simp] theorem raiseF_rd_same (s : State) (a : Nat) (f : Fld) : (s.raiseF a f).rd a = s.rd a ||| f.mask := Tab.get_set_same ..
@[simp] theorem w1c_rd_same (s : State) (a : Nat) (v : Word) :
    (s.w1c a v).rd a = s.rd a &&& ~~~(v &&& ~~~Tab.get (fun _ => 0) s.setBits a) := Tab.get_set_same ..
@[simp] theorem putBoth_rd_same (s : State) (a : Nat) (v : Word) : (s.putBoth a v).rd a = v := Tab.get_set_same ..
@[simp] theorem putBoth_eff_same (s : State) (a : Nat) (v : Word) : (s.putBoth a v).eff a = v := Tab.get_set_same ..
@[simp] theorem fsetBoth_rd_same (s : State) (a : Nat) (f : Fld) (v : Nat) : (s.fsetBoth a f v).rd a = f.put (s.rd a) v :=
  Tab.get_set_same ..
@[simp] theorem fsetBoth_eff_same (s : State) (a : Nat) (f : Fld) (v : Nat) :
    (s.fsetBoth a f v).eff a = f.put (s.eff a) v := Tab.get_set_same ..
@[simp] theorem updCh_ch_same (s : State) (a : Nat) (f : Chan → Chan) : (s.updCh a f).ch a = f (s.ch a) := Tab.get_set_same ..
theorem updCh_ch_ne (s : State) (a : Nat) (f : Chan → Chan) {b : Nat} (h : b ≠ a) : (s.updCh a f).ch b = s.ch b :=
  Tab.get_set_ne _ _ _ h
@[simp] theorem updBk_bk_same (s : State) (a : Nat) (f : Bank → Bank) : (s.updBk a f).bk a = f (s.bk a) := Tab.get_set_same ..
theorem updBk_bk_ne (s : State) (a : Nat) (f : Bank → Bank) {b : Nat} (h : b ≠ a) : (s.updBk a f).bk b = s.bk b :=
  Tab.get_set_ne _ _ _ h
@[simp] theorem updPm_pm_same (s : State) (a : Nat) (f : Pmc → Pmc) : (s.updPm a f).pm a = f (s.pm a) := Tab.get_set_same ..
theorem updPm_pm_ne (s : State) (a : Nat) (f : Pmc → Pmc) {b : Nat} (h : b ≠ a) : (s.updPm a f).pm b = s.pm b :=
  Tab.get_set_ne _ _ _ h
@[simp] theorem updSr_sr_same (s : State) (a : Nat) (f : Src → Src) : (s.updSr a f).sr a = f (s.sr a) := Tab.get_set_same ..
theorem updSr_sr_ne (s : State) (a : Nat) (f : Src → Src) {b : Nat} (h : b ≠ a) : (s.updSr a f).sr b = s.sr b :=
  Tab.get_set_ne _ _ _ h
@[simp] theorem updEn_en_same (s : State) (a : Nat) (f : Ae → Ae) : (s.updEn a f).en a = f (s.en a) := Tab.get_set_same ..
theorem updEn_en_ne (s : State) (a : Nat) (f : Ae → Ae) {b : Nat} (h : b ≠ a) : (s.updEn a f).en b = s.en b :=
  Tab.get_set_ne _ _ _ h
@[simp] theorem updPt_pt_same (s : State) (a : Nat) (f : Port → Port) : (s.updPt a f).pt a = f (s.pt a) := Tab.get_set_same ..
theorem updPt_pt_ne (s : State) (a : Nat) (f : Port → Port) {b : Nat} (h : b ≠ a) : (s.updPt a f).pt b = s.pt b :=
  Tab.get_set_ne _ _ _ h
@[simp] theorem updSy_sy_same (s : State) (a : Nat) (f : Syn → Syn) : (s.updSy a f).sy a = f (s.sy a) := Tab.get_set_same ..
theorem updSy_sy_ne (s : State) (a : Nat) (f : Syn → Syn) {b : Nat} (h : b ≠ a) : (s.updSy a f).sy b = s.sy b :=
  Tab.get_set_ne _ _ _ h
@[simp] theorem updClk_clk (s : State) (f : Clk → Clk) : (s.updClk f).clk = f s.clk := rfl
@[simp] theorem updSea_sea (s : State) (f : Season → Season) : (s.updSea f).sea = f s.sea := rfl
@[simp] theorem updUnit_unit (s : State) (f : UnitSt → UnitSt) : (s.updUnit f).unit = f s.unit := rfl
@[simp] theorem updCal_cal (s : State) (f : Cal → Cal) : (s.updCal f).cal = f s.cal := rfl
@[simp] theorem updAlm_alm (s : State) (f : Alm → Alm) : (s.updAlm f).alm = f s.alm := rfl
@[simp] theorem updRing_ring (s : State) (f : Ring → Ring) : (s.updRing f).ring = f s.ring := rfl
@[simp] theorem updRt_rt (s : State) (f : Router → Router) : (s.updRt f).rt = f s.rt := rfl
@[simp] theorem updIsl_isl (s : State) (f : Island → Island) : (s.updIsl f).isl = f s.isl := rfl
@[simp] theorem updLed_led (s : State) (f : Ledger → Ledger) : (s.updLed f).led = f s.led := rfl
@[simp] theorem updStaged_staged (s : State) (f : List Staged → List Staged) : (s.updStaged f).staged = f s.staged := rfl
@[simp] theorem freshN_free (s : State) (n : Nat) : (s.freshN n).free = s.free + n := rfl
@[simp] theorem setRfReload_rfReload (s : State) (b : Bool) : (s.setRfReload b).rfReload = b := rfl
@[simp] theorem memDrop_memRd (s : State) (p : Nat → Bool) (a : Nat) :
    (s.memDrop p).memRd a = if p a then 0 else s.memRd a := Tab.get_drop ..
@[simp] theorem event_events (s : State) (c i k : Nat) (t : Stamp) (x : Nat) : (s.event c i k t x).rt.events
    = s.rt.events ++ [⟨c, i, k, s.now, t, x⟩] := rfl

end Sys2Proof.Machine.State
end

