-- ==== Sys2Proof/Laws/Fields.lean ====
section
/-! SUPPORT. What a field of a register reads after an update, and which bits of the registers an update leaves. -/

namespace Sys2Proof.Machine

/-! ### Words and masks -/

theorem Fld.getLsbD_mask (f : Fld) (i : Nat) :
    f.mask.getLsbD i = (decide (i < 36) && decide (f.lo ≤ i) && decide (i < f.lo + f.width)) := by
  unfold Fld.mask
  rw [BitVec.getLsbD_shiftLeft, BitVec.getLsbD_ofNat, Nat.testBit_two_pow_sub_one]
  rw [Bool.eq_iff_iff]; simp; omega

theorem Fld.on_or_mask (f : Fld) (x : Word) (h : f.lo + f.width ≤ 36) (hw : 0 < f.width) : f.on (x ||| f.mask) = true := by
  unfold Fld.on
  have : (f.get (x ||| f.mask)).testBit 0 = true := by
    rw [Fld.testBit_get, BitVec.getLsbD_or, Fld.getLsbD_mask]
    simp; omega
  simp; intro h0; rw [h0] at this; simp at this

theorem Fld.get_or_mask_ne (f g : Fld) (x : Word) (h : f.lo + f.width ≤ g.lo ∨ g.lo + g.width ≤ f.lo) :
    g.get (x ||| f.mask) = g.get x := by
  apply Nat.eq_of_testBit_eq; intro i
  rw [Fld.testBit_get, Fld.testBit_get, BitVec.getLsbD_or, Fld.getLsbD_mask]
  by_cases hi : i < g.width
  · have : (decide (g.lo + i < 36) && decide (f.lo ≤ g.lo + i) && decide (g.lo + i < f.lo + f.width)) = false := by
      simp; omega
    rw [this]; simp
  · simp [hi]

theorem Fld.on_or_mask_ne (f g : Fld) (x : Word) (h : f.lo + f.width ≤ g.lo ∨ g.lo + g.width ≤ f.lo) :
    g.on (x ||| f.mask) = g.on x := by unfold Fld.on; rw [Fld.get_or_mask_ne f g x h]

/-- A field write leaves the bits outside a mask that covers the field. -/
theorem Fld.put_outside (f : Fld) (x m : Word) (v : Nat) (h : f.mask &&& ~~~m = 0) : f.put x v &&& ~~~m = x &&& ~~~m := by
  apply BitVec.eq_of_getLsbD_eq; intro i hi
  have hb := congrArg (fun w => BitVec.getLsbD w i) h
  simp only [BitVec.getLsbD_and, BitVec.getLsbD_not, Fld.getLsbD_mask, hi, decide_true, Bool.true_and] at hb
  simp only [BitVec.getLsbD_and, BitVec.getLsbD_not, Fld.getLsbD_put, hi, decide_true, Bool.true_and]
  split
  · rename_i hc; simp [hc.1, hc.2] at hb; simp [hb]
  · rfl

theorem or_outside (x k m : Word) (h : k &&& ~~~m = 0) : (x ||| k) &&& ~~~m = x &&& ~~~m := by
  apply BitVec.eq_of_getLsbD_eq; intro i hi
  have hb := congrArg (fun w => BitVec.getLsbD w i) h
  simp only [BitVec.getLsbD_and, BitVec.getLsbD_or, BitVec.getLsbD_not] at hb ⊢
  revert hb
  cases x.getLsbD i <;> cases k.getLsbD i <;> cases m.getLsbD i <;> simp_all

theorem clear_outside (x k j m : Word) (h : k &&& ~~~m = 0) : (x &&& ~~~(k &&& ~~~j)) &&& ~~~m = x &&& ~~~m := by
  apply BitVec.eq_of_getLsbD_eq; intro i hi
  have hb := congrArg (fun w => BitVec.getLsbD w i) h
  simp only [BitVec.getLsbD_and, BitVec.getLsbD_not] at hb ⊢
  revert hb
  cases x.getLsbD i <;> cases k.getLsbD i <;> cases m.getLsbD i <;> cases j.getLsbD i <;> simp_all

/-! ### A field after an update -/

namespace State

theorem fget_wr (s : State) (a b : Nat) (v : Word) (g : Fld) : (s.wr a v).fget b g = if b = a then g.get v else s.fget b g := by
  unfold State.fget; split
  · subst_vars; rw [wr_rd_same]
  · rw [wr_rd_ne _ _ _ (by assumption)]

theorem fget_fset (s : State) (a b v : Nat) (f g : Fld) :
    (s.fset a f v).fget b g = if b = a then g.get (f.put (s.rd a) v) else s.fget b g := fget_wr ..

theorem fget_fbit (s : State) (a b : Nat) (v : Bool) (f g : Fld) :
    (s.fbit a f v).fget b g = if b = a then g.get (f.put (s.rd a) (bit01 v)) else s.fget b g := fget_wr ..

theorem fon_wr (s : State) (a b : Nat) (v : Word) (g : Fld) : (s.wr a v).fon b g = if b = a then g.on v else s.fon b g := by
  unfold State.fon; split
  · subst_vars; rw [wr_rd_same]
  · rw [wr_rd_ne _ _ _ (by assumption)]

theorem fon_fset (s : State) (a b v : Nat) (f g : Fld) :
    (s.fset a f v).fon b g = if b = a then g.on (f.put (s.rd a) v) else s.fon b g := fon_wr ..

theorem fon_fbit (s : State) (a b : Nat) (v : Bool) (f g : Fld) :
    (s.fbit a f v).fon b g = if b = a then g.on (f.put (s.rd a) (bit01 v)) else s.fon b g := fon_wr ..

theorem fon_raiseF (s : State) (a b : Nat) (f g : Fld) :
    (s.raiseF a f).fon b g = if b = a then g.on (s.rd a ||| f.mask) else s.fon b g := fon_wr ..

theorem fget_raiseF (s : State) (a b : Nat) (f g : Fld) :
    (s.raiseF a f).fget b g = if b = a then g.get (s.rd a ||| f.mask) else s.fget b g := fget_wr ..

/-- A field holds what was set, within its width. -/
theorem fget_fset_same (s : State) (a v : Nat) (f : Fld) (h : f.lo + f.width ≤ 36) (hv : v < 2 ^ f.width) :
    (s.fset a f v).fget a f = v := by rw [fget_fset, if_pos rfl, Fld.get_put_same f _ v h hv]

theorem fget_fset_ne (s : State) (a b v : Nat) (f g : Fld) (h : f.lo + f.width ≤ g.lo ∨ g.lo + g.width ≤ f.lo) :
    (s.fset a f v).fget b g = s.fget b g := by
  rw [fget_fset]; split
  · subst_vars; exact Fld.get_put_ne f g _ v h
  · rfl

theorem fget_fbit_ne (s : State) (a b : Nat) (v : Bool) (f g : Fld) (h : f.lo + f.width ≤ g.lo ∨ g.lo + g.width ≤ f.lo) :
    (s.fbit a f v).fget b g = s.fget b g := fget_fset_ne s a b _ f g h

theorem fon_fset_ne (s : State) (a b v : Nat) (f g : Fld) (h : f.lo + f.width ≤ g.lo ∨ g.lo + g.width ≤ f.lo) :
    (s.fset a f v).fon b g = s.fon b g := congrArg (· != 0) (fget_fset_ne s a b v f g h)

theorem fon_fbit_same (s : State) (a : Nat) (v : Bool) (f : Fld) (h : f.lo + f.width ≤ 36) (hw : 0 < f.width) :
    (s.fbit a f v).fon a f = v := by rw [fon_fbit, if_pos rfl, Fld.on_put f _ v h hw]

theorem fon_fbit_ne (s : State) (a b : Nat) (v : Bool) (f g : Fld) (h : f.lo + f.width ≤ g.lo ∨ g.lo + g.width ≤ f.lo) :
    (s.fbit a f v).fon b g = s.fon b g := fon_fset_ne s a b _ f g h

theorem fon_raiseF_same (s : State) (a : Nat) (f : Fld) (h : f.lo + f.width ≤ 36) (hw : 0 < f.width) :
    (s.raiseF a f).fon a f = true := by rw [fon_raiseF, if_pos rfl, Fld.on_or_mask f _ h hw]

theorem fon_raiseF_ne (s : State) (a b : Nat) (f g : Fld) (h : f.lo + f.width ≤ g.lo ∨ g.lo + g.width ≤ f.lo) :
    (s.raiseF a f).fon b g = s.fon b g := by
  rw [fon_raiseF]; split
  · subst_vars; exact Fld.on_or_mask_ne f g _ h
  · rfl

theorem fget_raiseF_ne (s : State) (a b : Nat) (f g : Fld) (h : f.lo + f.width ≤ g.lo ∨ g.lo + g.width ≤ f.lo) :
    (s.raiseF a f).fget b g = s.fget b g := by
  rw [fget_raiseF]; split
  · subst_vars; exact Fld.get_or_mask_ne f g _ h
  · rfl

end State

/-! ### The bits that an update leaves -/

namespace RegBits

variable {l : List (Nat × Word)} {s x t u : State}

theorem refl : RegBits l s s := fun _ => rfl

theorem trans (h : RegBits l s t) (k : RegBits l t u) : RegBits l s u := fun a => (k a).trans (h a)

/-- An update that leaves the register words leaves every bit of them. -/
theorem of_reg (hx : RegBits l s x) (e : t.reg = x.reg) : RegBits l s t := fun a => by
  have := hx a; unfold State.rd at this ⊢; rw [e]; exact this

theorem foldl_or (ps : List (Nat × Word)) (m : Word) (i : Nat) :
    (ps.foldl (fun m p => m ||| p.2) m).getLsbD i = (m.getLsbD i || ps.any (fun p => p.2.getLsbD i)) := by
  induction ps generalizing m with
  | nil => simp
  | cons p ps ih => rw [List.foldl_cons, ih]; simp [Bool.or_assoc]

/-- What is covered by an entry of the list is covered by the list. -/
theorem covers {a : Nat} {k m : Word} (hp : (a, m) ∈ l) (hk : k &&& ~~~m = 0) : k &&& ~~~maskAt l a = 0 := by
  apply BitVec.eq_of_getLsbD_eq; intro i hi
  have hb := congrArg (fun w => BitVec.getLsbD w i) hk
  have hm : m.getLsbD i = true → (maskAt l a).getLsbD i = true := fun h => by
    unfold maskAt
    rw [foldl_or, Bool.or_eq_true]; right
    rw [List.any_eq_true]; exact ⟨(a, m), by simp [hp], h⟩
  simp only [BitVec.getLsbD_and, BitVec.getLsbD_not] at hb ⊢
  revert hb hm
  cases k.getLsbD i <;> cases m.getLsbD i <;> cases (maskAt l a).getLsbD i <;> simp_all

theorem of_wr {a : Nat} {v : Word} (hx : RegBits l s x) (e : t.reg = (x.wr a v).reg)
    (h : v &&& ~~~maskAt l a = x.rd a &&& ~~~maskAt l a) : RegBits l s t := by
  refine of_reg (trans hx fun b => ?_) e
  by_cases hb : b = a
  · subst hb; rw [State.wr_rd_same]; exact h
  · rw [State.wr_rd_ne _ _ _ hb]

theorem wr {a : Nat} {v : Word} (hx : RegBits l s x) (hp : wholeReg a ∈ l) : RegBits l s (x.wr a v) := by
  refine of_wr hx rfl ?_
  have h0 := covers hp (k := v) (by simp)
  have h1 := covers hp (k := x.rd a) (by simp)
  rw [h0, h1]

theorem fset {a v : Nat} {f : Fld} {m : Word} (hx : RegBits l s x) (hp : (a, m) ∈ l) (hm : f.mask &&& ~~~m = 0) :
    RegBits l s (x.fset a f v) := of_wr hx rfl (Fld.put_outside f _ _ v (covers hp hm))

theorem fbit {a : Nat} {v : Bool} {f : Fld} {m : Word} (hx : RegBits l s x) (hp : (a, m) ∈ l) (hm : f.mask &&& ~~~m = 0) :
    RegBits l s (x.fbit a f v) := fset hx hp hm

theorem inc {a n : Nat} {f : Fld} {m : Word} (hx : RegBits l s x) (hp : (a, m) ∈ l) (hm : f.mask &&& ~~~m = 0) :
    RegBits l s (x.inc a f n) := fset hx hp hm

theorem fsetBoth {a v : Nat} {f : Fld} {m : Word} (hx : RegBits l s x) (hp : (a, m) ∈ l) (hm : f.mask &&& ~~~m = 0) :
    RegBits l s (x.fsetBoth a f v) := of_reg (fset (v := v) hx hp hm) rfl

theorem raise {a : Nat} {k m : Word} (hx : RegBits l s x) (hp : (a, m) ∈ l) (hm : k &&& ~~~m = 0) :
    RegBits l s (x.raise a k) := of_wr hx rfl (or_outside _ _ _ (covers hp hm))

theorem raiseF {a : Nat} {f : Fld} {m : Word} (hx : RegBits l s x) (hp : (a, m) ∈ l) (hm : f.mask &&& ~~~m = 0) :
    RegBits l s (x.raiseF a f) := raise hx hp hm

theorem w1c {a : Nat} {k m : Word} (hx : RegBits l s x) (hp : (a, m) ∈ l) (hm : k &&& ~~~m = 0) :
    RegBits l s (x.w1c a k) := of_wr hx rfl (clear_outside _ _ _ _ (covers hp hm))

theorem cond {c : Bool} {f : State → State} (hx : RegBits l s x) (h : RegBits l x (f x)) : RegBits l s (x.cond c f) := by
  unfold State.cond; split
  · exact trans hx h
  · exact hx

theorem ite {c : Prop} [Decidable c] (hx : RegBits l s x) (hy : RegBits l s t) : RegBits l s (if c then x else t) := by
  split <;> assumption

/-- A longer list of names says less. -/
theorem mono {k : List (Nat × Word)} (h : RegBits l s t) (hk : ∀ p ∈ l, p ∈ k) : RegBits k s t := by
  intro a
  have h0 := h a
  have hm : ∀ i, (maskAt l a).getLsbD i = true → (maskAt k a).getLsbD i = true := fun i => by
    unfold maskAt
    rw [foldl_or, foldl_or, Bool.or_eq_true, Bool.or_eq_true]
    rintro (h | h)
    · exact .inl h
    · right
      obtain ⟨p, hp, hi⟩ := List.any_eq_true.mp h
      have := List.mem_filter.mp hp
      exact List.any_eq_true.mpr ⟨p, List.mem_filter.mpr ⟨hk _ this.1, this.2⟩, hi⟩
  apply BitVec.eq_of_getLsbD_eq; intro i hi
  have h1 := congrArg (fun w => BitVec.getLsbD w i) h0
  have := hm i
  revert h1 this
  simp only [BitVec.getLsbD_and, BitVec.getLsbD_not, hi, decide_true, Bool.true_and]
  cases (maskAt l a).getLsbD i <;> cases (maskAt k a).getLsbD i <;> simp

theorem maskAt_none {a : Nat} (h : a ∉ l.map (·.1)) : maskAt l a = 0 := by
  unfold maskAt
  rw [List.filter_eq_nil_iff.mpr]
  · rfl
  · intro p hp; simp; intro e; exact h (List.mem_map.mpr ⟨p, hp, e⟩)

/-- A register that the list does not name reads as it did. -/
theorem rd (h : RegBits l s t) {a : Nat} (ha : a ∉ l.map (·.1)) : t.rd a = s.rd a := by
  have := h a
  rw [maskAt_none ha, show (~~~(0 : Word)) = BitVec.allOnes 36 from rfl, BitVec.and_allOnes, BitVec.and_allOnes] at this
  exact this

/-- A field whose bits the list does not name for its register reads as it did. -/
theorem fget (h : RegBits l s t) {a : Nat} {f : Fld} (ha : f.mask &&& maskAt l a = 0) : t.fget a f = s.fget a f := by
  have h0 := h a
  unfold State.fget
  apply Nat.eq_of_testBit_eq; intro i
  rw [Fld.testBit_get, Fld.testBit_get]
  by_cases hi : i < f.width
  · simp only [hi, decide_true, Bool.true_and]
    by_cases h36 : f.lo + i < 36
    · have h1 := congrArg (fun w => BitVec.getLsbD w (f.lo + i)) h0
      have h2 := congrArg (fun w => BitVec.getLsbD w (f.lo + i)) ha
      have h3 : f.lo ≤ f.lo + i := Nat.le_add_right ..
      have h4 : f.lo + i < f.lo + f.width := by omega
      simp only [BitVec.getLsbD_and, BitVec.getLsbD_not, Fld.getLsbD_mask, h36, h3, h4, decide_true, Bool.true_and]
        at h1 h2
      rw [h2] at h1; simpa using h1
    · rw [BitVec.getLsbD_of_ge _ _ (by omega), BitVec.getLsbD_of_ge _ _ (by omega)]
  · simp [hi]

theorem fon (h : RegBits l s t) {a : Nat} {f : Fld} (ha : f.mask &&& maskAt l a = 0) : t.fon a f = s.fon a f :=
  congrArg (· != 0) (fget h ha)

/-- An update of which `Keeps` says that it changes no register word. -/
theorem of_same (hx : RegBits l s x) (h : Part.same .regs x t) : RegBits l s t := of_reg hx h.1

end RegBits

end Sys2Proof.Machine
end

