-- ==== Sys2Proof/Laws/Keeps.lean ====
section
/-! SUPPORT. What every operation of the machine may change, said once per operation. A relation between the state before and
the state after is `Kept` when it is reflexive and transitive; for each part of the state a class says that changes of that part
stay in the relation. The files Laws/Keeps… show for each operation, from what it is made of, that it stays in every relation
that allows the parts it changes: `<operation>_keeps`. So its classes name all that it may change. -/

namespace Sys2Proof.Machine

/-! ### The canonical form, table by table -/

theorem State.wf_iff (s : State) : s.wf = true ↔
    ((Tab.wf resetWord s.reg = true ∧ Tab.wf resetWord s.frc = true ∧ Tab.wf (fun _ => (0 : Word)) s.setBits = true
      ∧ Tab.wf resetWord s.latA = true ∧ Tab.wf resetWord s.latB = true)
    ∧ (Tab.wf (fun _ => (0 : Word)) s.mem = true ∧ Tab.wf (storeDflt s.bsFill) s.bs = true)
    ∧ (Tab.wf (fun _ => ({} : Chan)) s.chan = true ∧ Tab.wf (fun _ => ({} : Bank)) s.bank = true
      ∧ Tab.wf (fun _ => ({} : Pmc)) s.pmc = true ∧ Tab.wf (fun _ => ({} : Src)) s.src = true
      ∧ Tab.wf (fun _ => ({} : Ae)) s.ae = true ∧ Tab.wf (fun _ => ({} : Port)) s.port = true
      ∧ Tab.wf (fun _ => ({} : Syn)) s.syn = true)
    ∧ s.alm.wf = true ∧ s.cal.wf = true ∧ s.rt.wf = true) := by
  simp only [State.wf, State.regsWf, State.memWf, State.recsWf, Bool.and_eq_true, and_assoc]

theorem Alm.wf_iff (k : Alm) : k.wf = true ↔ Tab.wf (fun _ => (0xff : Byte)) k.flash = true
    ∧ Tab.wf (fun _ => (0 : Byte)) k.buf = true ∧ Tab.wf resetWord k.fill = true := by
  simp only [Alm.wf, Bool.and_eq_true, and_assoc]

theorem Cal.wf_iff (c : Cal) : c.wf = true ↔ Tab.wf (fun _ => (0 : Int)) c.coef = true
    ∧ Tab.wf (fun _ => (0 : Int)) c.target = true := by
  simp only [Cal.wf, Bool.and_eq_true]

theorem Alm.wf_of {k l : Alm} (h1 : l.flash = k.flash) (h2 : l.buf = k.buf) (h3 : l.fill = k.fill)
    (h : k.wf = true) : l.wf = true := by
  rw [Alm.wf_iff] at *; rw [h1, h2, h3]; exact h

theorem Alm.foldl_wf {β : Type} (l : List β) (f : Alm → β → Alm) (hf : ∀ k y, k.wf = true → (f k y).wf = true) {k : Alm}
    (h : k.wf = true) : (l.foldl f k).wf = true := by
  induction l generalizing k with
  | nil => exact h
  | cons y l ih => exact ih (hf k y h)

theorem Cal.wf_of {c d : Cal} (h1 : d.coef = c.coef) (h2 : d.target = c.target) (h : c.wf = true) : d.wf = true := by
  rw [Cal.wf_iff] at *; rw [h1, h2]; exact h

theorem Router.wf_of {r q : Router} (h1 : q.tmr = r.tmr) (h : r.wf = true) : q.wf = true := by
  rw [Router.wf] at *; rw [h1]; exact h

/-- A change of the loader's record that leaves the flash as it is, and its tables canonical. -/
structure Alm.Calm (f : Alm → Alm) : Prop where
  flash : ∀ k, (f k).flash = k.flash
  wf : ∀ k, k.wf = true → (f k).wf = true

theorem Alm.Calm.of {f : Alm → Alm} (h1 : ∀ k, (f k).flash = k.flash) (h2 : ∀ k, (f k).buf = k.buf)
    (h3 : ∀ k, (f k).fill = k.fill) : Alm.Calm f := ⟨h1, fun k => Alm.wf_of (h1 k) (h2 k) (h3 k)⟩

/-! ### Relations that operations keep -/

/-- A relation between the state before and the state after. -/
class Kept (R : State → State → Prop) : Prop where
  refl : ∀ s, R s s
  trans : ∀ s t u, R s t → R t u → R s u

/-- Changes of the register words as they read, and the record of bits that events set stay in it. -/
class KRegs (R : State → State → Prop) : Prop where
  wr : ∀ s a v, R s (s.wr a v)
  raise : ∀ s a m, R s (s.raise a m)
  noSetBits : ∀ s, R s s.noSetBits

/-- Changes of the values in force stay in it. -/
class KFrc (R : State → State → Prop) : Prop where
  setEff : ∀ s a v, R s (s.setEff a v)

/-- Changes of the words latched for a host stay in it. -/
class KLat (R : State → State → Prop) : Prop where
  latch : ∀ s h a v, R s (s.latch h a v)

/-- Changes of the memories stay in it. -/
class KMem (R : State → State → Prop) : Prop where
  memWr : ∀ s a v, R s (s.memWr a v)
  memDrop : ∀ s p, R s (s.memDrop p)

/-- Changes of the battery store stay in it. -/
class KBs (R : State → State → Prop) : Prop where
  bsPut : ∀ s i v, R s (s.bsPut i v)
  bsRefill : ∀ s f, R s (s.bsRefill f)

/-- Changes of the flash stay in it. -/
class KFlash (R : State → State → Prop) : Prop where
  fPut : ∀ s a v, R s (s.fPut a v)

/-- Changes of what waits for a boundary stay in it. -/
class KStaged (R : State → State → Prop) : Prop where
  updStaged : ∀ s f, R s (s.updStaged f)

/-- Changes of the ledger stay in it. -/
class KLed (R : State → State → Prop) : Prop where
  updLed : ∀ s f, R s (s.updLed f)

/-- Changes of the records of the channels stay in it. -/
class KChan (R : State → State → Prop) : Prop where
  updCh : ∀ s c f, R s (s.updCh c f)

/-- Changes of the records of the banks stay in it. -/
class KBank (R : State → State → Prop) : Prop where
  updBk : ∀ s b f, R s (s.updBk b f)

/-- Changes of the records of the converters stay in it. -/
class KPmc (R : State → State → Prop) : Prop where
  updPm : ∀ s n f, R s (s.updPm n f)

/-- Changes of the records of the sources stay in it. -/
class KSrc (R : State → State → Prop) : Prop where
  updSr : ∀ s n f, R s (s.updSr n f)

/-- Changes of the records of the engines stay in it. -/
class KAe (R : State → State → Prop) : Prop where
  updEn : ∀ s e f, R s (s.updEn e f)

/-- Changes of the records of the RF ports stay in it. -/
class KPort (R : State → State → Prop) : Prop where
  updPt : ∀ s p f, R s (s.updPt p f)

/-- Changes of the records of the synthesisers stay in it. -/
class KSyn (R : State → State → Prop) : Prop where
  updSy : ∀ s y f, R s (s.updSy y f)

/-- Changes of the island stay in it. -/
class KIsl (R : State → State → Prop) : Prop where
  updIsl : ∀ s f, R s (s.updIsl f)

/-- Changes of the tick stay in it. -/
class KClk (R : State → State → Prop) : Prop where
  updClk : ∀ s f, R s (s.updClk f)

/-- Changes of the season stay in it. -/
class KSea (R : State → State → Prop) : Prop where
  updSea : ∀ s f, R s (s.updSea f)

/-- Changes of the unit but for its state stay in it. -/
class KUnit (R : State → State → Prop) : Prop where
  updUnit : ∀ s f, (∀ u : UnitSt, (f u).st = u.st) → R s (s.updUnit f)

/-- Changes of the state of the unit stay in it. -/
class KSt (R : State → State → Prop) : Prop where
  setSt : ∀ s st, R s (s.updUnit (fun k => { k with st := st }))

/-- Changes of the calibration stay in it. -/
class KCal (R : State → State → Prop) : Prop where
  updCal : ∀ s f, (∀ c : Cal, c.wf = true → (f c).wf = true) → R s (s.updCal f)

/-- Changes of the loader but for the flash stay in it. -/
class KAlm (R : State → State → Prop) : Prop where
  updAlm : ∀ s f, Alm.Calm f → R s (s.updAlm f)

/-- Changes of the ring stay in it. -/
class KRing (R : State → State → Prop) : Prop where
  updRing : ∀ s f, R s (s.updRing f)

/-- Changes of the router stay in it. -/
class KRt (R : State → State → Prop) : Prop where
  updRt : ∀ s f, (∀ r : Router, r.wf = true → (f r).wf = true) → R s (s.updRt f)
  event : ∀ s c i k st x, R s (s.event c i k st x)

/-- Changes of the mark of an RF reload stay in it. -/
class KRf (R : State → State → Prop) : Prop where
  setRfReload : ∀ s b, R s (s.setRfReload b)

/-- Changes of the counter of the free values stay in it. -/
class KFree (R : State → State → Prop) : Prop where
  freshN : ∀ s n, R s (s.freshN n)

/-- Changes of a reset of a target of the almanac: registers, values in force and memories stay in it. -/
class KTarget (R : State → State → Prop) : Prop where
  targetReset : ∀ s t, R s (s.targetReset t)

/-- Changes of a reset of the island, with its registers stay in it. -/
class KVaon (R : State → State → Prop) : Prop where
  vaonCleared : ∀ s, R s s.vaonCleared

/-- Changes of a reset of the core stay in it. -/
class KCore (R : State → State → Prop) : Prop where
  coreCleared : ∀ s, R s s.coreCleared

/-- Every operation stays in it. -/
class KeptAll (R : State → State → Prop) : Prop extends Kept R, KRegs R, KFrc R, KLat R, KMem R, KBs R, KFlash R,
    KStaged R, KLed R, KChan R, KBank R, KPmc R, KSrc R, KAe R, KPort R, KSyn R, KIsl R, KClk R, KSea R, KUnit R, KSt R,
    KCal R, KAlm R, KRing R, KRt R, KRf R, KFree R, KTarget R, KVaon R, KCore R

variable {R : State → State → Prop}

/-- The same of an outcome. -/
def KeepsOut (R : State → State → Prop) (s : State) (o : Host.Outcome State Fault Refusal) : Prop := ∀ t, o = .next t → R s t

theorem Keeps.refl [Kept R] {s : State} : R s s := Kept.refl s

theorem Keeps.trans [Kept R] {s t u : State} (h : R s t) (k : R t u) : R s u := Kept.trans s t u h k

theorem Keeps.fst {s t : State} {β : Type} {x : State × β} {b : β} (h : R s x.1) (e : x = (t, b)) : R s t := by
  subst e; exact h

theorem Keeps.ite {s t u : State} {c : Prop} [Decidable c] (h : R s t) (k : R s u) : R s (if c then t else u) := by
  split <;> assumption

theorem Keeps.foldl [Kept R] {β : Type} {s x : State} {l : List β} {f : State → β → State} (hx : R s x)
    (h : ∀ t y, R t (f t y)) : R s (l.foldl f x) := by
  induction l generalizing x with
  | nil => exact hx
  | cons y l ih => exact ih (Keeps.trans hx (h x y))

theorem Keeps.foldlP [Kept R] {β γ : Type} {s : State} {x : State × γ} {l : List β} {f : State × γ → β → State × γ}
    (hx : R s x.1) (h : ∀ t y, R t.1 (f t y).1) : R s (l.foldl f x).1 := by
  induction l generalizing x with
  | nil => exact hx
  | cons y l ih => exact ih (Keeps.trans hx (h x y))

theorem KeepsOut.next {s t : State} (h : R s t) : KeepsOut R s (.next t) := by
  intro u e; cases e; exact h

theorem KeepsOut.ok [Kept R] {s : State} : KeepsOut R s (Machine.ok s) := KeepsOut.next Keeps.refl

/-! ### The elementary operations -/

theorem State.wr_keeps [Kept R] [KRegs R] {s x : State} (hx : R s x) {a} {v} : R s (x.wr a v) :=
  Keeps.trans hx (KRegs.wr _ _ _)
theorem State.raise_keeps [Kept R] [KRegs R] {s x : State} (hx : R s x) {a} {m} : R s (x.raise a m) :=
  Keeps.trans hx (KRegs.raise _ _ _)
theorem State.noSetBits_keeps [Kept R] [KRegs R] {s x : State} (hx : R s x) : R s x.noSetBits :=
  Keeps.trans hx (KRegs.noSetBits _)
theorem State.setEff_keeps [Kept R] [KFrc R] {s x : State} (hx : R s x) {a} {v} : R s (x.setEff a v) :=
  Keeps.trans hx (KFrc.setEff _ _ _)
theorem State.latch_keeps [Kept R] [KLat R] {s x : State} (hx : R s x) {h} {a} {v} : R s (x.latch h a v) :=
  Keeps.trans hx (KLat.latch _ _ _ _)
theorem State.memWr_keeps [Kept R] [KMem R] {s x : State} (hx : R s x) {a} {v} : R s (x.memWr a v) :=
  Keeps.trans hx (KMem.memWr _ _ _)
theorem State.memDrop_keeps [Kept R] [KMem R] {s x : State} (hx : R s x) {p} : R s (x.memDrop p) :=
  Keeps.trans hx (KMem.memDrop _ _)
theorem State.bsPut_keeps [Kept R] [KBs R] {s x : State} (hx : R s x) {i} {v} : R s (x.bsPut i v) :=
  Keeps.trans hx (KBs.bsPut _ _ _)
theorem State.bsRefill_keeps [Kept R] [KBs R] {s x : State} (hx : R s x) {f} : R s (x.bsRefill f) :=
  Keeps.trans hx (KBs.bsRefill _ _)
theorem State.fPut_keeps [Kept R] [KFlash R] {s x : State} (hx : R s x) {a} {v} : R s (x.fPut a v) :=
  Keeps.trans hx (KFlash.fPut _ _ _)
theorem State.updStaged_keeps [Kept R] [KStaged R] {s x : State} (hx : R s x) {f} : R s (x.updStaged f) :=
  Keeps.trans hx (KStaged.updStaged _ _)
theorem State.updLed_keeps [Kept R] [KLed R] {s x : State} (hx : R s x) {f} : R s (x.updLed f) :=
  Keeps.trans hx (KLed.updLed _ _)
theorem State.updCh_keeps [Kept R] [KChan R] {s x : State} (hx : R s x) {c} {f} : R s (x.updCh c f) :=
  Keeps.trans hx (KChan.updCh _ _ _)
theorem State.updBk_keeps [Kept R] [KBank R] {s x : State} (hx : R s x) {b} {f} : R s (x.updBk b f) :=
  Keeps.trans hx (KBank.updBk _ _ _)
theorem State.updPm_keeps [Kept R] [KPmc R] {s x : State} (hx : R s x) {n} {f} : R s (x.updPm n f) :=
  Keeps.trans hx (KPmc.updPm _ _ _)
theorem State.updSr_keeps [Kept R] [KSrc R] {s x : State} (hx : R s x) {n} {f} : R s (x.updSr n f) :=
  Keeps.trans hx (KSrc.updSr _ _ _)
theorem State.updEn_keeps [Kept R] [KAe R] {s x : State} (hx : R s x) {e} {f} : R s (x.updEn e f) :=
  Keeps.trans hx (KAe.updEn _ _ _)
theorem State.updPt_keeps [Kept R] [KPort R] {s x : State} (hx : R s x) {p} {f} : R s (x.updPt p f) :=
  Keeps.trans hx (KPort.updPt _ _ _)
theorem State.updSy_keeps [Kept R] [KSyn R] {s x : State} (hx : R s x) {y} {f} : R s (x.updSy y f) :=
  Keeps.trans hx (KSyn.updSy _ _ _)
theorem State.updIsl_keeps [Kept R] [KIsl R] {s x : State} (hx : R s x) {f} : R s (x.updIsl f) :=
  Keeps.trans hx (KIsl.updIsl _ _)
theorem State.updClk_keeps [Kept R] [KClk R] {s x : State} (hx : R s x) {f} : R s (x.updClk f) :=
  Keeps.trans hx (KClk.updClk _ _)
theorem State.updSea_keeps [Kept R] [KSea R] {s x : State} (hx : R s x) {f} : R s (x.updSea f) :=
  Keeps.trans hx (KSea.updSea _ _)
theorem State.updUnit_keeps [Kept R] [KUnit R] {s x : State} (hx : R s x) {f : UnitSt → UnitSt} (h : ∀ u : UnitSt, (f u).st = u.st) :
    R s (x.updUnit f) := Keeps.trans hx (KUnit.updUnit _ _ h)
theorem State.setSt_keeps [Kept R] [KSt R] {s x : State} (hx : R s x) {st : UnitState} :
    R s (x.updUnit (fun k => { k with st := st })) := Keeps.trans hx (KSt.setSt _ _)
theorem State.updCal_keeps [Kept R] [KCal R] {s x : State} (hx : R s x) {f : Cal → Cal} (h : ∀ c : Cal, c.wf = true → (f c).wf = true) :
    R s (x.updCal f) := Keeps.trans hx (KCal.updCal _ _ h)
theorem State.updAlm_keeps [Kept R] [KAlm R] {s x : State} (hx : R s x) {f : Alm → Alm} (h : Alm.Calm f) :
    R s (x.updAlm f) := Keeps.trans hx (KAlm.updAlm _ _ h)
theorem State.updRing_keeps [Kept R] [KRing R] {s x : State} (hx : R s x) {f} : R s (x.updRing f) :=
  Keeps.trans hx (KRing.updRing _ _)
theorem State.updRt_keeps [Kept R] [KRt R] {s x : State} (hx : R s x) {f : Router → Router} (h : ∀ r : Router, r.wf = true → (f r).wf = true) :
    R s (x.updRt f) := Keeps.trans hx (KRt.updRt _ _ h)
theorem State.event_keeps [Kept R] [KRt R] {s x : State} (hx : R s x) {c} {i} {k} {st} {z} : R s (x.event c i k st z) :=
  Keeps.trans hx (KRt.event _ _ _ _ _ _)
theorem State.setRfReload_keeps [Kept R] [KRf R] {s x : State} (hx : R s x) {b} : R s (x.setRfReload b) :=
  Keeps.trans hx (KRf.setRfReload _ _)
theorem State.freshN_keeps [Kept R] [KFree R] {s x : State} (hx : R s x) {n} : R s (x.freshN n) :=
  Keeps.trans hx (KFree.freshN _ _)
theorem State.targetReset_keeps [Kept R] [KTarget R] {s x : State} (hx : R s x) {t} : R s (x.targetReset t) :=
  Keeps.trans hx (KTarget.targetReset _ _)
theorem State.vaonCleared_keeps [Kept R] [KVaon R] {s x : State} (hx : R s x) : R s x.vaonCleared :=
  Keeps.trans hx (KVaon.vaonCleared _)
theorem State.coreCleared_keeps [Kept R] [KCore R] {s x : State} (hx : R s x) : R s x.coreCleared :=
  Keeps.trans hx (KCore.coreCleared _)

theorem UnitSt.rail_st (u : UnitSt) (r : Rail) (b : Bool) : (u.rail r b).st = u.st := by cases r <;> rfl

/-! ### Iteration -/

theorem State.cond_keeps [Kept R] {s x : State} (hx : R s x) {c : Bool} {f : State → State} (h : ∀ t, R t (f t)) :
    R s (x.cond c f) := by
  unfold State.cond; split
  · exact Keeps.trans hx (h x)
  · exact hx

theorem State.each_keeps [Kept R] {s x : State} (hx : R s x) {l : List Nat} {f : State → Nat → State}
    (h : ∀ t y, R t (f t y)) : R s (x.each l f) := Keeps.foldl hx h

theorem State.upTo_keeps [Kept R] {s x : State} (hx : R s x) {n : Nat} {f : State → Nat → State}
    (h : ∀ t y, R t (f t y)) : R s (x.upTo n f) := Keeps.foldl hx h

end Sys2Proof.Machine
end

