-- ==== Sys2Proof/Laws/KeepsOps.lean ====
section
/-! SUPPORT. `Keeps` of the operations of Machine/Ops.lean. -/

namespace Sys2Proof.Machine

variable {R : State → State → Prop}

theorem State.fset_keeps [Kept R] [KRegs R] {s x : State} (hk : R s x) {a} {f} {v} : R s (State.fset x a f v) := by
  unfold State.fset
  with_reducible repeat' first
    | exact hk | apply Keeps.refl | apply State.wr_keeps | intro _ | apply Keeps.ite | dsimp only | split

theorem State.fbit_keeps [Kept R] [KRegs R] {s x : State} (hk : R s x) {a} {f} {b} : R s (State.fbit x a f b) := by
  unfold State.fbit
  with_reducible repeat' first
    | exact hk | apply Keeps.refl | apply State.fset_keeps | intro _ | apply Keeps.ite | dsimp only | split

theorem State.inc_keeps [Kept R] [KRegs R] {s x : State} (hk : R s x) {a} {f} {n} : R s (State.inc x a f n) := by
  unfold State.inc
  with_reducible repeat' first
    | exact hk | apply Keeps.refl | apply State.fset_keeps | intro _ | apply Keeps.ite | dsimp only | split

theorem State.putBoth_keeps [Kept R] [KRegs R] [KFrc R] {s x : State} (hk : R s x) {a} {v} : R s (State.putBoth x a v) := by
  unfold State.putBoth
  with_reducible repeat' first
    | exact hk | apply Keeps.refl | apply State.wr_keeps | apply State.setEff_keeps | intro _ | apply Keeps.ite
    | dsimp only | split

theorem State.fsetBoth_keeps [Kept R] [KRegs R] [KFrc R] {s x : State} (hk :
    R s x) {a} {f} {v} :
    R s (State.fsetBoth x a f v) := by
  unfold State.fsetBoth
  with_reducible repeat' first
    | exact hk | apply Keeps.refl | apply State.fset_keeps | apply State.setEff_keeps | intro _ | apply Keeps.ite
    | dsimp only | split

theorem State.raiseF_keeps [Kept R] [KRegs R] {s x : State} (hk : R s x) {a} {f} : R s (State.raiseF x a f) := by
  unfold State.raiseF
  with_reducible repeat' first
    | exact hk | apply Keeps.refl | apply State.raise_keeps | intro _ | apply Keeps.ite | dsimp only | split

theorem State.raiseIf_keeps [Kept R] [KRegs R] {s x : State} (hk : R s x) {c} {a} {f} : R s (State.raiseIf x c a f) := by
  unfold State.raiseIf
  with_reducible repeat' first
    | exact hk | apply Keeps.refl | apply State.raiseF_keeps | intro _ | apply Keeps.ite | dsimp only | split

theorem State.w1c_keeps [Kept R] [KRegs R] {s x : State} (hk : R s x) {a} {m} : R s (State.w1c x a m) := by
  unfold State.w1c
  with_reducible repeat' first
    | exact hk | apply Keeps.refl | apply State.wr_keeps | intro _ | apply Keeps.ite | dsimp only | split

theorem State.eventAt_keeps [Kept R] [KRt R] {s x : State} (hk :
    R s x) {cls} {idx} {kind} {t} {interp} {info} :
    R s (State.eventAt x cls idx kind t interp info) := by
  unfold State.eventAt
  with_reducible repeat' first
    | exact hk | apply Keeps.refl | apply State.updRt_keeps | exact fun _ => Router.wf_of rfl | intro _ | apply Keeps.ite
    | dsimp only | split

theorem State.eventT_keeps [Kept R] [KRt R] {s x : State} (hk :
    R s x) {cls} {idx} {kind} :
    R s (State.eventT x cls idx kind) := by
  unfold State.eventT
  with_reducible repeat' first
    | exact hk | apply Keeps.refl | apply State.event_keeps | intro _ | apply Keeps.ite | dsimp only | split

theorem State.stage_keeps [Kept R] [KStaged R] {s x : State} (hk :
    R s x) {due} {who} {e} :
    R s (State.stage x due who e) := by
  unfold State.stage
  with_reducible repeat' first
    | exact hk | apply Keeps.refl | apply State.updStaged_keeps | intro _ | apply Keeps.ite | dsimp only | split

theorem State.stageAdm_keeps [Kept R] [KStaged R] {s x : State} (hk : R s x) {who} {e} : R s (State.stageAdm x who e) := by
  unfold State.stageAdm
  with_reducible repeat' first
    | exact hk | apply Keeps.refl | apply State.updStaged_keeps | intro _ | apply Keeps.ite | dsimp only | split

theorem State.stageNext_keeps [Kept R] [KStaged R] {s x : State} (hk : R s x) {e} : R s (State.stageNext x e) := by
  unfold State.stageNext
  with_reducible repeat' first
    | exact hk | apply Keeps.refl | apply State.stage_keeps | intro _ | apply Keeps.ite | dsimp only | split

theorem State.unstage_keeps [Kept R] [KStaged R] {s x : State} (hk : R s x) {p} : R s (State.unstage x p) := by
  unfold State.unstage
  with_reducible repeat' first
    | exact hk | apply Keeps.refl | apply State.updStaged_keeps | intro _ | apply Keeps.ite | dsimp only | split

theorem State.markLocal_keeps [Kept R] [KSea R] {s x : State} (hk : R s x) {loc} : R s (State.markLocal x loc) := by
  unfold State.markLocal
  with_reducible repeat' first
    | exact hk | apply Keeps.refl | apply State.updSea_keeps | intro _ | apply Keeps.ite | dsimp only | split

theorem State.markLeap_keeps [Kept R] [KSea R] {s x : State} (hk : R s x) : R s (State.markLeap x) := by
  unfold State.markLeap
  with_reducible repeat' first
    | exact hk | apply Keeps.refl | apply State.updSea_keeps | intro _ | apply Keeps.ite | dsimp only | split

theorem State.fresh_keeps [Kept R] [KFree R] {s x : State} (hk : R s x) : R s (State.fresh x) := by
  unfold State.fresh
  with_reducible repeat' first
    | exact hk | apply Keeps.refl | apply State.freshN_keeps | intro _ | apply Keeps.ite | dsimp only | split

end Sys2Proof.Machine
end

