-- ==== Sys2Proof/Laws/KeepsOperands.lean ====
section
/-! SUPPORT. `Keeps` of the operations of Machine/Operands.lean. -/

namespace Sys2Proof.Machine

variable {R : State → State → Prop}

theorem State.gated_keeps [Kept R] [KRegs R] {s x : State} (hk :
    R s x) {a} {f : State → State} (hf : ∀ t, R t (f t)) :
    R s (State.gated x a f) := by
  unfold State.gated
  with_reducible repeat' first
    | exact hk | apply Keeps.refl | apply State.raiseF_keeps | intro _ | apply Keeps.ite | dsimp only | split
    | refine Keeps.trans ?_ (hf _)

theorem State.setAe_keeps [Kept R] [KRegs R] {s x : State} (hk : R s x) {e} {st} : R s (State.setAe x e st) := by
  unfold State.setAe
  with_reducible repeat' first
    | exact hk | apply Keeps.refl | apply State.fset_keeps | intro _ | apply Keeps.ite | dsimp only | split

theorem State.hideTimed_keeps [Kept R] [KRing R] {s x : State} (hk : R s x) {a} : R s (State.hideTimed x a) := by
  unfold State.hideTimed
  with_reducible repeat' first
    | exact hk | apply Keeps.refl | apply State.updRing_keeps | intro _ | apply Keeps.ite | dsimp only | split

theorem State.writeAt_keeps [Kept R] [KRegs R] [KStaged R] {s x : State} (hk :
    R s x) {a} {w} :
    R s (State.writeAt x a w) := by
  unfold State.writeAt
  with_reducible repeat' first
    | exact hk | apply Keeps.refl | apply State.gated_keeps | apply State.stage_keeps | apply State.wr_keeps | intro _
    | apply Keeps.ite | dsimp only | split

end Sys2Proof.Machine
end

