-- ==== Sys2Proof/Laws/KeepsBsOps.lean ====
section
/-! SUPPORT. `Keeps` of the operations of Machine/BsOps.lean. -/

namespace Sys2Proof.Machine

variable {R : State → State → Prop}

theorem State.bsWr_keeps [Kept R] [KBs R] {s x : State} (hk : R s x) {i} {v} : R s (State.bsWr x i v) := by
  unfold State.bsWr
  with_reducible repeat' first
    | exact hk | apply Keeps.refl | apply State.bsPut_keeps | intro _ | apply Keeps.ite | dsimp only | split

theorem State.bsWrC_keeps [Kept R] [KBs R] {s x : State} (hk : R s x) {i} {v} : R s (State.bsWrC x i v) := by
  unfold State.bsWrC
  with_reducible repeat' first
    | exact hk | apply Keeps.refl | apply State.bsWr_keeps | intro _ | apply Keeps.ite | dsimp only | split

theorem State.bsFail_keeps [Kept R] [KRegs R] [KBs R] [KFree R] {s x : State} (hk :
    R s x) {i} :
    R s (State.bsFail x i) := by
  unfold State.bsFail
  with_reducible repeat' first
    | exact hk | apply Keeps.refl | apply State.fresh_keeps | apply State.fset_keeps | apply State.raiseF_keeps
    | apply State.bsPut_keeps | intro _ | apply Keeps.ite | dsimp only | split

theorem State.bsCounter_keeps [Kept R] [KBs R] {s x : State} (hk : R s x) {i} {v} : R s (State.bsCounter x i v) := by
  unfold State.bsCounter
  with_reducible repeat' first
    | exact hk | apply Keeps.refl | apply State.bsWr_keeps | intro _ | apply Keeps.ite | dsimp only | split

theorem State.bsCount_keeps [Kept R] [KBs R] {s x : State} (hk : R s x) {i} {n} : R s (State.bsCount x i n) := by
  unfold State.bsCount
  with_reducible repeat' first
    | exact hk | apply Keeps.refl | apply State.bsCounter_keeps | intro _ | apply Keeps.ite | dsimp only | split

theorem State.bsRetain_keeps [Kept R] [KBs R] [KFree R] {s x : State} (hk : R s x) : R s (State.bsRetain x) := by
  unfold State.bsRetain
  with_reducible repeat' first
    | exact hk | apply Keeps.refl | apply State.bsRefill_keeps | apply State.freshN_keeps | intro _ | apply Keeps.ite
    | dsimp only | split

theorem State.bsReinit_keeps [Kept R] [KBs R] {s x : State} (hk : R s x) : R s (State.bsReinit x) := by
  unfold State.bsReinit
  with_reducible repeat' first
    | exact hk | apply Keeps.refl | apply State.bsRefill_keeps | apply State.bsPut_keeps | intro _ | apply Keeps.ite
    | dsimp only | split

end Sys2Proof.Machine
end

