-- ==== Sys2Proof/Laws/KeepsLedger.lean ====
section
/-! SUPPORT. `Keeps` of the operations of Machine/Ledger.lean. -/

namespace Sys2Proof.Machine

variable {R : State → State → Prop}

theorem State.withForces_keeps [Kept R] [KRegs R] [KFrc R] {s x : State} (hk :
    R s x) {effs} :
    R s (State.withForces x effs) := by
  unfold State.withForces
  with_reducible repeat' first
    | exact hk | apply Keeps.refl | apply State.fset_keeps | apply State.setEff_keeps | apply Keeps.foldl
    | apply Keeps.foldlP | intro _ | apply Keeps.ite | dsimp only | split

theorem State.release_keeps [Kept R] [KLed R] {s x : State} (hk : R s x) {items} : R s (State.release x items) := by
  unfold State.release
  with_reducible repeat' first
    | exact hk | apply Keeps.refl | apply State.updLed_keeps | intro _ | apply Keeps.ite | dsimp only | split

theorem State.lower_keeps [Kept R] [KLed R] {s x : State} (hk : R s x) {i} {mw} : R s (State.lower x i mw) := by
  unfold State.lower
  with_reducible repeat' first
    | exact hk | apply Keeps.refl | apply State.updLed_keeps | intro _ | apply Keeps.ite | dsimp only | split

theorem State.withdraw_keeps [Kept R] [KLed R] {s x : State} (hk : R s x) {key} : R s (State.withdraw x key) := by
  unfold State.withdraw
  with_reducible repeat' first
    | exact hk | apply Keeps.refl | apply State.updLed_keeps | intro _ | apply Keeps.ite | dsimp only | split

theorem State.withdrawIf_keeps [Kept R] [KLed R] {s x : State} (hk : R s x) {p} : R s (State.withdrawIf x p) := by
  unfold State.withdrawIf
  with_reducible repeat' first
    | exact hk | apply Keeps.refl | apply State.updLed_keeps | intro _ | apply Keeps.ite | dsimp only | split

theorem State.enqueue_keeps [Kept R] [KLed R] {s x : State} (hk :
    R s x) {key} {cls} {idx} {who} {cyc} {effs} :
    R s (State.enqueue x key cls idx who cyc effs) := by
  unfold State.enqueue
  with_reducible repeat' first
    | exact hk | apply Keeps.refl | apply State.updLed_keeps | apply State.withdraw_keeps | intro _ | apply Keeps.ite
    | dsimp only | split

theorem State.request_keeps [Kept R] [KStaged R] [KLed R] {s x : State} (hk :
    R s x) {key} {cls} {idx} {who} {cyc} {effs} :
    R s (State.request x key cls idx who cyc effs) := by
  unfold State.request
  with_reducible repeat' first
    | exact hk | apply Keeps.refl | apply State.updLed_keeps | apply State.enqueue_keeps | apply State.stage_keeps
    | apply State.withdraw_keeps | apply Keeps.foldl | apply Keeps.foldlP | intro _ | apply Keeps.ite | dsimp only | split

theorem State.requestList_keeps [Kept R] [KLed R] {s x : State} (hk :
    R s x) {target} {items} :
    R s (State.requestList x target items) := by
  unfold State.requestList
  with_reducible repeat' first
    | exact hk | apply Keeps.refl | apply State.updLed_keeps | intro _ | apply Keeps.ite | dsimp only | split

theorem State.pmcFlags_keeps [Kept R] [KRegs R] {s x : State} (hk : R s x) {r} {on} : R s (State.pmcFlags x r on) := by
  unfold State.pmcFlags
  with_reducible repeat' first
    | exact hk | apply Keeps.refl | apply State.fbit_keeps | apply Keeps.foldl | apply Keeps.foldlP | intro _
    | apply Keeps.ite | dsimp only | split

theorem State.onRefuse_keeps [Kept R] [KRegs R] {s x : State} (hk : R s x) {r} : R s (State.onRefuse x r) := by
  unfold State.onRefuse
  with_reducible repeat' first
    | exact hk | apply Keeps.refl | apply State.pmcFlags_keeps | apply State.fbit_keeps | intro _ | apply Keeps.ite
    | dsimp only | split

theorem State.onAdmit_keeps [Kept R] [KRegs R] [KBank R] {s x : State} (hk : R s x) {r} : R s (State.onAdmit x r) := by
  unfold State.onAdmit
  with_reducible repeat' first
    | exact hk | apply Keeps.refl | apply State.updBk_keeps | apply State.pmcFlags_keeps | intro _ | apply Keeps.ite
    | dsimp only | split

theorem State.rejectEff_keeps [Kept R] [KRegs R] [KFrc R] [KStaged R] [KPmc R] [KRt R] {s x : State} (hk :
    R s x) {a} :
    R s (State.rejectEff x a) := by
  unfold State.rejectEff
  with_reducible repeat' first
    | exact hk | apply Keeps.refl | apply State.wr_keeps | apply State.stageNext_keeps | apply State.updRt_keeps
    | apply State.fbit_keeps | apply State.updPm_keeps | apply State.fsetBoth_keeps | exact fun _ => Router.wf_of rfl
    | intro _ | apply Keeps.ite | dsimp only | split

theorem State.askEff_keeps [Kept R] [KRegs R] {s x : State} (hk : R s x) {a} : R s (State.askEff x a) := by
  unfold State.askEff
  with_reducible repeat' first
    | exact hk | apply Keeps.refl | apply State.wr_keeps | apply State.fbit_keeps | intro _ | apply Keeps.ite | dsimp only
    | split

theorem State.withdrawWreg_keeps [Kept R] [KRegs R] [KFrc R] [KStaged R] [KLed R] [KPmc R] [KRt R] {s x : State} (hk :
    R s x) {b} :
    R s (State.withdrawWreg x b) := by
  unfold State.withdrawWreg
  with_reducible repeat' first
    | exact hk | apply Keeps.refl | apply State.withdraw_keeps | apply State.rejectEff_keeps | apply Keeps.foldl
    | apply Keeps.foldlP | intro _ | apply Keeps.ite | dsimp only | split

theorem State.onReject_keeps [Kept R] [KRegs R] [KFrc R] [KStaged R] [KPmc R] [KRt R] {s x : State} (hk :
    R s x) {r} :
    R s (State.onReject x r) := by
  unfold State.onReject
  with_reducible repeat' first
    | exact hk | apply Keeps.refl | apply State.stageNext_keeps | apply State.rejectEff_keeps | apply State.fbit_keeps
    | apply Keeps.foldl | apply Keeps.foldlP | intro _ | apply Keeps.ite | dsimp only | split

theorem State.ageRequest_keeps [Kept R] [KLed R] {s x : State} (hk : R s x) {id} : R s (State.ageRequest x id) := by
  unfold State.ageRequest
  with_reducible repeat' first
    | exact hk | apply Keeps.refl | apply State.updLed_keeps | intro _ | apply Keeps.ite | dsimp only | split

theorem State.stageAdmitted_keeps [Kept R] [KStaged R] {s x : State} (hk :
    R s x) {who} {e} :
    R s (State.stageAdmitted x who e) := by
  unfold State.stageAdmitted
  with_reducible repeat' first
    | exact hk | apply Keeps.refl | apply State.stage_keeps | apply State.stageAdm_keeps | intro _ | apply Keeps.ite
    | dsimp only | split

theorem State.admitReq_keeps [Kept R] [KRegs R] [KStaged R] [KLed R] [KBank R] {s x : State} (hk :
    R s x) {r} :
    R s (State.admitReq x r) := by
  unfold State.admitReq
  with_reducible repeat' first
    | exact hk | apply Keeps.refl | apply State.onAdmit_keeps | apply State.updLed_keeps | apply State.stageAdmitted_keeps
    | apply Keeps.foldl | apply Keeps.foldlP | intro _ | apply Keeps.ite | dsimp only | split

theorem State.considerOne_keeps [Kept R] [KRegs R] [KFrc R] [KStaged R] [KLed R] [KBank R] [KPmc R] [KRt R] {s x : State}
    (hk :
    R s x) {blocked} {r} :
    R s (State.considerOne x blocked r).1 := by
  unfold State.considerOne
  with_reducible repeat' first
    | exact hk | apply Keeps.refl | apply State.admitReq_keeps | apply State.updLed_keeps | apply State.eventT_keeps
    | apply State.onReject_keeps | apply State.onRefuse_keeps | intro _ | apply Keeps.ite | dsimp only | split

theorem State.considerList_keeps [Kept R] [KRegs R] [KFrc R] [KStaged R] [KLed R] [KBank R] [KPmc R] [KRt R] {s x : State}
    (hk :
    R s x) {blocked} {r} {a} :
    R s (State.considerList x blocked r a).1 := by
  induction a generalizing x blocked with
  | nil => unfold State.considerList; dsimp only; exact State.updLed_keeps hk
  | cons e l ih =>
    unfold State.considerList
    have h1 : ∀ f q, R s ((x.updLed f).considerOne blocked q).1 := fun f q =>
      State.considerOne_keeps (State.updLed_keeps hk)
    dsimp only
    split
    · exact ih (h1 _ _)
    · exact h1 _ _

theorem State.consider_keeps [Kept R] [KRegs R] [KFrc R] [KStaged R] [KLed R] [KBank R] [KPmc R] [KRt R] {s : State} {x :
    State × _} (hk :
    R s x.1) {r} :
    R s (State.consider x r).1 := by
  unfold State.consider
  with_reducible repeat' first
    | exact hk | apply Keeps.refl | apply State.considerList_keeps | apply State.considerOne_keeps
    | refine Keeps.fst ?_ (by assumption) | intro _ | apply Keeps.ite | dsimp only | split

theorem State.countHeld_keeps [Kept R] [KRegs R] [KLed R] {s x : State} (hk : R s x) : R s (State.countHeld x) := by
  unfold State.countHeld
  with_reducible repeat' first
    | exact hk | apply Keeps.refl | apply State.updLed_keeps | apply State.inc_keeps | intro _ | apply Keeps.ite
    | dsimp only | split

theorem State.flagHeld_keeps [Kept R] [KRegs R] {s x : State} (hk : R s x) : R s (State.flagHeld x) := by
  unfold State.flagHeld
  with_reducible repeat' first
    | exact hk | apply Keeps.refl | apply State.onRefuse_keeps | apply Keeps.foldl | apply Keeps.foldlP | intro _
    | apply Keeps.ite | dsimp only | split

theorem State.placeHeld_keeps [Kept R] [KRegs R] [KLed R] {s x : State} (hk : R s x) : R s (State.placeHeld x) := by
  unfold State.placeHeld
  with_reducible repeat' first
    | exact hk | apply Keeps.refl | apply State.updLed_keeps | apply State.countHeld_keeps | apply Keeps.foldl
    | apply Keeps.foldlP | intro _ | apply Keeps.ite | dsimp only | split

theorem State.publishLedger_keeps [Kept R] [KRegs R] {s x : State} (hk : R s x) : R s (State.publishLedger x) := by
  unfold State.publishLedger
  with_reducible repeat' first
    | exact hk | apply Keeps.refl | apply State.fset_keeps | apply State.wr_keeps | apply State.fbit_keeps
    | apply State.upTo_keeps | intro _ | apply Keeps.ite | dsimp only | split

theorem State.credit_keeps [Kept R] [KLed R] {s x : State} (hk : R s x) {ahead} {low} : R s (State.credit x ahead low) := by
  unfold State.credit
  with_reducible repeat' first
    | exact hk | apply Keeps.refl | apply State.updLed_keeps | intro _ | apply Keeps.ite | dsimp only | split

theorem State.phase4_keeps [Kept R] [KRegs R] [KFrc R] [KStaged R] [KLed R] [KBank R] [KPmc R] [KRt R] {s x : State} (hk :
    R s x) :
    R s (State.phase4 x) := by
  unfold State.phase4
  with_reducible repeat' first
    | exact hk | apply Keeps.refl | apply State.updLed_keeps | apply State.flagHeld_keeps | apply State.consider_keeps
    | apply State.countHeld_keeps | apply State.publishLedger_keeps | apply Keeps.foldl | apply Keeps.foldlP
    | refine Keeps.fst ?_ (by assumption) | intro _ | apply Keeps.ite | dsimp only | split

theorem State.startLedger_keeps [Kept R] [KRegs R] [KLed R] {s x : State} (hk :
    R s x) {banks} :
    R s (State.startLedger x banks) := by
  unfold State.startLedger
  with_reducible repeat' first
    | exact hk | apply Keeps.refl | apply State.updLed_keeps | apply State.publishLedger_keeps | apply Keeps.foldl
    | apply Keeps.foldlP | intro _ | apply Keeps.ite | dsimp only | split

end Sys2Proof.Machine
end

