-- ==== Sys2Proof/Laws/KeepsPmu.lean ====
section
/-! SUPPORT. `Keeps` of the operations of Machine/Pmu.lean. -/

namespace Sys2Proof.Machine

variable {R : State → State → Prop}

theorem State.pmcWaiting_keeps [Kept R] [KRegs R] {s x : State} (hk : R s x) {n} : R s (State.pmcWaiting x n) := by
  unfold State.pmcWaiting
  with_reducible repeat' first
    | exact hk | apply Keeps.refl | apply State.fbit_keeps | intro _ | apply Keeps.ite | dsimp only | split

theorem State.updArbs_keeps [Kept R] [KRegs R] [KRt R] {s x : State} (hk : R s x) {res} {f : Router → Router}
    (h : ∀ r : Router, r.wf = true → (f r).wf = true) : R s (State.updArbs x res f) := by
  unfold State.updArbs
  split
  · exact State.pmcWaiting_keeps (State.updRt_keeps hk h)
  · exact State.updRt_keeps hk h

theorem State.arbRequest_keeps [Kept R] [KRegs R] [KRt R] {s x : State} (hk :
    R s x) {res} {cls} {idx} {who} {frm} {tag} :
    R s (State.arbRequest x res cls idx who frm tag) := by
  unfold State.arbRequest
  with_reducible repeat' first
    | exact hk | apply Keeps.refl | apply State.updArbs_keeps | exact fun _ => Router.wf_of rfl | intro _
    | apply Keeps.ite | dsimp only | split

theorem State.arbWithdraw_keeps [Kept R] [KRegs R] [KRt R] {s x : State} (hk :
    R s x) {res} {p} :
    R s (State.arbWithdraw x res p) := by
  unfold State.arbWithdraw
  with_reducible repeat' first
    | exact hk | apply Keeps.refl | apply State.updArbs_keeps | exact fun _ => Router.wf_of rfl | intro _
    | apply Keeps.ite | dsimp only | split

theorem State.pmcGo_keeps [Kept R] [KRegs R] [KRt R] {s x : State} (hk :
    R s x) {b} {k} {who} {frm} :
    R s (State.pmcGo x b k who frm) := by
  unfold State.pmcGo
  with_reducible repeat' first
    | exact hk | apply Keeps.refl | apply State.arbRequest_keeps | apply State.raiseF_keeps | intro _ | apply Keeps.ite
    | dsimp only | split

theorem State.pmcFree_keeps [Kept R] [KRegs R] [KStaged R] [KLed R] [KPmc R] {s x : State} (hk :
    R s x) {n} :
    R s (State.pmcFree x n) := by
  unfold State.pmcFree
  with_reducible repeat' first
    | exact hk | apply Keeps.refl | apply State.wr_keeps | apply State.withdraw_keeps | apply State.unstage_keeps
    | apply State.release_keeps | apply State.updPm_keeps | intro _ | apply Keeps.ite | dsimp only | split

theorem State.pmcStop_keeps [Kept R] [KRegs R] [KStaged R] [KLed R] [KPmc R] [KRt R] {s x : State} (hk :
    R s x) {b} {k} :
    R s (State.pmcStop x b k) := by
  unfold State.pmcStop
  with_reducible repeat' first
    | exact hk | apply Keeps.refl | apply State.pmcFree_keeps | apply State.arbWithdraw_keeps | intro _ | apply Keeps.ite
    | dsimp only | split

theorem State.pmcBankStop_keeps [Kept R] [KRegs R] [KStaged R] [KLed R] [KPmc R] [KRt R] {s x : State} (hk :
    R s x) {b} :
    R s (State.pmcBankStop x b) := by
  unfold State.pmcBankStop
  with_reducible repeat' first
    | exact hk | apply Keeps.refl | apply State.pmcFree_keeps | apply State.arbWithdraw_keeps | apply State.upTo_keeps
    | intro _ | apply Keeps.ite | dsimp only | split

theorem State.pmcBegin_keeps [Kept R] [KRegs R] [KPmc R] {s x : State} (hk : R s x) {n} : R s (State.pmcBegin x n) := by
  unfold State.pmcBegin
  with_reducible repeat' first
    | exact hk | apply Keeps.refl | apply State.wr_keeps | apply State.updPm_keeps | intro _ | apply Keeps.ite
    | dsimp only | split

theorem State.pmcRestart_keeps [Kept R] [KRegs R] [KPmc R] {s x : State} (hk :
    R s x) {c} {range} :
    R s (State.pmcRestart x c range) := by
  unfold State.pmcRestart
  with_reducible repeat' first
    | exact hk | apply Keeps.refl | apply State.inc_keeps | apply State.upTo_keeps | apply State.updPm_keeps | intro _
    | apply Keeps.ite | dsimp only | split

theorem State.pmcNext_keeps [Kept R] [KRegs R] [KStaged R] [KLed R] [KPmc R] [KRt R] {s x : State} (hk :
    R s x) {n} :
    R s (State.pmcNext x n) := by
  unfold State.pmcNext
  with_reducible repeat' first
    | exact hk | apply Keeps.refl | apply State.pmcFree_keeps | apply State.fset_keeps | apply State.arbRequest_keeps
    | apply State.wr_keeps | apply State.updPm_keeps | intro _ | apply Keeps.ite | dsimp only | split

theorem State.pmcTick_keeps [Kept R] [KRegs R] [KStaged R] [KLed R] [KPmc R] [KRt R] {s x : State} (hk :
    R s x) {n} :
    R s (State.pmcTick x n) := by
  unfold State.pmcTick
  with_reducible repeat' first
    | exact hk | apply Keeps.refl | apply State.pmcNext_keeps | apply State.updPm_keeps | intro _ | apply Keeps.ite
    | dsimp only | split

theorem State.pmcStore_keeps [Kept R] [KRegs R] [KChan R] [KRt R] {s x : State} (hk :
    R s x) {n} {d} {sum} {ovr} :
    R s (State.pmcStore x n d sum ovr) := by
  unfold State.pmcStore
  with_reducible repeat' first
    | exact hk | apply Keeps.refl | apply State.raiseIf_keeps | apply State.wr_keeps | apply State.updCh_keeps
    | apply State.inc_keeps | apply State.cond_keeps | apply State.updRt_keeps | apply State.raiseF_keeps
    | exact fun _ => Router.wf_of rfl | intro _ | apply Keeps.ite | dsimp only | split

theorem State.pmuCharge_keeps [Kept R] [KLed R] {s x : State} (hk : R s x) {c} : R s (State.pmuCharge x c) := by
  unfold State.pmuCharge
  with_reducible repeat' first
    | exact hk | apply Keeps.refl | apply State.lower_keeps | apply State.release_keeps | intro _ | apply Keeps.ite
    | dsimp only | split

theorem State.setForce_keeps [Kept R] [KRegs R] [KChan R] [KPmc R] {s x : State} (hk :
    R s x) {c} {mode} :
    R s (State.setForce x c mode) := by
  unfold State.setForce
  with_reducible repeat' first
    | exact hk | apply Keeps.refl | apply State.fset_keeps | apply State.updCh_keeps | apply State.pmcRestart_keeps
    | intro _ | apply Keeps.ite | dsimp only | split

theorem State.setRange_keeps [Kept R] [KRegs R] [KPmc R] {s x : State} (hk :
    R s x) {c} {r} :
    R s (State.setRange x c r) := by
  unfold State.setRange
  with_reducible repeat' first
    | exact hk | apply Keeps.refl | apply State.fset_keeps | apply State.pmcRestart_keeps | intro _ | apply Keeps.ite
    | dsimp only | split

theorem State.pmuRangeNow_keeps [Kept R] [KRegs R] [KPmc R] {s x : State} (hk :
    R s x) {c} :
    R s (State.pmuRangeNow x c) := by
  unfold State.pmuRangeNow
  with_reducible repeat' first
    | exact hk | apply Keeps.refl | apply State.setRange_keeps | intro _ | apply Keeps.ite | dsimp only | split

theorem State.pmuRelease_keeps [Kept R] [KRegs R] [KLed R] [KChan R] [KPmc R] {s x : State} (hk :
    R s x) {c} :
    R s (State.pmuRelease x c) := by
  unfold State.pmuRelease
  with_reducible repeat' first
    | exact hk | apply Keeps.refl | apply State.fset_keeps | apply State.setForce_keeps | apply State.updCh_keeps
    | apply State.pmuRangeNow_keeps | apply State.release_keeps | intro _ | apply Keeps.ite | dsimp only | split

theorem State.monitor_keeps [Kept R] [KFree R] {s x : State} (hk : R s x) {mons} {c} : R s (State.monitor x mons c).1 := by
  unfold State.monitor
  with_reducible repeat' first
    | exact hk | apply Keeps.refl | apply State.fresh_keeps | intro _ | apply Keeps.ite | dsimp only | split

theorem State.pmuRangeTo_keeps [Kept R] [KRegs R] [KChan R] [KPmc R] {s x : State} (hk :
    R s x) {c} {r} :
    R s (State.pmuRangeTo x c r) := by
  unfold State.pmuRangeTo
  with_reducible repeat' first
    | exact hk | apply Keeps.refl | apply State.setRange_keeps | apply State.updCh_keeps | intro _ | apply Keeps.ite
    | dsimp only | split

theorem State.pmuForceTo_keeps [Kept R] [KRegs R] [KLed R] [KChan R] [KPmc R] [KFree R] {s x : State} (hk :
    R s x) {mons} {c} {mode} {old} :
    R s (State.pmuForceTo x mons c mode old) := by
  unfold State.pmuForceTo
  with_reducible repeat' first
    | exact hk | apply Keeps.refl | apply State.monitor_keeps | apply State.setForce_keeps | apply State.updCh_keeps
    | apply State.pmuRangeNow_keeps | apply State.pmuRelease_keeps | refine Keeps.fst ?_ (by assumption) | intro _
    | apply Keeps.ite | dsimp only | split

theorem State.applyPmuCtl_keeps [Kept R] [KRegs R] [KFrc R] [KLed R] [KChan R] [KPmc R] [KFree R] {s x : State} (hk :
    R s x) {mons} {c} {v} :
    R s (State.applyPmuCtl x mons c v) := by
  unfold State.applyPmuCtl
  with_reducible repeat' first
    | exact hk | apply Keeps.refl | apply State.pmuForceTo_keeps | apply State.fset_keeps | apply State.pmuRangeTo_keeps
    | apply State.fbit_keeps | apply State.pmuCharge_keeps | apply State.setEff_keeps | intro _ | apply Keeps.ite
    | dsimp only | split

theorem State.pmuConnect_keeps [Kept R] [KRegs R] [KLed R] [KChan R] [KPmc R] [KFree R] {s x : State} (hk :
    R s x) {mons} {c} :
    R s (State.pmuConnect x mons c) := by
  unfold State.pmuConnect
  with_reducible repeat' first
    | exact hk | apply Keeps.refl | apply State.pmuForceTo_keeps | apply State.fset_keeps | intro _ | apply Keeps.ite
    | dsimp only | split

theorem State.pmuDisconnect_keeps [Kept R] [KRegs R] [KLed R] [KChan R] [KPmc R] {s x : State} (hk :
    R s x) {c} :
    R s (State.pmuDisconnect x c) := by
  unfold State.pmuDisconnect
  with_reducible repeat' first
    | exact hk | apply Keeps.refl | apply State.fset_keeps | apply State.pmcRestart_keeps | apply State.pmuRelease_keeps
    | intro _ | apply Keeps.ite | dsimp only | split

theorem State.pmuTick_keeps [Kept R] [KRegs R] [KLed R] [KChan R] [KPmc R] {s x : State} (hk :
    R s x) {c} :
    R s (State.pmuTick x c) := by
  unfold State.pmuTick
  with_reducible repeat' first
    | exact hk | apply Keeps.refl | apply State.fset_keeps | apply State.setRange_keeps | apply State.updCh_keeps
    | apply State.pmuRelease_keeps | apply State.pmuCharge_keeps | intro _ | apply Keeps.ite | dsimp only | split

theorem State.clampTick_keeps [Kept R] [KRegs R] {s x : State} (hk : R s x) {mons} : R s (State.clampTick x mons) := by
  unfold State.clampTick
  with_reducible repeat' first
    | exact hk | apply Keeps.refl | apply State.fset_keeps | apply State.raiseIf_keeps | apply Keeps.foldl
    | apply Keeps.foldlP | intro _ | apply Keeps.ite | dsimp only | split

theorem State.writePmuCtl_keeps [Kept R] [KRegs R] [KStaged R] [KLed R] {s x : State} (hk :
    R s x) {c} {w} :
    R s (State.writePmuCtl x c w) := by
  unfold State.writePmuCtl
  with_reducible repeat' first
    | exact hk | apply Keeps.refl | apply State.gated_keeps | apply State.wr_keeps | apply State.inc_keeps
    | apply State.request_keeps | apply State.fbit_keeps | intro _ | apply Keeps.ite | dsimp only | split

theorem execPmuCtlWrite_keeps [Kept R] [KRegs R] [KStaged R] [KLed R] {s : State} {c} {w} :
    KeepsOut R s (execPmuCtlWrite c w s) := by
  unfold execPmuCtlWrite
  with_reducible repeat' first
    | apply KeepsOut.ok | apply KeepsOut.next | apply Keeps.refl | apply State.writePmuCtl_keeps | intro _
    | apply Keeps.ite | dsimp only | split

theorem execClampEntry_keeps [Kept R] [KRegs R] [KRt R] {s : State} {c} {i} : KeepsOut R s (execClampEntry c i s) := by
  unfold execClampEntry
  with_reducible repeat' first
    | apply KeepsOut.ok | apply KeepsOut.next | apply Keeps.refl | apply State.fset_keeps | apply State.raiseF_keeps
    | apply State.event_keeps | intro _ | apply Keeps.ite | dsimp only | split

theorem execPmcGo_keeps [Kept R] [KRegs R] [KRt R] {s : State} {b} {k} {who} : KeepsOut R s (execPmcGo b k who s) := by
  unfold execPmcGo
  with_reducible repeat' first
    | apply KeepsOut.ok | apply KeepsOut.next | apply Keeps.refl | apply State.pmcGo_keeps | intro _ | apply Keeps.ite
    | dsimp only | split

theorem execPmcStop_keeps [Kept R] [KRegs R] [KStaged R] [KLed R] [KPmc R] [KRt R] {s : State} {b} {k} :
    KeepsOut R s (execPmcStop b k s) := by
  unfold execPmcStop
  with_reducible repeat' first
    | apply KeepsOut.ok | apply KeepsOut.next | apply Keeps.refl | apply State.pmcStop_keeps | intro _ | apply Keeps.ite
    | dsimp only | split

theorem execPmcResult_keeps [Kept R] [KRegs R] [KChan R] [KPmc R] [KRt R] {s : State} {b} {k} {sum} {overRange} :
    KeepsOut R s (execPmcResult b k sum overRange s) := by
  unfold execPmcResult
  with_reducible repeat' first
    | apply KeepsOut.ok | apply KeepsOut.next | apply Keeps.refl | apply State.pmcStore_keeps | apply State.updPm_keeps
    | intro _ | apply Keeps.ite | dsimp only | split

theorem State.readPmuRes_keeps [Kept R] [KLat R] [KChan R] {s x : State} (hk :
    R s x) {c} {h} :
    R s (State.readPmuRes x c h) := by
  unfold State.readPmuRes
  with_reducible repeat' first
    | exact hk | apply Keeps.refl | apply State.latch_keeps | apply State.updCh_keeps | intro _ | apply Keeps.ite
    | dsimp only | split

theorem execChPmuResRead_keeps [Kept R] [KLat R] [KChan R] {s : State} {c} {h} : KeepsOut R s (execChPmuResRead c h s) := by
  unfold execChPmuResRead
  with_reducible repeat' first
    | apply KeepsOut.ok | apply KeepsOut.next | apply Keeps.refl | apply State.readPmuRes_keeps | intro _
    | apply Keeps.ite | dsimp only | split

theorem execPmcStatRead_keeps [Kept R] [KRegs R] {s : State} {b} {k} : KeepsOut R s (execPmcStatRead b k s) := by
  unfold execPmcStatRead
  with_reducible repeat' first
    | apply KeepsOut.ok | apply KeepsOut.next | apply Keeps.refl | apply State.fset_keeps | intro _ | apply Keeps.ite
    | dsimp only | split

end Sys2Proof.Machine
end

