-- ==== Sys2Proof/Laws/KeepsChannel.lean ====
section
/-! SUPPORT. `Keeps` of the operations of Machine/Channel.lean. -/

namespace Sys2Proof.Machine

variable {R : State → State → Prop}

theorem State.condTo_keeps [Kept R] [KAe R] {s x : State} (hk :
    R s x) {e} {cond} {on} :
    R s (State.condTo x e cond on) := by
  unfold State.condTo
  with_reducible repeat' first
    | exact hk | apply Keeps.refl | apply State.updEn_keeps | intro _ | apply Keeps.ite | dsimp only | split

theorem State.condRise_keeps [Kept R] [KAe R] {s x : State} (hk :
    R s x) {e} {cond} {t} {interp} :
    R s (State.condRise x e cond t interp) := by
  unfold State.condRise
  with_reducible repeat' first
    | exact hk | apply Keeps.refl | apply State.updEn_keeps | apply State.cond_keeps | intro _ | apply Keeps.ite
    | dsimp only | split

theorem State.condEdge_keeps [Kept R] [KAe R] {s x : State} (hk :
    R s x) {e} {cond} {on} {t} {interp} :
    R s (State.condEdge x e cond on t interp) := by
  unfold State.condEdge
  with_reducible repeat' first
    | exact hk | apply Keeps.refl | apply State.condRise_keeps | apply State.cond_keeps | apply State.condTo_keeps
    | intro _ | apply Keeps.ite | dsimp only | split

theorem State.laneEdge_keeps [Kept R] [KAe R] {s x : State} (hk :
    R s x) {n} {on} {t} {interp} :
    R s (State.laneEdge x n on t interp) := by
  unfold State.laneEdge
  with_reducible repeat' first
    | exact hk | apply Keeps.refl | apply State.cond_keeps | apply State.upTo_keeps | apply State.condEdge_keeps | intro _
    | apply Keeps.ite | dsimp only | split

theorem State.lanesAt_keeps [Kept R] [KRegs R] [KAe R] {s x : State} (hk :
    R s x) {rise} {fall} :
    R s (State.lanesAt x rise fall) := by
  unfold State.lanesAt
  with_reducible repeat' first
    | exact hk | apply Keeps.refl | apply State.laneEdge_keeps | apply State.fbit_keeps | apply State.upTo_keeps | intro _
    | apply Keeps.ite | dsimp only | split

theorem State.refreshLanes_keeps [Kept R] [KRegs R] [KAe R] {s x : State} (hk : R s x) : R s (State.refreshLanes x) := by
  unfold State.refreshLanes
  with_reducible repeat' first
    | exact hk | apply Keeps.refl | apply State.lanesAt_keeps | intro _ | apply Keeps.ite | dsimp only | split

theorem State.putPoint_keeps [Kept R] [KChan R] {s x : State} (hk :
    R s x) {c} {t} {hl} {x4} :
    R s (State.putPoint x c t hl x4) := by
  unfold State.putPoint
  with_reducible repeat' first
    | exact hk | apply Keeps.refl | apply State.updCh_keeps | intro _ | apply Keeps.ite | dsimp only | split

theorem State.showRaw_keeps [Kept R] [KRegs R] {s x : State} (hk : R s x) {c} : R s (State.showRaw x c) := by
  unfold State.showRaw
  with_reducible repeat' first
    | exact hk | apply Keeps.refl | apply State.fset_keeps | apply State.cond_keeps | intro _ | apply Keeps.ite
    | dsimp only | split

theorem State.resolve_keeps [Kept R] [KRegs R] [KChan R] {s x : State} (hk :
    R s x) {c} {plain} :
    R s (State.resolve x c plain) := by
  unfold State.resolve
  with_reducible repeat' first
    | exact hk | apply Keeps.refl | apply State.putPoint_keeps | apply State.showRaw_keeps | intro _ | apply Keeps.ite
    | dsimp only | split

theorem State.edgePush_keeps [Kept R] [KRegs R] [KChan R] [KSea R] {s x : State} (hk :
    R s x) {c} {kind} {st} {discarded} :
    R s (State.edgePush x c kind st discarded) := by
  unfold State.edgePush
  with_reducible repeat' first
    | exact hk | apply Keeps.refl | apply State.fset_keeps | apply State.markLocal_keeps | apply State.updCh_keeps
    | apply State.inc_keeps | apply State.raiseF_keeps | intro _ | apply Keeps.ite | dsimp only | split

theorem State.crossing_keeps [Kept R] [KRegs R] [KChan R] [KSea R] {s x : State} (hk :
    R s x) {c} {t} {upper} {rise} {discarded} :
    R s (State.crossing x c t upper rise discarded) := by
  unfold State.crossing
  with_reducible repeat' first
    | exact hk | apply Keeps.refl | apply State.edgePush_keeps | apply State.updCh_keeps | apply State.inc_keeps
    | apply State.cond_keeps | intro _ | apply Keeps.ite | dsimp only | split

theorem State.compInput_keeps [Kept R] [KRegs R] [KChan R] [KSea R] {s x : State} (hk :
    R s x) {c} {t} {level} {discarded} :
    R s (State.compInput x c t level discarded) := by
  unfold State.compInput
  with_reducible repeat' first
    | exact hk | apply Keeps.refl | apply State.crossing_keeps | apply State.updCh_keeps | apply State.putPoint_keeps
    | apply State.cond_keeps | apply State.showRaw_keeps | intro _ | apply Keeps.ite | dsimp only | split

theorem State.setCmp_keeps [Kept R] [KRegs R] {s x : State} (hk : R s x) {c} {st} : R s (State.setCmp x c st) := by
  unfold State.setCmp
  with_reducible repeat' first
    | exact hk | apply Keeps.refl | apply State.fset_keeps | apply State.cond_keeps | intro _ | apply Keeps.ite
    | dsimp only | split

theorem State.compStart_keeps [Kept R] [KRegs R] [KChan R] [KAe R] {s x : State} (hk :
    R s x) {c} {plain} :
    R s (State.compStart x c plain) := by
  unfold State.compStart
  with_reducible repeat' first
    | exact hk | apply Keeps.refl | apply State.fset_keeps | apply State.setCmp_keeps | apply State.updCh_keeps
    | apply State.refreshLanes_keeps | apply State.resolve_keeps | intro _ | apply Keeps.ite | dsimp only | split

theorem State.compRestart_keeps [Kept R] [KRegs R] [KChan R] [KAe R] {s x : State} (hk :
    R s x) {c} :
    R s (State.compRestart x c) := by
  unfold State.compRestart
  with_reducible repeat' first
    | exact hk | apply Keeps.refl | apply State.compStart_keeps | apply State.cond_keeps | intro _ | apply Keeps.ite
    | dsimp only | split

theorem State.refreshPair_keeps [Kept R] [KRegs R] {s x : State} (hk : R s x) {c} : R s (State.refreshPair x c) := by
  unfold State.refreshPair
  with_reducible repeat' first
    | exact hk | apply Keeps.refl | apply State.fset_keeps | intro _ | apply Keeps.ite | dsimp only | split

theorem State.refreshTest_keeps [Kept R] [KRegs R] [KChan R] [KAe R] [KSea R] {s x : State} (hk :
    R s x) {c} :
    R s (State.refreshTest x c) := by
  unfold State.refreshTest
  with_reducible repeat' first
    | exact hk | apply Keeps.refl | apply State.compStart_keeps | apply State.compRestart_keeps | apply State.fset_keeps
    | apply State.compInput_keeps | apply State.refreshLanes_keeps | apply State.cond_keeps
    | apply State.refreshPair_keeps | apply State.fbit_keeps | intro _ | apply Keeps.ite | dsimp only | split

theorem State.setActive_keeps [Kept R] [KRegs R] [KChan R] [KAe R] {s x : State} (hk :
    R s x) {c} {act} :
    R s (State.setActive x c act) := by
  unfold State.setActive
  with_reducible repeat' first
    | exact hk | apply Keeps.refl | apply State.compStart_keeps | apply State.fset_keeps | apply State.updCh_keeps
    | apply State.refreshLanes_keeps | intro _ | apply Keeps.ite | dsimp only | split

theorem State.setDrive_keeps [Kept R] [KChan R] {s x : State} (hk : R s x) {c} : R s (State.setDrive x c) := by
  unfold State.setDrive
  with_reducible repeat' first
    | exact hk | apply Keeps.refl | apply State.updCh_keeps | intro _ | apply Keeps.ite | dsimp only | split

theorem State.pinsSafe_keeps [Kept R] [KChan R] [KBank R] {s x : State} (hk : R s x) {b} : R s (State.pinsSafe x b) := by
  unfold State.pinsSafe
  with_reducible repeat' first
    | exact hk | apply Keeps.refl | apply State.each_keeps | apply State.updCh_keeps | apply State.updBk_keeps | intro _
    | apply Keeps.ite | dsimp only | split

theorem State.bankFault_keeps [Kept R] [KBank R] {s x : State} (hk :
    R s x) {b} {cause} {idx} :
    R s (State.bankFault x b cause idx) := by
  unfold State.bankFault
  with_reducible repeat' first
    | exact hk | apply Keeps.refl | apply State.updBk_keeps | intro _ | apply Keeps.ite | dsimp only | split

theorem State.emptyHistory_keeps [Kept R] [KRegs R] [KChan R] {s x : State} (hk :
    R s x) {c} :
    R s (State.emptyHistory x c) := by
  unfold State.emptyHistory
  with_reducible repeat' first
    | exact hk | apply Keeps.refl | apply State.fset_keeps | apply State.updCh_keeps | intro _ | apply Keeps.ite
    | dsimp only | split

theorem State.toC9_keeps [Kept R] [KIsl R] {s x : State} (hk : R s x) {x1} : R s (State.toC9 x x1) := by
  unfold State.toC9
  with_reducible repeat' first
    | exact hk | apply Keeps.refl | apply State.updIsl_keeps | intro _ | apply Keeps.ite | dsimp only | split

theorem State.sendSampler_keeps [Kept R] [KRegs R] [KIsl R] {s x : State} (hk :
    R s x) {c} {on} :
    R s (State.sendSampler x c on) := by
  unfold State.sendSampler
  with_reducible repeat' first
    | exact hk | apply Keeps.refl | apply State.fset_keeps | apply State.toC9_keeps | intro _ | apply Keeps.ite
    | dsimp only | split

theorem State.vigilSwitch_keeps [Kept R] [KRegs R] [KChan R] [KIsl R] {s x : State} (hk :
    R s x) {c} {old} {f} :
    R s (State.vigilSwitch x c old f) := by
  unfold State.vigilSwitch
  with_reducible repeat' first
    | exact hk | apply Keeps.refl | apply State.sendSampler_keeps | apply State.emptyHistory_keeps
    | apply State.cond_keeps | intro _ | apply Keeps.ite | dsimp only | split

theorem State.chargeFollows_keeps [Kept R] [KLed R] {s x : State} (hk : R s x) {c} : R s (State.chargeFollows x c) := by
  unfold State.chargeFollows
  with_reducible repeat' first
    | exact hk | apply Keeps.refl | apply State.lower_keeps | apply State.release_keeps | apply Keeps.foldl
    | apply Keeps.foldlP | intro _ | apply Keeps.ite | dsimp only | split

theorem State.setFunc_keeps [Kept R] [KRegs R] [KLed R] [KChan R] [KPmc R] [KAe R] [KIsl R] [KSea R] [KFree R] {s x : State}
    (hk :
    R s x) {mons} {c} {f} :
    R s (State.setFunc x mons c f) := by
  unfold State.setFunc
  with_reducible repeat' first
    | exact hk | apply Keeps.refl | apply State.pmuDisconnect_keeps | apply State.fset_keeps | apply State.updCh_keeps
    | apply State.pmuConnect_keeps | apply State.cond_keeps | apply State.vigilSwitch_keeps
    | apply State.chargeFollows_keeps | apply State.refreshTest_keeps | apply State.setDrive_keeps
    | apply State.setActive_keeps | intro _ | apply Keeps.ite | dsimp only | split

theorem State.applyMode_keeps [Kept R] [KRegs R] [KFrc R] [KLed R] [KChan R] [KPmc R] [KAe R] [KIsl R] [KSea R] [KFree R] {s
    x : State} (hk :
    R s x) {mons} {c} {v} :
    R s (State.applyMode x mons c v) := by
  unfold State.applyMode
  with_reducible repeat' first
    | exact hk | apply Keeps.refl | apply State.requestList_keeps | apply State.updCh_keeps | apply State.setFunc_keeps
    | apply State.cond_keeps | apply State.fbit_keeps | apply State.setEff_keeps | intro _ | apply Keeps.ite | dsimp only
    | split

theorem State.leaveVigil_keeps [Kept R] [KRegs R] [KLed R] [KChan R] [KPmc R] [KAe R] [KIsl R] [KSea R] [KFree R] {s x :
    State} (hk :
    R s x) {mons} {c} :
    R s (State.leaveVigil x mons c) := by
  unfold State.leaveVigil
  with_reducible repeat' first
    | exact hk | apply Keeps.refl | apply State.updCh_keeps | apply State.setFunc_keeps | apply State.fbit_keeps | intro _
    | apply Keeps.ite | dsimp only | split

theorem State.holdChan_keeps [Kept R] [KRegs R] [KLed R] [KChan R] [KPmc R] [KAe R] [KIsl R] [KSea R] [KFree R] {s x :
    State} (hk :
    R s x) {c} :
    R s (State.holdChan x c) := by
  unfold State.holdChan
  with_reducible repeat' first
    | exact hk | apply Keeps.refl | apply State.updCh_keeps | apply State.setFunc_keeps | intro _ | apply Keeps.ite
    | dsimp only | split

theorem State.reRequest_keeps [Kept R] [KRegs R] [KLed R] {s x : State} (hk :
    R s x) {b} {chans} :
    R s (State.reRequest x b chans) := by
  unfold State.reRequest
  with_reducible repeat' first
    | exact hk | apply Keeps.refl | apply State.fset_keeps | apply State.requestList_keeps | apply State.each_keeps
    | intro _ | apply Keeps.ite | dsimp only | split

theorem State.writeChMode_keeps [Kept R] [KRegs R] [KStaged R] [KLed R] [KChan R] {s x : State} (hk :
    R s x) {c} {w} :
    R s (State.writeChMode x c w) := by
  unfold State.writeChMode
  with_reducible repeat' first
    | exact hk | apply Keeps.refl | apply State.gated_keeps | apply State.fset_keeps | apply State.wr_keeps
    | apply State.updCh_keeps | apply State.inc_keeps | apply State.request_keeps | intro _ | apply Keeps.ite | dsimp only
    | split

theorem State.refreshInvert_keeps [Kept R] [KRegs R] {s x : State} (hk : R s x) {c} : R s (State.refreshInvert x c) := by
  unfold State.refreshInvert
  with_reducible repeat' first
    | exact hk | apply Keeps.refl | apply State.fbit_keeps | intro _ | apply Keeps.ite | dsimp only | split

theorem State.applyThreshold_keeps [Kept R] [KRegs R] [KFrc R] [KChan R] [KAe R] {s x : State} (hk :
    R s x) {a} {c} {v} :
    R s (State.applyThreshold x a c v) := by
  unfold State.applyThreshold
  with_reducible repeat' first
    | exact hk | apply Keeps.refl | apply State.compRestart_keeps | apply State.refreshInvert_keeps
    | apply State.emptyHistory_keeps | apply State.cond_keeps | apply State.setEff_keeps | intro _ | apply Keeps.ite
    | dsimp only | split

theorem State.applyFilter_keeps [Kept R] [KRegs R] [KFrc R] [KChan R] [KAe R] {s x : State} (hk :
    R s x) {c} {v} :
    R s (State.applyFilter x c v) := by
  unfold State.applyFilter
  with_reducible repeat' first
    | exact hk | apply Keeps.refl | apply State.compRestart_keeps | apply State.cond_keeps | apply State.setEff_keeps
    | intro _ | apply Keeps.ite | dsimp only | split

theorem State.refreshWeak_keeps [Kept R] [KRegs R] {s x : State} (hk : R s x) {c} : R s (State.refreshWeak x c) := by
  unfold State.refreshWeak
  with_reducible repeat' first
    | exact hk | apply Keeps.refl | apply State.fbit_keeps | intro _ | apply Keeps.ite | dsimp only | split

theorem State.applyVigil_keeps [Kept R] [KRegs R] [KFrc R] [KChan R] [KIsl R] {s x : State} (hk :
    R s x) {a} {c} {v} :
    R s (State.applyVigil x a c v) := by
  unfold State.applyVigil
  with_reducible repeat' first
    | exact hk | apply Keeps.refl | apply State.refreshWeak_keeps | apply State.sendSampler_keeps
    | apply State.emptyHistory_keeps | apply State.cond_keeps | apply State.setEff_keeps | intro _ | apply Keeps.ite
    | dsimp only | split

theorem State.rawCrossing_keeps [Kept R] [KRegs R] [KChan R] [KAe R] [KSea R] {s x : State} (hk :
    R s x) {c} {level} {fine} {discarded} :
    R s (State.rawCrossing x c level fine discarded) := by
  unfold State.rawCrossing
  with_reducible repeat' first
    | exact hk | apply Keeps.refl | apply State.compInput_keeps | apply State.updCh_keeps | apply State.lanesAt_keeps
    | intro _ | apply Keeps.ite | dsimp only | split

theorem State.filtered_keeps [Kept R] [KRegs R] [KChan R] [KAe R] [KSea R] [KRt R] {s x : State} (hk :
    R s x) {c} {decision} {discarded} :
    R s (State.filtered x c decision discarded) := by
  unfold State.filtered
  with_reducible repeat' first
    | exact hk | apply Keeps.refl | apply State.eventAt_keeps | apply State.fset_keeps | apply State.edgePush_keeps
    | apply State.setCmp_keeps | apply State.cond_keeps | apply State.lanesAt_keeps | apply Keeps.foldl
    | apply Keeps.foldlP | intro _ | apply Keeps.ite | dsimp only | split

theorem State.eventBefore_keeps [Kept R] [KRt R] {s x : State} (hk :
    R s x) {cls} {idx} {kind} :
    R s (State.eventBefore x cls idx kind) := by
  unfold State.eventBefore
  with_reducible repeat' first
    | exact hk | apply Keeps.refl | apply State.updRt_keeps | exact fun _ => Router.wf_of rfl | intro _ | apply Keeps.ite
    | dsimp only | split

theorem State.driverFault_keeps [Kept R] [KRegs R] [KChan R] [KRt R] {s x : State} (hk :
    R s x) {c} :
    R s (State.driverFault x c) := by
  unfold State.driverFault
  with_reducible repeat' first
    | exact hk | apply Keeps.refl | apply State.eventBefore_keeps | apply State.raiseF_keeps | apply State.setDrive_keeps
    | intro _ | apply Keeps.ite | dsimp only | split

theorem State.writeLatch_keeps [Kept R] [KRegs R] [KChan R] {s x : State} (hk :
    R s x) {c} {val} :
    R s (State.writeLatch x c val) := by
  unfold State.writeLatch
  with_reducible repeat' first
    | exact hk | apply Keeps.refl | apply State.gated_keeps | apply State.w1c_keeps | apply State.wr_keeps
    | apply State.updCh_keeps | apply State.cond_keeps | intro _ | apply Keeps.ite | dsimp only | split

theorem State.latchEvent_keeps [Kept R] [KRegs R] [KRt R] {s x : State} (hk : R s x) {e} : R s (State.latchEvent x e) := by
  unfold State.latchEvent
  with_reducible repeat' first
    | exact hk | apply Keeps.refl | apply State.eventT_keeps | apply State.wr_keeps | apply State.inc_keeps
    | apply State.cond_keeps | apply State.raiseF_keeps | intro _ | apply Keeps.ite | dsimp only | split

theorem State.latchEvents_keeps [Kept R] [KRegs R] [KRt R] {s x : State} (hk :
    R s x) {evs} :
    R s (State.latchEvents x evs) := by
  unfold State.latchEvents
  with_reducible repeat' first
    | exact hk | apply Keeps.refl | apply State.latchEvent_keeps | apply Keeps.foldl | apply Keeps.foldlP | intro _
    | apply Keeps.ite | dsimp only | split

theorem State.popEdge_keeps [Kept R] [KRegs R] [KLat R] [KChan R] {s x : State} (hk :
    R s x) {c} {h} :
    R s (State.popEdge x c h).1 := by
  unfold State.popEdge
  with_reducible repeat' first
    | exact hk | apply Keeps.refl | apply State.fset_keeps | apply State.latch_keeps | apply State.updCh_keeps | intro _
    | apply Keeps.ite | dsimp only | split

theorem State.refreshChanInt_keeps [Kept R] [KRegs R] {s x : State} (hk : R s x) : R s (State.refreshChanInt x) := by
  unfold State.refreshChanInt
  with_reducible repeat' first
    | exact hk | apply Keeps.refl | apply State.fset_keeps | apply State.fbit_keeps | apply State.upTo_keeps
    | apply Keeps.foldl | apply Keeps.foldlP | intro _ | apply Keeps.ite | dsimp only | split

theorem execChModeWrite_keeps [Kept R] [KRegs R] [KStaged R] [KLed R] [KChan R] {s : State} {c} {w} :
    KeepsOut R s (execChModeWrite c w s) := by
  unfold execChModeWrite
  with_reducible repeat' first
    | apply KeepsOut.ok | apply KeepsOut.next | apply Keeps.refl | apply State.writeChMode_keeps | intro _
    | apply Keeps.ite | dsimp only | split

theorem execDriverFault_keeps [Kept R] [KRegs R] [KChan R] [KRt R] {s : State} {c} :
    KeepsOut R s (execDriverFault c s) := by
  unfold execDriverFault
  with_reducible repeat' first
    | apply KeepsOut.ok | apply KeepsOut.next | apply Keeps.refl | apply State.driverFault_keeps | intro _
    | apply Keeps.ite | dsimp only | split

theorem execDrvFaultClear_keeps [Kept R] [KRegs R] [KStaged R] {s : State} {c} {cyc} :
    KeepsOut R s (execDrvFaultClear c cyc s) := by
  unfold execDrvFaultClear
  with_reducible repeat' first
    | apply KeepsOut.ok | apply KeepsOut.next | apply Keeps.refl | apply State.gated_keeps | apply State.stage_keeps
    | intro _ | apply Keeps.ite | dsimp only | split

theorem execFilteredTransition_keeps [Kept R] [KRegs R] [KChan R] [KAe R] [KSea R] [KRt R] {s : State} {c} {decision}
    {discarded} :
    KeepsOut R s (execFilteredTransition c decision discarded s) := by
  unfold execFilteredTransition
  with_reducible repeat' first
    | apply KeepsOut.ok | apply KeepsOut.next | apply Keeps.refl | apply State.filtered_keeps | intro _ | apply Keeps.ite
    | dsimp only | split

theorem execChLatchWrite_keeps [Kept R] [KRegs R] [KChan R] {s : State} {c} {val} :
    KeepsOut R s (execChLatchWrite c val s) := by
  unfold execChLatchWrite
  with_reducible repeat' first
    | apply KeepsOut.ok | apply KeepsOut.next | apply Keeps.refl | apply State.writeLatch_keeps | intro _
    | apply Keeps.ite | dsimp only | split

theorem execChEdgeLoRead_keeps [Kept R] [KRegs R] [KLat R] [KChan R] {s : State} {c} {h} :
    KeepsOut R s (execChEdgeLoRead c h s) := by
  unfold execChEdgeLoRead
  with_reducible repeat' first
    | apply KeepsOut.ok | apply KeepsOut.next | apply Keeps.refl | apply State.popEdge_keeps
    | refine Keeps.fst ?_ (by assumption) | intro _ | apply Keeps.ite | dsimp only | split

theorem execChEdgeStatRead_keeps [Kept R] [KRegs R] {s : State} {c} {x1} : KeepsOut R s (execChEdgeStatRead c x1 s) := by
  unfold execChEdgeStatRead
  with_reducible repeat' first
    | apply KeepsOut.ok | apply KeepsOut.next | apply Keeps.refl | apply State.fset_keeps | intro _ | apply Keeps.ite
    | dsimp only | split

end Sys2Proof.Machine
end

