-- ==== Sys2Proof/Laws/KeepsSource.lean ====
section
/-! SUPPORT. `Keeps` of the operations of Machine/Source.lean. -/

namespace Sys2Proof.Machine

variable {R : State → State → Prop}

theorem State.playOver_keeps [Kept R] [KRegs R] [KSrc R] {s x : State} (hk :
    R s x) {n} {last} :
    R s (State.playOver x n last) := by
  unfold State.playOver
  with_reducible repeat' first
    | exact hk | apply Keeps.refl | apply State.updSr_keeps | apply State.fset_keeps | intro _ | apply Keeps.ite
    | dsimp only | split

theorem State.playStop_keeps [Kept R] [KRegs R] [KSrc R] {s x : State} (hk : R s x) {n} : R s (State.playStop x n) := by
  unfold State.playStop
  with_reducible repeat' first
    | exact hk | apply Keeps.refl | apply State.playOver_keeps | intro _ | apply Keeps.ite | dsimp only | split

theorem State.playStart_keeps [Kept R] [KRegs R] [KSrc R] {s x : State} (hk : R s x) {n} : R s (State.playStart x n) := by
  unfold State.playStart
  with_reducible repeat' first
    | exact hk | apply Keeps.refl | apply State.updSr_keeps | apply State.fset_keeps | intro _ | apply Keeps.ite
    | dsimp only | split

theorem State.playEndBy_keeps [Kept R] [KRegs R] [KSrc R] {s x : State} (hk :
    R s x) {n} {t} :
    R s (State.playEndBy x n t) := by
  unfold State.playEndBy
  with_reducible repeat' first
    | exact hk | apply Keeps.refl | apply State.playOver_keeps | intro _ | apply Keeps.ite | dsimp only | split

theorem State.playTick_keeps [Kept R] [KRegs R] [KSrc R] {s x : State} (hk : R s x) {n} : R s (State.playTick x n) := by
  unfold State.playTick
  with_reducible repeat' first
    | exact hk | apply Keeps.refl | apply State.playStart_keeps | apply State.updSr_keeps | apply State.playEndBy_keeps
    | intro _ | apply Keeps.ite | dsimp only | split

theorem State.srcTick_keeps [Kept R] [KRegs R] [KSrc R] {s x : State} (hk : R s x) {n} : R s (State.srcTick x n) := by
  unfold State.srcTick
  with_reducible repeat' first
    | exact hk | apply Keeps.refl | apply State.updSr_keeps | apply State.playTick_keeps | apply State.fset_keeps
    | apply State.cond_keeps | apply State.playStop_keeps | apply State.fbit_keeps | intro _ | apply Keeps.ite
    | dsimp only | split

theorem State.srcRequest_keeps [Kept R] [KRegs R] [KStaged R] [KLed R] {s x : State} (hk :
    R s x) {n} {who} {cyc} {effs} :
    R s (State.srcRequest x n who cyc effs) := by
  unfold State.srcRequest
  with_reducible repeat' first
    | exact hk | apply Keeps.refl | apply State.fset_keeps | apply State.request_keeps | intro _ | apply Keeps.ite
    | dsimp only | split

theorem State.srcAdmitted_keeps [Kept R] [KRegs R] [KLed R] [KSrc R] {s x : State} (hk :
    R s x) {n} :
    R s (State.srcAdmitted x n) := by
  unfold State.srcAdmitted
  with_reducible repeat' first
    | exact hk | apply Keeps.refl | apply State.updSr_keeps | apply State.fset_keeps | apply State.cond_keeps
    | apply State.release_keeps | intro _ | apply Keeps.ite | dsimp only | split

theorem State.srcOffNow_keeps [Kept R] [KRegs R] [KStaged R] [KLed R] [KSrc R] {s x : State} (hk :
    R s x) {n} :
    R s (State.srcOffNow x n) := by
  unfold State.srcOffNow
  with_reducible repeat' first
    | exact hk | apply Keeps.refl | apply State.updSr_keeps | apply State.fset_keeps | apply State.withdraw_keeps
    | apply State.cond_keeps | apply State.playStop_keeps | apply State.unstage_keeps | apply State.release_keeps
    | intro _ | apply Keeps.ite | dsimp only | split

theorem State.srcAgain_keeps [Kept R] [KRegs R] [KStaged R] [KLed R] {s x : State} (hk :
    R s x) {n} :
    R s (State.srcAgain x n) := by
  unfold State.srcAgain
  with_reducible repeat' first
    | exact hk | apply Keeps.refl | apply State.srcRequest_keeps | apply State.cond_keeps | intro _ | apply Keeps.ite
    | dsimp only | split

theorem State.srcRange_keeps [Kept R] [KRegs R] [KSrc R] {s x : State} (hk :
    R s x) {n} {range} {load} :
    R s (State.srcRange x n range load) := by
  unfold State.srcRange
  with_reducible repeat' first
    | exact hk | apply Keeps.refl | apply State.updSr_keeps | apply State.fset_keeps | apply State.cond_keeps
    | apply State.playStop_keeps | apply State.raiseF_keeps | apply State.fbit_keeps | intro _ | apply Keeps.ite
    | dsimp only | split

theorem State.applySrcCtl_keeps [Kept R] [KRegs R] [KFrc R] [KStaged R] [KLed R] [KSrc R] {s x : State} (hk :
    R s x) {n} {v} :
    R s (State.applySrcCtl x n v) := by
  unfold State.applySrcCtl
  with_reducible repeat' first
    | exact hk | apply Keeps.refl | apply State.srcOffNow_keeps | apply State.srcRange_keeps | apply State.srcAgain_keeps
    | apply State.setEff_keeps | intro _ | apply Keeps.ite | dsimp only | split

theorem State.applySrcCode_keeps [Kept R] [KFrc R] [KSrc R] {s x : State} (hk :
    R s x) {a} {n} {v} :
    R s (State.applySrcCode x a n v) := by
  unfold State.applySrcCode
  with_reducible repeat' first
    | exact hk | apply Keeps.refl | apply State.updSr_keeps | apply State.setEff_keeps | intro _ | apply Keeps.ite
    | dsimp only | split

theorem State.writeSrcCtl_keeps [Kept R] [KRegs R] [KStaged R] [KLed R] [KSrc R] {s x : State} (hk :
    R s x) {n} {w} :
    R s (State.writeSrcCtl x n w) := by
  unfold State.writeSrcCtl
  with_reducible repeat' first
    | exact hk | apply Keeps.refl | apply State.gated_keeps | apply State.updSr_keeps | apply State.fset_keeps
    | apply State.stage_keeps | apply State.wr_keeps | apply State.withdraw_keeps | apply State.srcRequest_keeps
    | apply State.inc_keeps | apply State.cond_keeps | intro _ | apply Keeps.ite | dsimp only | split

theorem State.playGo_keeps [Kept R] [KRegs R] {s x : State} (hk : R s x) {n} : R s (State.playGo x n) := by
  unfold State.playGo
  with_reducible repeat' first
    | exact hk | apply Keeps.refl | apply State.fset_keeps | apply State.raiseF_keeps | intro _ | apply Keeps.ite
    | dsimp only | split

theorem State.srcLimit_keeps [Kept R] [KRegs R] [KSrc R] [KRt R] {s x : State} (hk :
    R s x) {n} {i} :
    R s (State.srcLimit x n i) := by
  unfold State.srcLimit
  with_reducible repeat' first
    | exact hk | apply Keeps.refl | apply State.updSr_keeps | apply State.fset_keeps | apply State.cond_keeps
    | apply State.raiseF_keeps | apply State.event_keeps | intro _ | apply Keeps.ite | dsimp only | split

theorem State.srcFaultNow_keeps [Kept R] [KRegs R] [KStaged R] [KLed R] [KChan R] [KBank R] [KSrc R] [KRt R] {s x : State}
    (hk :
    R s x) {n} :
    R s (State.srcFaultNow x n) := by
  unfold State.srcFaultNow
  with_reducible repeat' first
    | exact hk | apply Keeps.refl | apply State.updSr_keeps | apply State.fset_keeps | apply State.srcOffNow_keeps
    | apply State.eventBefore_keeps | apply State.pinsSafe_keeps | apply State.raiseF_keeps | apply State.bankFault_keeps
    | intro _ | apply Keeps.ite | dsimp only | split

theorem State.srcFaultClear_keeps [Kept R] [KRegs R] [KStaged R] [KLed R] {s x : State} (hk :
    R s x) {n} :
    R s (State.srcFaultClear x n) := by
  unfold State.srcFaultClear
  with_reducible repeat' first
    | exact hk | apply Keeps.refl | apply State.w1c_keeps | apply State.cond_keeps | apply State.srcAgain_keeps | intro _
    | apply Keeps.ite | dsimp only | split

theorem execSourceEnable_keeps [Kept R] [KRegs R] [KStaged R] [KLed R] [KSrc R] {s : State} {b} {j} {who} :
    KeepsOut R s (execSourceEnable b j who s) := by
  unfold execSourceEnable
  with_reducible repeat' first
    | apply KeepsOut.ok | apply KeepsOut.next | apply Keeps.refl | apply State.writeSrcCtl_keeps | intro _
    | apply Keeps.ite | dsimp only | split

theorem execSourceRangeChange_keeps [Kept R] [KRegs R] [KFrc R] [KSrc R] {s : State} {b} {j} {range} {load} :
    KeepsOut R s (execSourceRangeChange b j range load s) := by
  unfold execSourceRangeChange
  with_reducible repeat' first
    | apply KeepsOut.ok | apply KeepsOut.next | apply Keeps.refl | apply State.srcRange_keeps | apply State.fsetBoth_keeps
    | intro _ | apply Keeps.ite | dsimp only | split

theorem execSourcePlayGo_keeps [Kept R] [KRegs R] {s : State} {b} {j} : KeepsOut R s (execSourcePlayGo b j s) := by
  unfold execSourcePlayGo
  with_reducible repeat' first
    | apply KeepsOut.ok | apply KeepsOut.next | apply Keeps.refl | apply State.playGo_keeps | intro _ | apply Keeps.ite
    | dsimp only | split

theorem execSourcePlayStop_keeps [Kept R] [KRegs R] [KSrc R] {s : State} {b} {j} :
    KeepsOut R s (execSourcePlayStop b j s) := by
  unfold execSourcePlayStop
  with_reducible repeat' first
    | apply KeepsOut.ok | apply KeepsOut.next | apply Keeps.refl | apply State.playStop_keeps | intro _ | apply Keeps.ite
    | dsimp only | split

theorem execPlaybackStart_keeps [Kept R] [KRegs R] [KSrc R] {s : State} {b} {j} :
    KeepsOut R s (execPlaybackStart b j s) := by
  unfold execPlaybackStart
  with_reducible repeat' first
    | apply KeepsOut.ok | apply KeepsOut.next | apply Keeps.refl | apply State.playStart_keeps | intro _ | apply Keeps.ite
    | dsimp only | split

theorem execPlaybackEnd_keeps [Kept R] [KRegs R] [KSrc R] {s : State} {b} {j} : KeepsOut R s (execPlaybackEnd b j s) := by
  unfold execPlaybackEnd
  with_reducible repeat' first
    | apply KeepsOut.ok | apply KeepsOut.next | apply Keeps.refl | apply State.playEndBy_keeps | intro _ | apply Keeps.ite
    | dsimp only | split

theorem execSourceLimit_keeps [Kept R] [KRegs R] [KSrc R] [KRt R] {s : State} {b} {j} {i} :
    KeepsOut R s (execSourceLimit b j i s) := by
  unfold execSourceLimit
  with_reducible repeat' first
    | apply KeepsOut.ok | apply KeepsOut.next | apply Keeps.refl | apply State.srcLimit_keeps | intro _ | apply Keeps.ite
    | dsimp only | split

theorem execSourceFault_keeps [Kept R] [KRegs R] [KStaged R] [KLed R] [KChan R] [KBank R] [KSrc R] [KRt R] {s : State} {b}
    {j} :
    KeepsOut R s (execSourceFault b j s) := by
  unfold execSourceFault
  with_reducible repeat' first
    | apply KeepsOut.ok | apply KeepsOut.next | apply Keeps.refl | apply State.srcFaultNow_keeps | intro _
    | apply Keeps.ite | dsimp only | split

theorem execSourceFaultClear_keeps [Kept R] [KRegs R] [KStaged R] [KLed R] {s : State} {b} {j} :
    KeepsOut R s (execSourceFaultClear b j s) := by
  unfold execSourceFaultClear
  with_reducible repeat' first
    | apply KeepsOut.ok | apply KeepsOut.next | apply Keeps.refl | apply State.srcFaultClear_keeps
    | apply State.gated_keeps | intro _ | apply Keeps.ite | dsimp only | split

end Sys2Proof.Machine
end

