-- ==== Sys2Proof/Laws/KeepsAcq.lean ====
section
/-! SUPPORT. `Keeps` of the operations of Machine/Acq.lean. -/

namespace Sys2Proof.Machine

variable {R : State → State → Prop}

theorem State.aeFeed_keeps [Kept R] [KMem R] {s x : State} (hk :
    R s x) {e} {h} {last} {a} {a5} :
    R s (State.aeFeed x e h last a a5).1 := by
  induction a generalizing x h a5 with
  | nil => unfold State.aeFeed; exact hk
  | cons v rest ih =>
    unfold State.aeFeed
    dsimp only
    split
    · exact ih hk
    · split
      · exact ih (State.memWr_keeps hk)
      · exact ih hk

theorem State.aeInputs_keeps [Kept R] [KFree R] {s x : State} (hk : R s x) {e} {inp} : R s (State.aeInputs x e inp).1 := by
  unfold State.aeInputs
  with_reducible repeat' first
    | exact hk | apply Keeps.refl | apply State.freshN_keeps | intro _ | apply Keeps.ite | dsimp only | split

theorem State.aeShow_keeps [Kept R] [KRegs R] {s x : State} (hk : R s x) {e} : R s (State.aeShow x e) := by
  unfold State.aeShow
  with_reducible repeat' first
    | exact hk | apply Keeps.refl | apply State.fset_keeps | apply State.wr_keeps | apply State.upTo_keeps | intro _
    | apply Keeps.ite | dsimp only | split

theorem State.aeDeliver_keeps [Kept R] [KRegs R] [KMem R] [KAe R] {s x : State} (hk :
    R s x) {e} {h} {trunc} {last} :
    R s (State.aeDeliver x e h trunc last) := by
  unfold State.aeDeliver
  with_reducible repeat' first
    | exact hk | apply Keeps.refl | apply State.updEn_keeps | apply State.raiseIf_keeps | apply State.memWr_keeps
    | apply State.cond_keeps | intro _ | apply Keeps.ite | dsimp only | split

theorem State.aeDiscard_keeps [Kept R] [KRegs R] [KAe R] [KRt R] {s x : State} (hk :
    R s x) {e} {r} {t} :
    R s (State.aeDiscard x e r t) := by
  unfold State.aeDiscard
  with_reducible repeat' first
    | exact hk | apply Keeps.refl | apply State.updEn_keeps | apply State.eventAt_keeps | apply State.aeShow_keeps
    | apply State.inc_keeps | intro _ | apply Keeps.ite | dsimp only | split

theorem State.aeComplete_keeps [Kept R] [KRegs R] [KAe R] [KRt R] {s x : State} (hk :
    R s x) {e} :
    R s (State.aeComplete x e) := by
  unfold State.aeComplete
  with_reducible repeat' first
    | exact hk | apply Keeps.refl | apply State.updEn_keeps | apply State.eventAt_keeps | apply State.fset_keeps
    | apply State.aeDiscard_keeps | apply State.cond_keeps | apply State.setAe_keeps | intro _ | apply Keeps.ite
    | dsimp only | split

theorem State.aeArm_keeps [Kept R] [KRegs R] [KAe R] {s x : State} (hk :
    R s x) {e} {r} {t} {dead} :
    R s (State.aeArm x e r t dead) := by
  unfold State.aeArm
  with_reducible repeat' first
    | exact hk | apply Keeps.refl | apply State.updEn_keeps | apply State.setAe_keeps | intro _ | apply Keeps.ite
    | dsimp only | split

theorem State.aeRearm_keeps [Kept R] [KRegs R] [KAe R] {s x : State} (hk : R s x) {e} : R s (State.aeRearm x e) := by
  unfold State.aeRearm
  with_reducible repeat' first
    | exact hk | apply Keeps.refl | apply State.updEn_keeps | apply State.aeArm_keeps | intro _ | apply Keeps.ite
    | dsimp only | split

theorem State.aeCompleteBy_keeps [Kept R] [KRegs R] [KAe R] [KRt R] {s x : State} (hk :
    R s x) {e} {t} :
    R s (State.aeCompleteBy x e t) := by
  unfold State.aeCompleteBy
  with_reducible repeat' first
    | exact hk | apply Keeps.refl | apply State.cond_keeps | apply State.aeComplete_keeps | intro _ | apply Keeps.ite
    | dsimp only | split

theorem State.aeRearmBy_keeps [Kept R] [KRegs R] [KAe R] {s x : State} (hk :
    R s x) {e} {t} :
    R s (State.aeRearmBy x e t) := by
  unfold State.aeRearmBy
  with_reducible repeat' first
    | exact hk | apply Keeps.refl | apply State.aeRearm_keeps | apply State.cond_keeps | intro _ | apply Keeps.ite
    | dsimp only | split

theorem State.aeBy_keeps [Kept R] [KRegs R] [KAe R] [KRt R] {s x : State} (hk :
    R s x) {e} {t} :
    R s (State.aeBy x e t) := by
  unfold State.aeBy
  with_reducible repeat' first
    | exact hk | apply Keeps.refl | apply State.aeCompleteBy_keeps | apply State.aeRearmBy_keeps | intro _
    | apply Keeps.ite | dsimp only | split

theorem State.aeDeadTick_keeps [Kept R] [KRegs R] [KAe R] {s x : State} (hk : R s x) {e} : R s (State.aeDeadTick x e) := by
  unfold State.aeDeadTick
  with_reducible repeat' first
    | exact hk | apply Keeps.refl | apply State.updEn_keeps | apply State.wr_keeps | intro _ | apply Keeps.ite
    | dsimp only | split

theorem State.aeMiss_keeps [Kept R] [KAe R] [KRt R] {s x : State} (hk :
    R s x) {e} {t} {interp} :
    R s (State.aeMiss x e t interp) := by
  unfold State.aeMiss
  with_reducible repeat' first
    | exact hk | apply Keeps.refl | apply State.updEn_keeps | apply State.eventAt_keeps | intro _ | apply Keeps.ite
    | dsimp only | split

theorem State.aeAccept_keeps [Kept R] [KRegs R] [KAe R] [KRt R] {s x : State} (hk :
    R s x) {e} {cond} {t} {interp} :
    R s (State.aeAccept x e cond t interp) := by
  unfold State.aeAccept
  with_reducible repeat' first
    | exact hk | apply Keeps.refl | apply State.updEn_keeps | apply State.eventAt_keeps | apply State.setAe_keeps
    | intro _ | apply Keeps.ite | dsimp only | split

theorem State.aeJoin_keeps [Kept R] [KAe R] [KRt R] {s x : State} (hk :
    R s x) {e} {cond} {t} {interp} :
    R s (State.aeJoin x e cond t interp) := by
  unfold State.aeJoin
  with_reducible repeat' first
    | exact hk | apply Keeps.refl | apply State.updEn_keeps | apply State.updRt_keeps | exact fun _ => Router.wf_of rfl
    | intro _ | apply Keeps.ite | dsimp only | split

theorem State.aeJudge_keeps [Kept R] [KRegs R] [KAe R] [KRt R] {s x : State} (hk :
    R s x) {e} {p} :
    R s (State.aeJudge x e p) := by
  unfold State.aeJudge
  with_reducible repeat' first
    | exact hk | apply Keeps.refl | apply State.aeMiss_keeps | apply State.aeJoin_keeps | apply State.aeBy_keeps
    | apply State.aeAccept_keeps | apply State.cond_keeps | intro _ | apply Keeps.ite | dsimp only | split

theorem State.aeJudgeBy_keeps [Kept R] [KRegs R] [KAe R] [KRt R] {s x : State} (hk :
    R s x) {e} {upto} {before} :
    R s (State.aeJudgeBy x e upto before) := by
  unfold State.aeJudgeBy
  with_reducible repeat' first
    | exact hk | apply Keeps.refl | apply State.updEn_keeps | apply State.aeJudge_keeps | apply Keeps.foldl
    | apply Keeps.foldlP | intro _ | apply Keeps.ite | dsimp only | split

theorem State.aeTrigger_keeps [Kept R] [KAe R] {s x : State} (hk : R s x) {e} : R s (State.aeTrigger x e) := by
  unfold State.aeTrigger
  with_reducible repeat' first
    | exact hk | apply Keeps.refl | apply State.condTo_keeps | apply State.condEdge_keeps | intro _ | apply Keeps.ite
    | dsimp only | split

theorem State.aeTick3_keeps [Kept R] [KAe R] {s x : State} (hk : R s x) {e} : R s (State.aeTick3 x e) := by
  unfold State.aeTick3
  with_reducible repeat' first
    | exact hk | apply Keeps.refl | apply State.updEn_keeps | intro _ | apply Keeps.ite | dsimp only | split

theorem State.aeWrite_keeps [Kept R] [KRegs R] [KMem R] [KAe R] [KFree R] {s x : State} (hk :
    R s x) {e} {inp} :
    R s (State.aeWrite x e inp) := by
  unfold State.aeWrite
  with_reducible repeat' first
    | exact hk | apply Keeps.refl | apply State.updEn_keeps | apply State.aeFeed_keeps | apply State.aeInputs_keeps
    | apply State.aeDeliver_keeps | apply Keeps.foldl | apply Keeps.foldlP | refine Keeps.fst ?_ (by assumption) | intro _
    | apply Keeps.ite | dsimp only | split

theorem State.aeEndOne_keeps [Kept R] [KRegs R] [KMem R] [KAe R] [KRt R] [KFree R] {s x : State} (hk :
    R s x) {inp} {e} :
    R s (State.aeEndOne x inp e) := by
  unfold State.aeEndOne
  with_reducible repeat' first
    | exact hk | apply Keeps.refl | apply State.aeJudgeBy_keeps | apply State.aeTick3_keeps | apply State.updEn_keeps
    | apply State.aeDeadTick_keeps | apply State.aeBy_keeps | apply State.aeWrite_keeps | apply State.cond_keeps | intro _
    | apply Keeps.ite | dsimp only | split

theorem State.aeGoNow_keeps [Kept R] [KRegs R] [KAe R] {s x : State} (hk : R s x) {e} : R s (State.aeGoNow x e) := by
  unfold State.aeGoNow
  with_reducible repeat' first
    | exact hk | apply Keeps.refl | apply State.updEn_keeps | apply State.fset_keeps | apply State.aeShow_keeps
    | apply State.raiseF_keeps | apply State.aeArm_keeps | intro _ | apply Keeps.ite | dsimp only | split

theorem State.aeStopNow_keeps [Kept R] [KRegs R] [KMem R] [KAe R] [KRt R] {s x : State} (hk :
    R s x) {e} :
    R s (State.aeStopNow x e) := by
  unfold State.aeStopNow
  with_reducible repeat' first
    | exact hk | apply Keeps.refl | apply State.updEn_keeps | apply State.eventAt_keeps | apply State.setAe_keeps
    | apply State.aeDeliver_keeps | intro _ | apply Keeps.ite | dsimp only | split

theorem State.aePop_keeps [Kept R] [KRegs R] [KAe R] {s x : State} (hk : R s x) {e} : R s (State.aePop x e) := by
  unfold State.aePop
  with_reducible repeat' first
    | exact hk | apply Keeps.refl | apply State.updEn_keeps | apply State.aeShow_keeps | apply State.cond_keeps
    | apply State.setAe_keeps | intro _ | apply Keeps.ite | dsimp only | split

theorem State.aeRecords_keeps [Kept R] [KRegs R] [KAe R] {s x : State} (hk : R s x) {e} : R s (State.aeRecords x e) := by
  unfold State.aeRecords
  with_reducible repeat' first
    | exact hk | apply Keeps.refl | apply State.updEn_keeps | apply State.aeShow_keeps | intro _ | apply Keeps.ite
    | dsimp only | split

theorem State.aeRequest_keeps [Kept R] [KRegs R] [KStaged R] [KLed R] {s x : State} (hk :
    R s x) {e} {who} {cyc} {effs} :
    R s (State.aeRequest x e who cyc effs) := by
  unfold State.aeRequest
  with_reducible repeat' first
    | exact hk | apply Keeps.refl | apply State.fset_keeps | apply State.request_keeps | intro _ | apply Keeps.ite
    | dsimp only | split

theorem State.aeAdmitted_keeps [Kept R] [KRegs R] [KLed R] [KAe R] {s x : State} (hk :
    R s x) {e} :
    R s (State.aeAdmitted x e) := by
  unfold State.aeAdmitted
  with_reducible repeat' first
    | exact hk | apply Keeps.refl | apply State.updEn_keeps | apply State.fset_keeps | apply State.cond_keeps
    | apply State.setAe_keeps | apply State.release_keeps | intro _ | apply Keeps.ite | dsimp only | split

theorem State.aeOffNow_keeps [Kept R] [KRegs R] [KMem R] [KStaged R] [KLed R] [KAe R] [KRt R] {s x : State} (hk :
    R s x) {e} :
    R s (State.aeOffNow x e) := by
  unfold State.aeOffNow
  with_reducible repeat' first
    | exact hk | apply Keeps.refl | apply State.updEn_keeps | apply State.fset_keeps | apply State.withdraw_keeps
    | apply State.aeStopNow_keeps | apply State.cond_keeps | apply State.setAe_keeps | apply State.unstage_keeps
    | apply State.release_keeps | intro _ | apply Keeps.ite | dsimp only | split

theorem State.aeAgain_keeps [Kept R] [KRegs R] [KStaged R] [KLed R] {s x : State} (hk :
    R s x) {e} :
    R s (State.aeAgain x e) := by
  unfold State.aeAgain
  with_reducible repeat' first
    | exact hk | apply Keeps.refl | apply State.aeRequest_keeps | apply State.cond_keeps | intro _ | apply Keeps.ite
    | dsimp only | split

theorem State.applyAeCtl_keeps [Kept R] [KRegs R] [KFrc R] [KMem R] [KStaged R] [KLed R] [KAe R] [KRt R] {s x : State} (hk :
    R s x) {e} {v} :
    R s (State.applyAeCtl x e v) := by
  unfold State.applyAeCtl
  with_reducible repeat' first
    | exact hk | apply Keeps.refl | apply State.updEn_keeps | apply State.aeOffNow_keeps | apply State.aeAgain_keeps
    | apply State.cond_keeps | apply State.setEff_keeps | intro _ | apply Keeps.ite | dsimp only | split

theorem State.applyAeOfs_keeps [Kept R] [KFrc R] [KAe R] {s x : State} (hk :
    R s x) {a} {e} {v} :
    R s (State.applyAeOfs x a e v) := by
  unfold State.applyAeOfs
  with_reducible repeat' first
    | exact hk | apply Keeps.refl | apply State.updEn_keeps | apply State.cond_keeps | apply State.setEff_keeps | intro _
    | apply Keeps.ite | dsimp only | split

theorem State.writeAeCtl_keeps [Kept R] [KRegs R] [KStaged R] [KLed R] [KAe R] {s x : State} (hk :
    R s x) {e} {w} :
    R s (State.writeAeCtl x e w) := by
  unfold State.writeAeCtl
  with_reducible repeat' first
    | exact hk | apply Keeps.refl | apply State.gated_keeps | apply State.updEn_keeps | apply State.fset_keeps
    | apply State.stage_keeps | apply State.wr_keeps | apply State.withdraw_keeps | apply State.inc_keeps
    | apply State.aeRequest_keeps | apply State.cond_keeps | apply Keeps.foldl | apply Keeps.foldlP | intro _
    | apply Keeps.ite | dsimp only | split

theorem State.aeReform_keeps [Kept R] [KAe R] {s x : State} (hk : R s x) {e} : R s (State.aeReform x e) := by
  unfold State.aeReform
  with_reducible repeat' first
    | exact hk | apply Keeps.refl | apply State.updEn_keeps | intro _ | apply Keeps.ite | dsimp only | split

theorem State.aeTick_keeps [Kept R] [KRegs R] [KAe R] [KRt R] {s x : State} (hk : R s x) {e} : R s (State.aeTick x e) := by
  unfold State.aeTick
  with_reducible repeat' first
    | exact hk | apply Keeps.refl | apply State.aeJudgeBy_keeps | apply State.aeReform_keeps | apply State.fbit_keeps
    | intro _ | apply Keeps.ite | dsimp only | split

theorem State.aeCross_keeps [Kept R] [KRegs R] [KAe R] {s x : State} (hk :
    R s x) {e} {t} {level} :
    R s (State.aeCross x e t level) := by
  unfold State.aeCross
  with_reducible repeat' first
    | exact hk | apply Keeps.refl | apply State.updEn_keeps | apply State.lanesAt_keeps | apply State.condEdge_keeps
    | intro _ | apply Keeps.ite | dsimp only | split

theorem State.aeTransition_keeps [Kept R] [KRegs R] [KAe R] [KRt R] {s x : State} (hk :
    R s x) {e} {cond} {i} {level} :
    R s (State.aeTransition x e cond i level) := by
  unfold State.aeTransition
  with_reducible repeat' first
    | exact hk | apply Keeps.refl | apply State.aeJudgeBy_keeps | apply State.aeCross_keeps | apply State.cond_keeps
    | intro _ | apply Keeps.ite | dsimp only | split

theorem State.aeEvents_keeps [Kept R] [KRegs R] [KAe R] {s x : State} (hk : R s x) {evs} : R s (State.aeEvents x evs) := by
  unfold State.aeEvents
  with_reducible repeat' first
    | exact hk | apply Keeps.refl | apply State.aeRecords_keeps | apply State.inc_keeps | apply State.upTo_keeps
    | apply Keeps.foldl | apply Keeps.foldlP | intro _ | apply Keeps.ite | dsimp only | split

theorem execAeEnable_keeps [Kept R] [KRegs R] [KStaged R] [KLed R] [KAe R] {s : State} {b} {j} {who} :
    KeepsOut R s (execAeEnable b j who s) := by
  unfold execAeEnable
  with_reducible repeat' first
    | apply KeepsOut.ok | apply KeepsOut.next | apply Keeps.refl | apply State.writeAeCtl_keeps | intro _
    | apply Keeps.ite | dsimp only | split

theorem execAeGo_keeps [Kept R] [KRegs R] [KAe R] {s : State} {b} {j} : KeepsOut R s (execAeGo b j s) := by
  unfold execAeGo
  with_reducible repeat' first
    | apply KeepsOut.ok | apply KeepsOut.next | apply Keeps.refl | apply State.aeGoNow_keeps | intro _ | apply Keeps.ite
    | dsimp only | split

theorem execAeStop_keeps [Kept R] [KRegs R] [KMem R] [KAe R] [KRt R] {s : State} {b} {j} :
    KeepsOut R s (execAeStop b j s) := by
  unfold execAeStop
  with_reducible repeat' first
    | apply KeepsOut.ok | apply KeepsOut.next | apply Keeps.refl | apply State.aeStopNow_keeps | intro _ | apply Keeps.ite
    | dsimp only | split

theorem execAeForce_keeps [Kept R] [KAe R] {s : State} {b} {j} : KeepsOut R s (execAeForce b j s) := by
  unfold execAeForce
  with_reducible repeat' first
    | apply KeepsOut.ok | apply KeepsOut.next | apply Keeps.refl | apply State.aeTrigger_keeps | intro _ | apply Keeps.ite
    | dsimp only | split

theorem execTriggerTransition_keeps [Kept R] [KRegs R] [KAe R] [KRt R] {s : State} {b} {j} {cond} {i} {level} :
    KeepsOut R s (execTriggerTransition b j cond i level s) := by
  unfold execTriggerTransition
  with_reducible repeat' first
    | apply KeepsOut.ok | apply KeepsOut.next | apply Keeps.refl | apply State.aeTransition_keeps | intro _
    | apply Keeps.ite | dsimp only | split

theorem execRecordComplete_keeps [Kept R] [KRegs R] [KAe R] [KRt R] {s : State} {b} {j} :
    KeepsOut R s (execRecordComplete b j s) := by
  unfold execRecordComplete
  with_reducible repeat' first
    | apply KeepsOut.ok | apply KeepsOut.next | apply Keeps.refl | apply State.aeCompleteBy_keeps | intro _
    | apply Keeps.ite | dsimp only | split

theorem execSegmentRearm_keeps [Kept R] [KRegs R] [KAe R] {s : State} {b} {j} : KeepsOut R s (execSegmentRearm b j s) := by
  unfold execSegmentRearm
  with_reducible repeat' first
    | apply KeepsOut.ok | apply KeepsOut.next | apply Keeps.refl | apply State.aeRearmBy_keeps | intro _ | apply Keeps.ite
    | dsimp only | split

theorem execRecordPop_keeps [Kept R] [KRegs R] [KAe R] {s : State} {b} {j} : KeepsOut R s (execRecordPop b j s) := by
  unfold execRecordPop
  with_reducible repeat' first
    | apply KeepsOut.ok | apply KeepsOut.next | apply Keeps.refl | apply State.aePop_keeps | intro _ | apply Keeps.ite
    | dsimp only | split

theorem execAeStatusRead_keeps [Kept R] [KRegs R] {s : State} {b} {j} : KeepsOut R s (execAeStatusRead b j s) := by
  unfold execAeStatusRead
  with_reducible repeat' first
    | apply KeepsOut.ok | apply KeepsOut.next | apply Keeps.refl | apply State.fset_keeps | intro _ | apply Keeps.ite
    | dsimp only | split

end Sys2Proof.Machine
end

