-- ==== Sys2Proof/Laws/KeepsResp.lean ====
section
/-! SUPPORT. `Keeps` of the operations of Machine/Resp.lean. -/

namespace Sys2Proof.Machine

variable {R : State → State → Prop}

theorem State.driveTo_keeps [Kept R] [KChan R] {s x : State} (hk : R s x) {c} {d} : R s (State.driveTo x c d) := by
  unfold State.driveTo
  with_reducible repeat' first
    | exact hk | apply Keeps.refl | apply State.updCh_keeps | apply State.setDrive_keeps | intro _ | apply Keeps.ite
    | dsimp only | split

theorem State.driveOff_keeps [Kept R] [KChan R] {s x : State} (hk : R s x) {c} : R s (State.driveOff x c) := by
  unfold State.driveOff
  with_reducible repeat' first
    | exact hk | apply Keeps.refl | apply State.updCh_keeps | apply State.setDrive_keeps | intro _ | apply Keeps.ite
    | dsimp only | split

theorem State.respRelease_keeps [Kept R] [KChan R] [KBank R] {s x : State} (hk :
    R s x) {b} :
    R s (State.respRelease x b) := by
  unfold State.respRelease
  with_reducible repeat' first
    | exact hk | apply Keeps.refl | apply State.driveTo_keeps | apply State.updBk_keeps | apply Keeps.foldl
    | apply Keeps.foldlP | intro _ | apply Keeps.ite | dsimp only | split

theorem State.respDriveTo_keeps [Kept R] [KChan R] [KBank R] {s x : State} (hk :
    R s x) {b} {data} {oe} {keep} :
    R s (State.respDriveTo x b data oe keep) := by
  unfold State.respDriveTo
  with_reducible repeat' first
    | exact hk | apply Keeps.refl | apply State.driveTo_keeps | apply State.updBk_keeps | apply Keeps.foldl
    | apply Keeps.foldlP | intro _ | apply Keeps.ite | dsimp only | split

theorem State.handStart_keeps [Kept R] [KRegs R] [KChan R] [KBank R] {s x : State} (hk :
    R s x) {b} {t} :
    R s (State.handStart x b t) := by
  unfold State.handStart
  with_reducible repeat' first
    | exact hk | apply Keeps.refl | apply State.fset_keeps | apply State.each_keeps | apply State.updBk_keeps
    | apply State.cond_keeps | apply State.driveOff_keeps | intro _ | apply Keeps.ite | dsimp only | split

theorem State.handEnd_keeps [Kept R] [KRegs R] [KChan R] [KBank R] {s x : State} (hk :
    R s x) {b} {t} :
    R s (State.handEnd x b t) := by
  unfold State.handEnd
  with_reducible repeat' first
    | exact hk | apply Keeps.refl | apply State.fset_keeps | apply State.respRelease_keeps | apply State.updBk_keeps
    | intro _ | apply Keeps.ite | dsimp only | split

theorem State.handDue_keeps [Kept R] [KRegs R] [KChan R] [KBank R] {s x : State} (hk :
    R s x) {b} {t} :
    R s (State.handDue x b t) := by
  unfold State.handDue
  with_reducible repeat' first
    | exact hk | apply Keeps.refl | apply State.handEnd_keeps | apply State.cond_keeps | intro _ | apply Keeps.ite
    | dsimp only | split

theorem State.handLast_keeps [Kept R] [KBank R] {s x : State} (hk : R s x) {b} : R s (State.handLast x b) := by
  unfold State.handLast
  with_reducible repeat' first
    | exact hk | apply Keeps.refl | apply State.updBk_keeps | intro _ | apply Keeps.ite | dsimp only | split

theorem State.applyResp_keeps [Kept R] [KRegs R] [KFrc R] {s x : State} (hk :
    R s x) {a} {b} {v} :
    R s (State.applyResp x a b v) := by
  unfold State.applyResp
  with_reducible repeat' first
    | exact hk | apply Keeps.refl | apply State.fbit_keeps | apply State.setEff_keeps | intro _ | apply Keeps.ite
    | dsimp only | split

theorem State.respHit_keeps [Kept R] [KRegs R] [KStaged R] [KRt R] {s x : State} (hk :
    R s x) {b} {addr} {e} {st} :
    R s (State.respHit x b addr e st) := by
  unfold State.respHit
  with_reducible repeat' first
    | exact hk | apply Keeps.refl | apply State.stage_keeps | apply State.wr_keeps | apply State.inc_keeps
    | apply State.cond_keeps | apply State.raiseF_keeps | apply State.event_keeps | intro _ | apply Keeps.ite | dsimp only
    | split

theorem State.respMissed_keeps [Kept R] [KRegs R] [KBank R] [KRt R] {s x : State} (hk :
    R s x) {b} {addr} {st} :
    R s (State.respMissed x b addr st) := by
  unfold State.respMissed
  with_reducible repeat' first
    | exact hk | apply Keeps.refl | apply State.wr_keeps | apply State.updBk_keeps | apply State.inc_keeps
    | apply State.cond_keeps | apply State.event_keeps | intro _ | apply Keeps.ite | dsimp only | split

theorem State.respCycle_keeps [Kept R] [KRegs R] [KStaged R] [KChan R] [KBank R] [KRt R] {s x : State} (hk :
    R s x) {b} {t} {cut} :
    R s (State.respCycle x b t cut) := by
  unfold State.respCycle
  with_reducible repeat' first
    | exact hk | apply Keeps.refl | apply State.respHit_keeps | apply State.respMissed_keeps
    | apply State.respDriveTo_keeps | apply State.inc_keeps | intro _ | apply Keeps.ite | dsimp only | split

theorem State.busCycle_keeps [Kept R] [KRegs R] [KStaged R] [KChan R] [KBank R] [KRt R] {s x : State} (hk :
    R s x) {b} {fine} {cut} :
    R s (State.busCycle x b fine cut) := by
  unfold State.busCycle
  with_reducible repeat' first
    | exact hk | apply Keeps.refl | apply State.handDue_keeps | apply State.respCycle_keeps | apply State.updBk_keeps
    | apply State.inc_keeps | intro _ | apply Keeps.ite | dsimp only | split

theorem State.holdEnd_keeps [Kept R] [KRegs R] [KChan R] [KBank R] {s x : State} (hk :
    R s x) {b} {fine} :
    R s (State.holdEnd x b fine) := by
  unfold State.holdEnd
  with_reducible repeat' first
    | exact hk | apply Keeps.refl | apply State.handDue_keeps | apply State.respRelease_keeps | apply State.cond_keeps
    | intro _ | apply Keeps.ite | dsimp only | split

theorem execBusCycle_keeps [Kept R] [KRegs R] [KStaged R] [KChan R] [KBank R] [KRt R] {s : State} {b} {fine} {cut} :
    KeepsOut R s (execBusCycle b fine cut s) := by
  unfold execBusCycle
  with_reducible repeat' first
    | apply KeepsOut.ok | apply KeepsOut.next | apply Keeps.refl | apply State.busCycle_keeps | intro _ | apply Keeps.ite
    | dsimp only | split

theorem execDataHoldEnd_keeps [Kept R] [KRegs R] [KChan R] [KBank R] {s : State} {b} {fine} :
    KeepsOut R s (execDataHoldEnd b fine s) := by
  unfold execDataHoldEnd
  with_reducible repeat' first
    | apply KeepsOut.ok | apply KeepsOut.next | apply Keeps.refl | apply State.holdEnd_keeps | intro _ | apply Keeps.ite
    | dsimp only | split

theorem execResponderRamWrite_keeps [Kept R] [KRegs R] [KMem R] {s : State} {b} {entry} {val} :
    KeepsOut R s (execResponderRamWrite b entry val s) := by
  unfold execResponderRamWrite
  with_reducible repeat' first
    | apply KeepsOut.ok | apply KeepsOut.next | apply Keeps.refl | apply State.gated_keeps | apply State.memWr_keeps
    | intro _ | apply Keeps.ite | dsimp only | split

theorem execRespHitsRead_keeps [Kept R] [KRegs R] {s : State} {b} : KeepsOut R s (execRespHitsRead b s) := by
  unfold execRespHitsRead
  with_reducible repeat' first
    | apply KeepsOut.ok | apply KeepsOut.next | apply Keeps.refl | apply State.wr_keeps | intro _ | apply Keeps.ite
    | dsimp only | split

theorem execRespErrsRead_keeps [Kept R] [KRegs R] {s : State} {b} : KeepsOut R s (execRespErrsRead b s) := by
  unfold execRespErrsRead
  with_reducible repeat' first
    | apply KeepsOut.ok | apply KeepsOut.next | apply Keeps.refl | apply State.wr_keeps | intro _ | apply Keeps.ite
    | dsimp only | split

theorem execRespFirstmissRead_keeps [Kept R] [KRegs R] {s : State} {b} : KeepsOut R s (execRespFirstmissRead b s) := by
  unfold execRespFirstmissRead
  with_reducible repeat' first
    | apply KeepsOut.ok | apply KeepsOut.next | apply Keeps.refl | apply State.wr_keeps | intro _ | apply Keeps.ite
    | dsimp only | split

end Sys2Proof.Machine
end

