-- ==== Sys2Proof/Laws/KeepsVigil.lean ====
section
/-! SUPPORT. `Keeps` of the operations of Machine/Vigil.lean. -/

namespace Sys2Proof.Machine

variable {R : State → State → Prop}

theorem State.refreshWake_keeps [Kept R] [KRegs R] [KBs R] [KIsl R] {s x : State} (hk :
    R s x) :
    R s (State.refreshWake x) := by
  unfold State.refreshWake
  with_reducible repeat' first
    | exact hk | apply Keeps.refl | apply State.bsCount_keeps | apply State.fbit_keeps | apply State.updIsl_keeps
    | intro _ | apply Keeps.ite | dsimp only | split

theorem State.setWakeFlag_keeps [Kept R] [KRegs R] [KBs R] [KIsl R] {s x : State} (hk :
    R s x) {b} {ch} {cause} :
    R s (State.setWakeFlag x b ch cause) := by
  unfold State.setWakeFlag
  with_reducible repeat' first
    | exact hk | apply Keeps.refl | apply State.fset_keeps | apply State.wr_keeps | apply State.inc_keeps
    | apply State.cond_keeps | apply State.refreshWake_keeps | apply State.updIsl_keeps | intro _ | apply Keeps.ite
    | dsimp only | split

theorem State.clearWakeFlags_keeps [Kept R] [KRegs R] [KBs R] [KIsl R] {s x : State} (hk :
    R s x) {v} :
    R s (State.clearWakeFlags x v) := by
  unfold State.clearWakeFlags
  with_reducible repeat' first
    | exact hk | apply Keeps.refl | apply State.fset_keeps | apply State.wr_keeps | apply State.each_keeps
    | apply State.cond_keeps | apply State.refreshWake_keeps | apply State.updIsl_keeps | intro _ | apply Keeps.ite
    | dsimp only | split

theorem State.autoRelease_keeps [Kept R] [KRegs R] [KBs R] [KIsl R] {s x : State} (hk :
    R s x) :
    R s (State.autoRelease x) := by
  unfold State.autoRelease
  with_reducible repeat' first
    | exact hk | apply Keeps.refl | apply State.bsCount_keeps | apply State.cond_keeps | apply State.refreshWake_keeps
    | apply State.updIsl_keeps | intro _ | apply Keeps.ite | dsimp only | split

theorem State.wakeLevel_keeps [Kept R] [KIsl R] {s x : State} (hk : R s x) : R s (State.wakeLevel x) := by
  unfold State.wakeLevel
  with_reducible repeat' first
    | exact hk | apply Keeps.refl | apply State.each_keeps | apply State.toC9_keeps | intro _ | apply Keeps.ite
    | dsimp only | split

theorem State.takeChip_keeps [Kept R] [KRegs R] [KChan R] {s x : State} (hk :
    R s x) {c} {above} {ctl} {code} :
    R s (State.takeChip x c above ctl code).1 := by
  unfold State.takeChip
  with_reducible repeat' first
    | exact hk | apply Keeps.refl | apply State.fset_keeps | apply State.updCh_keeps | apply State.cond_keeps
    | apply State.fbit_keeps | intro _ | apply Keeps.ite | dsimp only | split

theorem State.lightSample_keeps [Kept R] [KRegs R] [KChan R] [KRt R] {s x : State} (hk :
    R s x) {c} {above} :
    R s (State.lightSample x c above) := by
  unfold State.lightSample
  with_reducible repeat' first
    | exact hk | apply Keeps.refl | apply State.eventT_keeps | apply State.cond_keeps | apply State.takeChip_keeps
    | refine Keeps.fst ?_ (by assumption) | intro _ | apply Keeps.ite | dsimp only | split

theorem State.deepSample_keeps [Kept R] [KRegs R] [KBs R] [KChan R] [KIsl R] {s x : State} (hk :
    R s x) {c} {above} {cyc} :
    R s (State.deepSample x c above cyc) := by
  unfold State.deepSample
  with_reducible repeat' first
    | exact hk | apply Keeps.refl | apply State.setWakeFlag_keeps | apply State.updCh_keeps | apply State.cond_keeps
    | apply State.takeChip_keeps | refine Keeps.fst ?_ (by assumption) | intro _ | apply Keeps.ite | dsimp only | split

theorem State.vigilSample_keeps [Kept R] [KRegs R] [KBs R] [KChan R] [KIsl R] [KRt R] {s x : State} (hk :
    R s x) {c} {level} {cyc} :
    R s (State.vigilSample x c level cyc) := by
  unfold State.vigilSample
  with_reducible repeat' first
    | exact hk | apply Keeps.refl | apply State.lightSample_keeps | apply State.deepSample_keeps | apply State.cond_keeps
    | intro _ | apply Keeps.ite | dsimp only | split

theorem State.vigilEvent_keeps [Kept R] [KRegs R] [KChan R] {s x : State} (hk :
    R s x) {e} :
    R s (State.vigilEvent x e) := by
  unfold State.vigilEvent
  with_reducible repeat' first
    | exact hk | apply Keeps.refl | apply State.wr_keeps | apply State.updCh_keeps | apply State.inc_keeps
    | apply State.raiseF_keeps | intro _ | apply Keeps.ite | dsimp only | split

theorem State.vigilEvents_keeps [Kept R] [KRegs R] [KChan R] {s x : State} (hk :
    R s x) {evs} :
    R s (State.vigilEvents x evs) := by
  unfold State.vigilEvents
  with_reducible repeat' first
    | exact hk | apply Keeps.refl | apply State.vigilEvent_keeps | apply Keeps.foldl | apply Keeps.foldlP | intro _
    | apply Keeps.ite | dsimp only | split

theorem State.enelleHit_keeps [Kept R] [KRegs R] [KBs R] [KIsl R] {s x : State} (hk :
    R s x) {unit} {bcast} :
    R s (State.enelleHit x unit bcast) := by
  unfold State.enelleHit
  with_reducible repeat' first
    | exact hk | apply Keeps.refl | apply State.fset_keeps | apply State.wr_keeps | apply State.cond_keeps
    | apply State.refreshWake_keeps | apply State.updIsl_keeps | intro _ | apply Keeps.ite | dsimp only | split

theorem State.enelleSample_keeps [Kept R] [KRegs R] [KBs R] [KIsl R] {s x : State} (hk :
    R s x) {wakein} :
    R s (State.enelleSample x wakein) := by
  unfold State.enelleSample
  with_reducible repeat' first
    | exact hk | apply Keeps.refl | apply State.enelleHit_keeps | apply State.cond_keeps | apply State.updIsl_keeps
    | intro _ | apply Keeps.ite | dsimp only | split

theorem State.applyC9_keeps [Kept R] [KRegs R] [KBs R] [KChan R] [KIsl R] {s x : State} (hk :
    R s x) {a} :
    R s (State.applyC9 x a) := by
  unfold State.applyC9
  with_reducible repeat' first
    | exact hk | apply Keeps.refl | apply State.setWakeFlag_keeps | apply State.clearWakeFlags_keeps
    | apply State.updCh_keeps | apply State.emptyHistory_keeps | apply State.cond_keeps | apply State.refreshWake_keeps
    | apply State.fbit_keeps | apply State.updIsl_keeps | intro _ | apply Keeps.ite | dsimp only | split

theorem State.c9Done_keeps [Kept R] [KRegs R] [KBs R] [KChan R] [KIsl R] {s x : State} (hk :
    R s x) {n} :
    R s (State.c9Done x n) := by
  unfold State.c9Done
  with_reducible repeat' first
    | exact hk | apply Keeps.refl | apply State.applyC9_keeps | apply State.updIsl_keeps | intro _ | apply Keeps.ite
    | dsimp only | split

theorem execVigilMatch_keeps [Kept R] [KRegs R] [KBs R] [KChan R] [KIsl R] [KRt R] {s : State} {c} {level} {cyc} :
    KeepsOut R s (execVigilMatch c level cyc s) := by
  unfold execVigilMatch
  with_reducible repeat' first
    | apply KeepsOut.ok | apply KeepsOut.next | apply Keeps.refl | apply State.vigilSample_keeps | intro _
    | apply Keeps.ite | dsimp only | split

theorem execDeepMatchToCore_keeps [Kept R] [KChan R] [KRt R] {s : State} {c} : KeepsOut R s (execDeepMatchToCore c s) := by
  unfold execDeepMatchToCore
  with_reducible repeat' first
    | apply KeepsOut.ok | apply KeepsOut.next | apply Keeps.refl | apply State.updCh_keeps | apply State.cond_keeps
    | apply State.event_keeps | intro _ | apply Keeps.ite | dsimp only | split

theorem execC9TransferDone_keeps [Kept R] [KRegs R] [KBs R] [KChan R] [KIsl R] {s : State} {n} :
    KeepsOut R s (execC9TransferDone n s) := by
  unfold execC9TransferDone
  with_reducible repeat' first
    | apply KeepsOut.ok | apply KeepsOut.next | apply Keeps.refl | apply State.c9Done_keeps | intro _ | apply Keeps.ite
    | dsimp only | split

theorem execWakeStatusClear_keeps [Kept R] [KIsl R] {s : State} {val} : KeepsOut R s (execWakeStatusClear val s) := by
  unfold execWakeStatusClear
  with_reducible repeat' first
    | apply KeepsOut.ok | apply KeepsOut.next | apply Keeps.refl | apply State.toC9_keeps | intro _ | apply Keeps.ite
    | dsimp only | split

theorem execEnelleMatch_keeps [Kept R] [KRegs R] [KBs R] [KIsl R] {s : State} {unit} {bcast} :
    KeepsOut R s (execEnelleMatch unit bcast s) := by
  unfold execEnelleMatch
  with_reducible repeat' first
    | apply KeepsOut.ok | apply KeepsOut.next | apply Keeps.refl | apply State.enelleHit_keeps | apply State.cond_keeps
    | intro _ | apply Keeps.ite | dsimp only | split

theorem execEnelleWakeEvent_keeps [Kept R] [KIsl R] [KRt R] {s : State} {x0} {x1} :
    KeepsOut R s (execEnelleWakeEvent x0 x1 s) := by
  unfold execEnelleWakeEvent
  with_reducible repeat' first
    | apply KeepsOut.ok | apply KeepsOut.next | apply Keeps.refl | apply State.eventT_keeps | apply State.cond_keeps
    | apply State.updIsl_keeps | intro _ | apply Keeps.ite | dsimp only | split

theorem execDeepVigilRequest_keeps [Kept R] [KStaged R] {s : State} {cyc} : KeepsOut R s (execDeepVigilRequest cyc s) := by
  unfold execDeepVigilRequest
  with_reducible repeat' first
    | apply KeepsOut.ok | apply KeepsOut.next | apply Keeps.refl | apply State.stage_keeps | apply State.cond_keeps
    | intro _ | apply Keeps.ite | dsimp only | split

theorem execXt32Failure_keeps [Kept R] [KRegs R] [KIsl R] {s : State} : KeepsOut R s (execXt32Failure s) := by
  unfold execXt32Failure
  with_reducible repeat' first
    | apply KeepsOut.ok | apply KeepsOut.next | apply Keeps.refl | apply State.fset_keeps | apply State.raiseIf_keeps
    | apply State.updIsl_keeps | intro _ | apply Keeps.ite | dsimp only | split

theorem execOscillatorRestart_keeps [Kept R] [KRegs R] [KIsl R] {s : State} : KeepsOut R s (execOscillatorRestart s) := by
  unfold execOscillatorRestart
  with_reducible repeat' first
    | apply KeepsOut.ok | apply KeepsOut.next | apply Keeps.refl | apply State.fset_keeps | apply State.updIsl_keeps
    | intro _ | apply Keeps.ite | dsimp only | split

theorem execVigilClockEdge_keeps [Kept R] [KRegs R] [KBs R] [KChan R] [KIsl R] [KRt R] {s : State} {wakein} {cyc} {pins} :
    KeepsOut R s (execVigilClockEdge wakein cyc pins s) := by
  unfold execVigilClockEdge
  with_reducible repeat' first
    | apply KeepsOut.ok | apply KeepsOut.next | apply Keeps.refl | apply State.wr_keeps | apply State.cond_keeps
    | apply State.vigilSample_keeps | apply State.enelleSample_keeps | apply State.updIsl_keeps | apply Keeps.foldl
    | apply Keeps.foldlP | intro _ | apply Keeps.ite | dsimp only | split

theorem execChVigilTsLoRead_keeps [Kept R] [KLat R] {s : State} {c} {h} : KeepsOut R s (execChVigilTsLoRead c h s) := by
  unfold execChVigilTsLoRead
  with_reducible repeat' first
    | apply KeepsOut.ok | apply KeepsOut.next | apply Keeps.refl | apply State.latch_keeps | intro _ | apply Keeps.ite
    | dsimp only | split

end Sys2Proof.Machine
end

