-- ==== Sys2Proof/Laws/KeepsBanks.lean ====
section
/-! SUPPORT. `Keeps` of the operations of Machine/Banks.lean. -/

namespace Sys2Proof.Machine

variable {R : State → State → Prop}

theorem State.pllStart_keeps [Kept R] [KUnit R] {s x : State} (hk : R s x) {d} : R s (State.pllStart x d) := by
  unfold State.pllStart
  with_reducible repeat' first
    | exact hk | apply Keeps.refl | apply State.updUnit_keeps | exact fun _ => rfl | exact fun _ => UnitSt.rail_st ..
    | intro _ | apply Keeps.ite | dsimp only | split

theorem State.pllStop_keeps [Kept R] [KRegs R] [KUnit R] {s x : State} (hk : R s x) {d} : R s (State.pllStop x d) := by
  unfold State.pllStop
  with_reducible repeat' first
    | exact hk | apply Keeps.refl | apply State.fset_keeps | apply State.updUnit_keeps | exact fun _ => rfl
    | exact fun _ => UnitSt.rail_st .. | intro _ | apply Keeps.ite | dsimp only | split

theorem State.bankPend_keeps [Kept R] [KRegs R] {s x : State} (hk : R s x) {b} : R s (State.bankPend x b) := by
  unfold State.bankPend
  with_reducible repeat' first
    | exact hk | apply Keeps.refl | apply State.fbit_keeps | intro _ | apply Keeps.ite | dsimp only | split

theorem State.seqHalt_keeps [Kept R] [KRegs R] [KFrc R] [KStaged R] [KLed R] [KBank R] [KPmc R] [KRt R] {s x : State} (hk :
    R s x) {b} {st} :
    R s (State.seqHalt x b st) := by
  unfold State.seqHalt
  with_reducible repeat' first
    | exact hk | apply Keeps.refl | apply State.withdrawWreg_keeps | apply State.fset_keeps | apply State.updBk_keeps
    | intro _ | apply Keeps.ite | dsimp only | split

theorem State.seqCut_keeps [Kept R] [KRegs R] [KFrc R] [KStaged R] [KLed R] [KChan R] [KBank R] [KPmc R] [KRt R] {s x :
    State} (hk :
    R s x) {b} {st} :
    R s (State.seqCut x b st) := by
  unfold State.seqCut
  with_reducible repeat' first
    | exact hk | apply Keeps.refl | apply State.handEnd_keeps | apply State.each_keeps | apply State.updCh_keeps
    | apply State.updBk_keeps | apply State.seqHalt_keeps | intro _ | apply Keeps.ite | dsimp only | split

theorem State.leaveActive_keeps [Kept R] [KRegs R] [KFrc R] [KMem R] [KStaged R] [KLed R] [KChan R] [KBank R] [KPmc R] [KSrc
    R] [KAe R] [KIsl R] [KSea R] [KRt R] [KFree R] {s x : State} (hk :
    R s x) {b} :
    R s (State.leaveActive x b) := by
  unfold State.leaveActive
  with_reducible repeat' first
    | exact hk | apply Keeps.refl | apply State.srcOffNow_keeps | apply State.aeOffNow_keeps
    | apply State.pmcBankStop_keeps | apply State.each_keeps | apply State.cond_keeps | apply State.seqCut_keeps
    | apply State.upTo_keeps | apply State.holdChan_keeps | intro _ | apply Keeps.ite | dsimp only | split

theorem State.moveBank_keeps [Kept R] [KRegs R] [KFrc R] [KMem R] [KStaged R] [KLed R] [KChan R] [KBank R] [KPmc R] [KSrc R]
    [KAe R] [KIsl R] [KSea R] [KUnit R] [KRt R] [KFree R] {s x : State} (hk :
    R s x) {b} {st} :
    R s (State.moveBank x b st) := by
  unfold State.moveBank
  with_reducible repeat' first
    | exact hk | apply Keeps.refl | apply State.fset_keeps | apply State.aeAgain_keeps | apply State.each_keeps
    | apply State.pllStart_keeps | apply State.updBk_keeps | apply State.cond_keeps | apply State.seqHalt_keeps
    | apply State.srcAgain_keeps | apply State.leaveActive_keeps | apply State.reRequest_keeps | apply State.upTo_keeps
    | apply State.release_keeps | apply State.holdChan_keeps | intro _ | apply Keeps.ite | dsimp only | split

theorem State.pllIdle_keeps [Kept R] [KRegs R] [KLed R] [KUnit R] {s x : State} (hk :
    R s x) {d} :
    R s (State.pllIdle x d) := by
  unfold State.pllIdle
  with_reducible repeat' first
    | exact hk | apply Keeps.refl | apply State.pllStop_keeps | apply State.cond_keeps | apply State.release_keeps
    | intro _ | apply Keeps.ite | dsimp only | split

theorem State.applyBank_keeps [Kept R] [KRegs R] [KFrc R] [KMem R] [KStaged R] [KLed R] [KChan R] [KBank R] [KPmc R] [KSrc
    R] [KAe R] [KIsl R] [KSea R] [KUnit R] [KRt R] [KFree R] {s x : State} (hk :
    R s x) {b} {req} :
    R s (State.applyBank x b req) := by
  unfold State.applyBank
  with_reducible repeat' first
    | exact hk | apply Keeps.refl | apply State.bankPend_keeps | apply State.moveBank_keeps | apply State.updBk_keeps
    | apply State.cond_keeps | apply State.setEff_keeps | intro _ | apply Keeps.ite | dsimp only | split

theorem State.pllEntry_keeps [Kept R] [KRegs R] [KFrc R] [KMem R] [KStaged R] [KLed R] [KChan R] [KBank R] [KPmc R] [KSrc R]
    [KAe R] [KIsl R] [KSea R] [KUnit R] [KRt R] [KFree R] {s x : State} (hk :
    R s x) {b} :
    R s (State.pllEntry x b) := by
  unfold State.pllEntry
  with_reducible repeat' first
    | exact hk | apply Keeps.refl | apply State.bankPend_keeps | apply State.moveBank_keeps | apply State.updBk_keeps
    | intro _ | apply Keeps.ite | dsimp only | split

theorem State.lockEntry_keeps [Kept R] [KRegs R] [KLed R] [KUnit R] {s x : State} (hk :
    R s x) {d} :
    R s (State.lockEntry x d) := by
  unfold State.lockEntry
  with_reducible repeat' first
    | exact hk | apply Keeps.refl | apply State.each_keeps | apply State.updUnit_keeps | apply State.cond_keeps
    | apply State.reRequest_keeps | exact fun _ => rfl | exact fun _ => UnitSt.rail_st .. | intro _ | apply Keeps.ite
    | dsimp only | split

theorem State.settleReq_keeps [Kept R] [KFrc R] {s x : State} (hk : R s x) {b} : R s (State.settleReq x b) := by
  unfold State.settleReq
  with_reducible repeat' first
    | exact hk | apply Keeps.refl | apply State.setEff_keeps | intro _ | apply Keeps.ite | dsimp only | split

theorem State.dropBankRequests_keeps [Kept R] [KRegs R] [KFrc R] [KStaged R] [KLed R] [KBank R] {s x : State} (hk :
    R s x) {b} :
    R s (State.dropBankRequests x b) := by
  unfold State.dropBankRequests
  with_reducible repeat' first
    | exact hk | apply Keeps.refl | apply State.bankPend_keeps | apply State.withdraw_keeps | apply State.updBk_keeps
    | apply State.unstage_keeps | apply State.settleReq_keeps | intro _ | apply Keeps.ite | dsimp only | split

theorem State.uncharge_keeps [Kept R] [KLed R] {s x : State} (hk : R s x) {b} : R s (State.uncharge x b) := by
  unfold State.uncharge
  with_reducible repeat' first
    | exact hk | apply Keeps.refl | apply State.cond_keeps | apply State.release_keeps | intro _ | apply Keeps.ite
    | dsimp only | split

theorem State.consumeRequest_keeps [Kept R] [KRegs R] [KFrc R] [KStaged R] [KLed R] [KBank R] {s x : State} (hk :
    R s x) {b} :
    R s (State.consumeRequest x b) := by
  unfold State.consumeRequest
  with_reducible repeat' first
    | exact hk | apply Keeps.refl | apply State.updLed_keeps | apply State.bankPend_keeps | apply State.updStaged_keeps
    | apply State.updBk_keeps | apply State.uncharge_keeps | apply State.settleReq_keeps | intro _ | apply Keeps.ite
    | dsimp only | split

theorem State.requestBank_keeps [Kept R] [KRegs R] [KStaged R] [KLed R] [KBank R] {s x : State} (hk :
    R s x) {b} {req} {who} {cyc} :
    R s (State.requestBank x b req who cyc) := by
  unfold State.requestBank
  with_reducible repeat' first
    | exact hk | apply Keeps.refl | apply State.fset_keeps | apply State.withdraw_keeps | apply State.updBk_keeps
    | apply State.request_keeps | intro _ | apply Keeps.ite | dsimp only | split

theorem State.submitWaiting_keeps [Kept R] [KRegs R] [KStaged R] [KLed R] [KBank R] {s x : State} (hk :
    R s x) {b} :
    R s (State.submitWaiting x b) := by
  unfold State.submitWaiting
  with_reducible repeat' first
    | exact hk | apply Keeps.refl | apply State.requestBank_keeps | intro _ | apply Keeps.ite | dsimp only | split

theorem State.writeBankMode_keeps [Kept R] [KRegs R] [KStaged R] [KLed R] [KBank R] {s x : State} (hk :
    R s x) {b} {w} :
    R s (State.writeBankMode x b w) := by
  unfold State.writeBankMode
  with_reducible repeat' first
    | exact hk | apply Keeps.refl | apply State.gated_keeps | apply State.wr_keeps | apply State.inc_keeps
    | apply State.requestBank_keeps | intro _ | apply Keeps.ite | dsimp only | split

theorem State.errHaltNow_keeps [Kept R] [KRegs R] [KFrc R] [KMem R] [KStaged R] [KLed R] [KChan R] [KBank R] [KPmc R] [KSrc
    R] [KAe R] [KIsl R] [KSea R] [KUnit R] [KRt R] [KFree R] {s x : State} (hk :
    R s x) {b} {code} :
    R s (State.errHaltNow x b code) := by
  unfold State.errHaltNow
  with_reducible repeat' first
    | exact hk | apply Keeps.refl | apply State.fset_keeps | apply State.moveBank_keeps | apply State.eventT_keeps
    | apply State.wr_keeps | apply State.updBk_keeps | apply State.raiseF_keeps | apply State.seqCut_keeps
    | apply State.consumeRequest_keeps | intro _ | apply Keeps.ite | dsimp only | split

theorem State.abortNow_keeps [Kept R] [KRegs R] [KFrc R] [KMem R] [KStaged R] [KLed R] [KChan R] [KBank R] [KPmc R] [KSrc R]
    [KAe R] [KIsl R] [KSea R] [KUnit R] [KRt R] [KFree R] {s x : State} (hk :
    R s x) {b} :
    R s (State.abortNow x b) := by
  unfold State.abortNow
  with_reducible repeat' first
    | exact hk | apply Keeps.refl | apply State.fset_keeps | apply State.moveBank_keeps | apply State.cond_keeps
    | apply State.seqCut_keeps | apply State.consumeRequest_keeps | intro _ | apply Keeps.ite | dsimp only | split

theorem State.dieFaultNow_keeps [Kept R] [KRegs R] {s x : State} (hk :
    R s x) {d} {cause} :
    R s (State.dieFaultNow x d cause) := by
  unfold State.dieFaultNow
  with_reducible repeat' first
    | exact hk | apply Keeps.refl | apply State.fset_keeps | apply State.cond_keeps | apply State.raiseF_keeps | intro _
    | apply Keeps.ite | dsimp only | split

theorem State.dieFault_keeps [Kept R] [KBank R] [KUnit R] {s x : State} (hk :
    R s x) {d} {cause} :
    R s (State.dieFault x d cause) := by
  unfold State.dieFault
  with_reducible repeat' first
    | exact hk | apply Keeps.refl | apply State.each_keeps | apply State.updUnit_keeps | apply State.cond_keeps
    | apply State.bankFault_keeps | exact fun _ => rfl | exact fun _ => UnitSt.rail_st .. | intro _ | apply Keeps.ite
    | dsimp only | split

theorem State.recordFaults_keeps [Kept R] [KStaged R] [KUnit R] {s x : State} (hk :
    R s x) :
    R s (State.recordFaults x) := by
  unfold State.recordFaults
  with_reducible repeat' first
    | exact hk | apply Keeps.refl | apply State.stageNext_keeps | apply State.updUnit_keeps | apply State.cond_keeps
    | apply State.upTo_keeps | apply Keeps.foldl | apply Keeps.foldlP | exact fun _ => rfl
    | exact fun _ => UnitSt.rail_st .. | intro _ | apply Keeps.ite | dsimp only | split

theorem State.clearFaults_keeps [Kept R] [KRegs R] {s x : State} (hk : R s x) {m} : R s (State.clearFaults x m) := by
  unfold State.clearFaults
  with_reducible repeat' first
    | exact hk | apply Keeps.refl | apply State.w1c_keeps | apply State.fset_keeps | apply State.wr_keeps
    | apply State.each_keeps | intro _ | apply Keeps.ite | dsimp only | split

theorem execBankModeRequest_keeps [Kept R] [KRegs R] [KStaged R] [KLed R] [KBank R] {s : State} {b} {w} :
    KeepsOut R s (execBankModeRequest b w s) := by
  unfold execBankModeRequest
  with_reducible repeat' first
    | apply KeepsOut.ok | apply KeepsOut.next | apply Keeps.refl | apply State.writeBankMode_keeps | intro _
    | apply Keeps.ite | dsimp only | split

theorem execFaultStatusClear_keeps [Kept R] [KStaged R] {s : State} {val} : KeepsOut R s (execFaultStatusClear val s) := by
  unfold execFaultStatusClear
  with_reducible repeat' first
    | apply KeepsOut.ok | apply KeepsOut.next | apply Keeps.refl | apply State.stageNext_keeps | intro _ | apply Keeps.ite
    | dsimp only | split

end Sys2Proof.Machine
end

