-- ==== Sys2Proof/Laws/KeepsRf.lean ====
section
/-! SUPPORT. `Keeps` of the operations of Machine/Rf.lean. -/

namespace Sys2Proof.Machine

variable {R : State → State → Prop}

theorem State.setTx_keeps [Kept R] [KRegs R] {s x : State} (hk : R s x) {p} {st} : R s (State.setTx x p st) := by
  unfold State.setTx
  with_reducible repeat' first
    | exact hk | apply Keeps.refl | apply State.fset_keeps | intro _ | apply Keeps.ite | dsimp only | split

theorem State.rxBlank_keeps [Kept R] [KRegs R] [KPort R] {s x : State} (hk : R s x) {p} : R s (State.rxBlank x p) := by
  unfold State.rxBlank
  with_reducible repeat' first
    | exact hk | apply Keeps.refl | apply State.fset_keeps | apply State.updPt_keeps | intro _ | apply Keeps.ite
    | dsimp only | split

theorem State.rxUnblank_keeps [Kept R] [KPort R] {s x : State} (hk : R s x) {p} {t} : R s (State.rxUnblank x p t) := by
  unfold State.rxUnblank
  with_reducible repeat' first
    | exact hk | apply Keeps.refl | apply State.cond_keeps | apply State.updPt_keeps | intro _ | apply Keeps.ite
    | dsimp only | split

theorem State.rxBlankSyn_keeps [Kept R] [KRegs R] [KPort R] {s x : State} (hk :
    R s x) {y} :
    R s (State.rxBlankSyn x y) := by
  unfold State.rxBlankSyn
  with_reducible repeat' first
    | exact hk | apply Keeps.refl | apply State.rxBlank_keeps | apply State.cond_keeps | apply State.upTo_keeps | intro _
    | apply Keeps.ite | dsimp only | split

theorem State.rxEnd_keeps [Kept R] [KRegs R] [KLed R] [KPort R] {s x : State} (hk : R s x) {p} : R s (State.rxEnd x p) := by
  unfold State.rxEnd
  with_reducible repeat' first
    | exact hk | apply Keeps.refl | apply State.rxBlank_keeps | apply State.fset_keeps | apply State.cond_keeps
    | apply State.release_keeps | apply State.updPt_keeps | intro _ | apply Keeps.ite | dsimp only | split

theorem State.rxInForce_keeps [Kept R] [KRegs R] [KPort R] {s x : State} (hk : R s x) {p} : R s (State.rxInForce x p) := by
  unfold State.rxInForce
  with_reducible repeat' first
    | exact hk | apply Keeps.refl | apply State.rxBlank_keeps | apply State.fset_keeps | apply State.updPt_keeps | intro _
    | apply Keeps.ite | dsimp only | split

theorem State.rxStart_keeps [Kept R] [KRegs R] [KLed R] [KPort R] {s x : State} (hk :
    R s x) {p} :
    R s (State.rxStart x p) := by
  unfold State.rxStart
  with_reducible repeat' first
    | exact hk | apply Keeps.refl | apply State.rxInForce_keeps | apply State.release_keeps | apply State.updPt_keeps
    | intro _ | apply Keeps.ite | dsimp only | split

theorem State.applyRxCtl_keeps [Kept R] [KRegs R] [KFrc R] [KLed R] [KPort R] {s x : State} (hk :
    R s x) {p} {v} :
    R s (State.applyRxCtl x p v) := by
  unfold State.applyRxCtl
  with_reducible repeat' first
    | exact hk | apply Keeps.refl | apply State.rxBlank_keeps | apply State.rxEnd_keeps | apply State.cond_keeps
    | apply State.setEff_keeps | apply State.updPt_keeps | intro _ | apply Keeps.ite | dsimp only | split

theorem State.writeRxCtl_keeps [Kept R] [KRegs R] [KStaged R] [KLed R] {s x : State} (hk :
    R s x) {p} {w} :
    R s (State.writeRxCtl x p w) := by
  unfold State.writeRxCtl
  with_reducible repeat' first
    | exact hk | apply Keeps.refl | apply State.gated_keeps | apply State.enqueue_keeps | apply State.stage_keeps
    | apply State.wr_keeps | apply State.withdraw_keeps | apply State.inc_keeps | apply State.request_keeps
    | apply State.cond_keeps | intro _ | apply Keeps.ite | dsimp only | split

theorem State.rxDetect_keeps [Kept R] [KRegs R] [KPort R] [KRt R] {s x : State} (hk :
    R s x) {p} {pwr} {e} :
    R s (State.rxDetect x p pwr e) := by
  unfold State.rxDetect
  with_reducible repeat' first
    | exact hk | apply Keeps.refl | apply State.eventAt_keeps | apply State.cond_keeps | apply State.raiseF_keeps
    | apply State.updPt_keeps | intro _ | apply Keeps.ite | dsimp only | split

theorem State.rxInterval_keeps [Kept R] [KRegs R] [KPort R] [KRt R] {s x : State} (hk :
    R s x) {p} {pwr} :
    R s (State.rxInterval x p pwr) := by
  unfold State.rxInterval
  with_reducible repeat' first
    | exact hk | apply Keeps.refl | apply State.rxDetect_keeps | apply State.wr_keeps | apply State.updPt_keeps | intro _
    | apply Keeps.ite | dsimp only | split

theorem State.synSettle_keeps [Kept R] [KRegs R] [KPort R] [KSyn R] {s x : State} (hk :
    R s x) {y} :
    R s (State.synSettle x y) := by
  unfold State.synSettle
  with_reducible repeat' first
    | exact hk | apply Keeps.refl | apply State.fset_keeps | apply State.updSy_keeps | apply State.rxBlankSyn_keeps
    | intro _ | apply Keeps.ite | dsimp only | split

theorem State.refreshSyn_keeps [Kept R] [KRegs R] [KPort R] [KSyn R] {s x : State} (hk :
    R s x) {y} :
    R s (State.refreshSyn x y) := by
  unfold State.refreshSyn
  with_reducible repeat' first
    | exact hk | apply Keeps.refl | apply State.fset_keeps | apply State.updSy_keeps | apply State.rxBlankSyn_keeps
    | apply State.synSettle_keeps | apply State.fbit_keeps | intro _ | apply Keeps.ite | dsimp only | split

theorem State.synFreq_keeps [Kept R] [KRegs R] [KFrc R] [KPort R] [KSyn R] {s x : State} (hk :
    R s x) {y} {hz} :
    R s (State.synFreq x y hz) := by
  unfold State.synFreq
  with_reducible repeat' first
    | exact hk | apply Keeps.refl | apply State.fset_keeps | apply State.updSy_keeps | apply State.cond_keeps
    | apply State.synSettle_keeps | apply State.setEff_keeps | intro _ | apply Keeps.ite | dsimp only | split

theorem State.synFree_keeps [Kept R] [KRegs R] [KFrc R] [KPort R] [KSyn R] [KRt R] {s x : State} (hk :
    R s x) {y} :
    R s (State.synFree x y) := by
  unfold State.synFree
  with_reducible repeat' first
    | exact hk | apply Keeps.refl | apply State.fset_keeps | apply State.synFreq_keeps | apply State.updRt_keeps
    | exact fun _ => Router.wf_of rfl | intro _ | apply Keeps.ite | dsimp only | split

theorem State.synCalBegin_keeps [Kept R] [KRegs R] [KPort R] [KSyn R] {s x : State} (hk :
    R s x) {y} :
    R s (State.synCalBegin x y) := by
  unfold State.synCalBegin
  with_reducible repeat' first
    | exact hk | apply Keeps.refl | apply State.fset_keeps | apply State.updSy_keeps | apply State.rxBlankSyn_keeps
    | intro _ | apply Keeps.ite | dsimp only | split

theorem State.synDue_keeps [Kept R] [KRegs R] {s x : State} (hk : R s x) {y} {t} : R s (State.synDue x y t) := by
  unfold State.synDue
  with_reducible repeat' first
    | exact hk | apply Keeps.refl | apply State.fset_keeps | apply State.cond_keeps | intro _ | apply Keeps.ite
    | dsimp only | split

theorem State.synLock_keeps [Kept R] [KRegs R] [KPort R] [KSyn R] [KRt R] {s x : State} (hk :
    R s x) {y} {i} :
    R s (State.synLock x y i) := by
  unfold State.synLock
  with_reducible repeat' first
    | exact hk | apply Keeps.refl | apply State.fset_keeps | apply State.updSy_keeps | apply State.rxUnblank_keeps
    | apply State.cond_keeps | apply State.upTo_keeps | apply State.event_keeps | intro _ | apply Keeps.ite | dsimp only
    | split

theorem State.rfCharges_keeps [Kept R] [KRegs R] [KLed R] [KUnit R] {s x : State} (hk :
    R s x) :
    R s (State.rfCharges x) := by
  unfold State.rfCharges
  with_reducible repeat' first
    | exact hk | apply Keeps.refl | apply State.pllStop_keeps | apply State.pllStart_keeps | apply State.cond_keeps
    | apply State.release_keeps | intro _ | apply Keeps.ite | dsimp only | split

theorem State.rfSettle_keeps [Kept R] [KRegs R] [KLed R] [KPort R] [KSyn R] [KUnit R] {s x : State} (hk :
    R s x) :
    R s (State.rfSettle x) := by
  unfold State.rfSettle
  with_reducible repeat' first
    | exact hk | apply Keeps.refl | apply State.rfCharges_keeps | apply State.refreshSyn_keeps | apply State.upTo_keeps
    | intro _ | apply Keeps.ite | dsimp only | split

theorem State.synSelect_keeps [Kept R] [KRegs R] [KFrc R] [KPort R] {s x : State} (hk :
    R s x) {p} {y} :
    R s (State.synSelect x p y) := by
  unfold State.synSelect
  with_reducible repeat' first
    | exact hk | apply Keeps.refl | apply State.rxBlank_keeps | apply State.fset_keeps | apply State.cond_keeps
    | apply State.fbit_keeps | apply State.setEff_keeps | apply State.updPt_keeps | intro _ | apply Keeps.ite | dsimp only
    | split

theorem State.setRfreq_keeps [Kept R] [KRegs R] [KUnit R] {s x : State} (hk : R s x) {on} : R s (State.setRfreq x on) := by
  unfold State.setRfreq
  with_reducible repeat' first
    | exact hk | apply Keeps.refl | apply State.updUnit_keeps | apply State.fbit_keeps | exact fun _ => rfl
    | exact fun _ => UnitSt.rail_st .. | intro _ | apply Keeps.ite | dsimp only | split

theorem State.refreshRfreq_keeps [Kept R] [KRegs R] [KUnit R] {s x : State} (hk : R s x) : R s (State.refreshRfreq x) := by
  unfold State.refreshRfreq
  with_reducible repeat' first
    | exact hk | apply Keeps.refl | apply State.setRfreq_keeps | apply State.updUnit_keeps | exact fun _ => rfl
    | exact fun _ => UnitSt.rail_st .. | intro _ | apply Keeps.ite | dsimp only | split

theorem State.txFree_keeps [Kept R] [KRegs R] [KFrc R] [KStaged R] [KLed R] [KPort R] [KSyn R] [KUnit R] [KRt R] {s x :
    State} (hk :
    R s x) {p} :
    R s (State.txFree x p) := by
  unfold State.txFree
  with_reducible repeat' first
    | exact hk | apply Keeps.refl | apply State.rfSettle_keeps | apply State.withdraw_keeps | apply State.cond_keeps
    | apply State.refreshRfreq_keeps | apply State.synSelect_keeps | apply State.synFree_keeps | apply State.updRt_keeps
    | apply State.unstage_keeps | apply State.setTx_keeps | apply State.release_keeps | apply State.updPt_keeps
    | exact fun _ => Router.wf_of rfl | intro _ | apply Keeps.ite | dsimp only | split

theorem State.txDrop_keeps [Kept R] [KRegs R] [KFrc R] [KStaged R] [KLed R] [KPort R] [KSyn R] [KUnit R] [KRt R] {s x :
    State} (hk :
    R s x) {p} {cause} :
    R s (State.txDrop x p cause) := by
  unfold State.txDrop
  with_reducible repeat' first
    | exact hk | apply Keeps.refl | apply State.fset_keeps | apply State.txFree_keeps | apply State.eventT_keeps
    | apply State.raiseF_keeps | intro _ | apply Keeps.ite | dsimp only | split

theorem State.txEnd_keeps [Kept R] [KRegs R] [KFrc R] [KStaged R] [KLed R] [KPort R] [KSyn R] [KUnit R] [KRt R] {s x :
    State} (hk :
    R s x) {p} {e} :
    R s (State.txEnd x p e) := by
  unfold State.txEnd
  with_reducible repeat' first
    | exact hk | apply Keeps.refl | apply State.eventAt_keeps | apply State.txFree_keeps | apply State.cond_keeps
    | apply State.updPt_keeps | intro _ | apply Keeps.ite | dsimp only | split

theorem State.txCut_keeps [Kept R] [KRegs R] [KFrc R] [KStaged R] [KLed R] [KPort R] [KSyn R] [KUnit R] [KRt R] {s x :
    State} (hk :
    R s x) {p} {e} :
    R s (State.txCut x p e) := by
  unfold State.txCut
  with_reducible repeat' first
    | exact hk | apply Keeps.refl | apply State.txEnd_keeps | apply State.raiseF_keeps | intro _ | apply Keeps.ite
    | dsimp only | split

theorem State.txEndBy_keeps [Kept R] [KRegs R] [KFrc R] [KStaged R] [KLed R] [KPort R] [KSyn R] [KUnit R] [KRt R] {s x :
    State} (hk :
    R s x) {p} {t} :
    R s (State.txEndBy x p t) := by
  unfold State.txEndBy
  with_reducible repeat' first
    | exact hk | apply Keeps.refl | apply State.cond_keeps | apply State.txEnd_keeps | intro _ | apply Keeps.ite
    | dsimp only | split

theorem State.txIssue_keeps [Kept R] [KRegs R] [KStaged R] [KLed R] [KPort R] [KRt R] {s x : State} (hk :
    R s x) {p} {who} {frm} :
    R s (State.txIssue x p who frm) := by
  unfold State.txIssue
  with_reducible repeat' first
    | exact hk | apply Keeps.refl | apply State.stage_keeps | apply State.arbRequest_keeps | apply State.request_keeps
    | apply State.raiseF_keeps | apply State.setTx_keeps | apply State.updPt_keeps | intro _ | apply Keeps.ite
    | dsimp only | split

theorem State.txStop_keeps [Kept R] [KRegs R] [KFrc R] [KStaged R] [KLed R] [KPort R] [KSyn R] [KUnit R] [KRt R] {s x :
    State} (hk :
    R s x) {p} :
    R s (State.txStop x p) := by
  unfold State.txStop
  with_reducible repeat' first
    | exact hk | apply Keeps.refl | apply State.txFree_keeps | apply State.cond_keeps | apply State.txEnd_keeps | intro _
    | apply Keeps.ite | dsimp only | split

theorem State.writeTxCmd_keeps [Kept R] [KRegs R] [KStaged R] [KLed R] [KPort R] [KRt R] {s x : State} (hk :
    R s x) {p} {w} :
    R s (State.writeTxCmd x p w) := by
  unfold State.writeTxCmd
  with_reducible repeat' first
    | exact hk | apply Keeps.refl | apply State.gated_keeps | apply State.stage_keeps | apply State.writeAt_keeps
    | apply State.inc_keeps | apply State.cond_keeps | apply State.txIssue_keeps | intro _ | apply Keeps.ite | dsimp only
    | split

theorem State.txWindow_keeps [Kept R] [KRegs R] [KPort R] {s x : State} (hk : R s x) {p} : R s (State.txWindow x p) := by
  unfold State.txWindow
  with_reducible repeat' first
    | exact hk | apply Keeps.refl | apply State.setTx_keeps | apply State.updPt_keeps | intro _ | apply Keeps.ite
    | dsimp only | split

theorem State.gntWindow_keeps [Kept R] [KRegs R] [KStaged R] {s x : State} (hk : R s x) : R s (State.gntWindow x) := by
  unfold State.gntWindow
  with_reducible repeat' first
    | exact hk | apply Keeps.refl | apply State.each_keeps | apply State.stageNext_keeps | apply State.cond_keeps
    | apply State.raiseF_keeps | intro _ | apply Keeps.ite | dsimp only | split

theorem State.rfReading_keeps [Kept R] [KRegs R] [KPort R] [KRt R] {s x : State} (hk :
    R s x) {p} {rs} :
    R s (State.rfReading x p rs) := by
  unfold State.rfReading
  with_reducible repeat' first
    | exact hk | apply Keeps.refl | apply State.fset_keeps | apply State.raiseIf_keeps | apply State.eventT_keeps
    | apply State.wr_keeps | apply State.cond_keeps | apply State.updPt_keeps | intro _ | apply Keeps.ite | dsimp only
    | split

theorem State.rfWindow_keeps [Kept R] [KRegs R] [KStaged R] [KPort R] [KRt R] {s x : State} (hk :
    R s x) {rs} :
    R s (State.rfWindow x rs) := by
  unfold State.rfWindow
  with_reducible repeat' first
    | exact hk | apply Keeps.refl | apply State.gntWindow_keeps | apply State.rfReading_keeps | apply State.txWindow_keeps
    | apply State.upTo_keeps | intro _ | apply Keeps.ite | dsimp only | split

theorem State.portTick_keeps [Kept R] [KRegs R] [KFrc R] [KStaged R] [KLed R] [KPort R] [KSyn R] [KUnit R] [KRt R] {s x :
    State} (hk :
    R s x) {p} :
    R s (State.portTick x p) := by
  unfold State.portTick
  with_reducible repeat' first
    | exact hk | apply Keeps.refl | apply State.rxBlank_keeps | apply State.txEndBy_keeps | apply State.txCut_keeps
    | apply State.txFree_keeps | apply State.cond_keeps | apply State.txDrop_keeps | apply State.setTx_keeps
    | apply State.updPt_keeps | intro _ | apply Keeps.ite | dsimp only | split

theorem State.rfTick_keeps [Kept R] [KRegs R] [KFrc R] [KStaged R] [KLed R] [KPort R] [KSyn R] [KUnit R] [KRt R] {s x :
    State} (hk :
    R s x) {rfgnt} :
    R s (State.rfTick x rfgnt) := by
  unfold State.rfTick
  with_reducible repeat' first
    | exact hk | apply Keeps.refl | apply State.rfSettle_keeps | apply State.updSy_keeps | apply State.portTick_keeps
    | apply State.rxInForce_keeps | apply State.updUnit_keeps | apply State.rxUnblank_keeps | apply State.cond_keeps
    | apply State.refreshRfreq_keeps | apply State.fbit_keeps | apply State.upTo_keeps | exact fun _ => rfl
    | exact fun _ => UnitSt.rail_st .. | intro _ | apply Keeps.ite | dsimp only | split

theorem State.writeRfReq_keeps [Kept R] [KRegs R] [KStaged R] [KLed R] {s x : State} (hk :
    R s x) {a} {w} :
    R s (State.writeRfReq x a w) := by
  unfold State.writeRfReq
  with_reducible repeat' first
    | exact hk | apply Keeps.refl | apply State.gated_keeps | apply State.wr_keeps | apply State.inc_keeps
    | apply State.request_keeps | intro _ | apply Keeps.ite | dsimp only | split

theorem State.synCalGo_keeps [Kept R] [KRegs R] [KRt R] {s x : State} (hk :
    R s x) {y} {h} :
    R s (State.synCalGo x y h) := by
  unfold State.synCalGo
  with_reducible repeat' first
    | exact hk | apply Keeps.refl | apply State.arbRequest_keeps | intro _ | apply Keeps.ite | dsimp only | split

theorem execRfTxGo_keeps [Kept R] [KRegs R] [KStaged R] [KLed R] [KPort R] [KRt R] {s : State} {p} {who} :
    KeepsOut R s (execRfTxGo p who s) := by
  unfold execRfTxGo
  with_reducible repeat' first
    | apply KeepsOut.ok | apply KeepsOut.next | apply Keeps.refl | apply State.txIssue_keeps | intro _ | apply Keeps.ite
    | dsimp only | split

theorem execRfTxStop_keeps [Kept R] [KRegs R] [KFrc R] [KStaged R] [KLed R] [KPort R] [KSyn R] [KUnit R] [KRt R] {s : State}
    {p} :
    KeepsOut R s (execRfTxStop p s) := by
  unfold execRfTxStop
  with_reducible repeat' first
    | apply KeepsOut.ok | apply KeepsOut.next | apply Keeps.refl | apply State.txStop_keeps | intro _ | apply Keeps.ite
    | dsimp only | split

theorem execTransmitStart_keeps [Kept R] [KRegs R] [KPort R] [KRt R] {s : State} {p} :
    KeepsOut R s (execTransmitStart p s) := by
  unfold execTransmitStart
  with_reducible repeat' first
    | apply KeepsOut.ok | apply KeepsOut.next | apply Keeps.refl | apply State.rxBlank_keeps | apply State.eventT_keeps
    | apply State.setTx_keeps | apply State.updPt_keeps | intro _ | apply Keeps.ite | dsimp only | split

theorem execTransmitEnd_keeps [Kept R] [KRegs R] [KFrc R] [KStaged R] [KLed R] [KPort R] [KSyn R] [KUnit R] [KRt R] {s :
    State} {p} :
    KeepsOut R s (execTransmitEnd p s) := by
  unfold execTransmitEnd
  with_reducible repeat' first
    | apply KeepsOut.ok | apply KeepsOut.next | apply Keeps.refl | apply State.txEndBy_keeps | intro _ | apply Keeps.ite
    | dsimp only | split

theorem execTransmitTimeout_keeps [Kept R] [KRegs R] [KFrc R] [KStaged R] [KLed R] [KPort R] [KSyn R] [KUnit R] [KRt R] {s :
    State} {p} :
    KeepsOut R s (execTransmitTimeout p s) := by
  unfold execTransmitTimeout
  with_reducible repeat' first
    | apply KeepsOut.ok | apply KeepsOut.next | apply Keeps.refl | apply State.txDrop_keeps | intro _ | apply Keeps.ite
    | dsimp only | split

theorem execCoexWaitExpiry_keeps [Kept R] [KRegs R] [KFrc R] [KStaged R] [KLed R] [KPort R] [KSyn R] [KUnit R] [KRt R] {s :
    State} {p} :
    KeepsOut R s (execCoexWaitExpiry p s) := by
  unfold execCoexWaitExpiry
  with_reducible repeat' first
    | apply KeepsOut.ok | apply KeepsOut.next | apply Keeps.refl | apply State.txDrop_keeps | intro _ | apply Keeps.ite
    | dsimp only | split

theorem execRfreqTailEnd_keeps [Kept R] [KRegs R] [KUnit R] {s : State} : KeepsOut R s (execRfreqTailEnd s) := by
  unfold execRfreqTailEnd
  with_reducible repeat' first
    | apply KeepsOut.ok | apply KeepsOut.next | apply Keeps.refl | apply State.setRfreq_keeps | intro _ | apply Keeps.ite
    | dsimp only | split

theorem execRfSynSelect_keeps [Kept R] [KRegs R] [KFrc R] [KStaged R] [KLed R] [KPort R] {s : State} {p} {y} :
    KeepsOut R s (execRfSynSelect p y s) := by
  unfold execRfSynSelect
  with_reducible repeat' first
    | apply KeepsOut.ok | apply KeepsOut.next | apply Keeps.refl | apply State.gated_keeps | apply State.writeRfReq_keeps
    | apply State.wr_keeps | apply State.synSelect_keeps | intro _ | apply Keeps.ite | dsimp only | split

theorem execSynFreqChange_keeps [Kept R] [KRegs R] [KFrc R] [KPort R] [KSyn R] {s : State} {y} {hz} :
    KeepsOut R s (execSynFreqChange y hz s) := by
  unfold execSynFreqChange
  with_reducible repeat' first
    | apply KeepsOut.ok | apply KeepsOut.next | apply Keeps.refl | apply State.gated_keeps | apply State.wr_keeps
    | apply State.synFreq_keeps | intro _ | apply Keeps.ite | dsimp only | split

theorem execSynLockGained_keeps [Kept R] [KRegs R] [KPort R] [KSyn R] [KRt R] {s : State} {y} {i} :
    KeepsOut R s (execSynLockGained y i s) := by
  unfold execSynLockGained
  with_reducible repeat' first
    | apply KeepsOut.ok | apply KeepsOut.next | apply Keeps.refl | apply State.synLock_keeps | intro _ | apply Keeps.ite
    | dsimp only | split

theorem execSynLockLost_keeps [Kept R] [KRegs R] [KFrc R] [KStaged R] [KLed R] [KPort R] [KSyn R] [KUnit R] [KRt R] {s :
    State} {y} {i} :
    KeepsOut R s (execSynLockLost y i s) := by
  unfold execSynLockLost
  with_reducible repeat' first
    | apply KeepsOut.ok | apply KeepsOut.next | apply Keeps.refl | apply State.fset_keeps | apply State.updSy_keeps
    | apply State.txCut_keeps | apply State.rxBlankSyn_keeps | apply State.cond_keeps | apply State.raiseF_keeps
    | apply State.upTo_keeps | apply State.event_keeps | intro _ | apply Keeps.ite | dsimp only | split

theorem execSynCalGo_keeps [Kept R] [KRegs R] [KRt R] {s : State} {y} {h} : KeepsOut R s (execSynCalGo y h s) := by
  unfold execSynCalGo
  with_reducible repeat' first
    | apply KeepsOut.ok | apply KeepsOut.next | apply Keeps.refl | apply State.synCalGo_keeps | intro _ | apply Keeps.ite
    | dsimp only | split

theorem execSynAutoCal_keeps [Kept R] [KRegs R] [KStaged R] [KRt R] {s : State} {y} :
    KeepsOut R s (execSynAutoCal y s) := by
  unfold execSynAutoCal
  with_reducible repeat' first
    | apply KeepsOut.ok | apply KeepsOut.next | apply Keeps.refl | apply State.fset_keeps | apply State.stageNext_keeps
    | apply State.updRt_keeps | exact fun _ => Router.wf_of rfl | intro _ | apply Keeps.ite | dsimp only | split

theorem execSynCalComplete_keeps [Kept R] [KRegs R] [KFrc R] [KPort R] [KSyn R] [KRt R] [KFree R] {s : State} {y} {i} :
    KeepsOut R s (execSynCalComplete y i s) := by
  unfold execSynCalComplete
  with_reducible repeat' first
    | apply KeepsOut.ok | apply KeepsOut.next | apply Keeps.refl | apply State.synLock_keeps | apply State.fresh_keeps
    | apply State.fset_keeps | apply State.updSy_keeps | apply State.synFree_keeps | apply State.event_keeps | intro _
    | apply Keeps.ite | dsimp only | split

theorem execSynCalFail_keeps [Kept R] [KRegs R] [KFrc R] [KPort R] [KSyn R] [KRt R] {s : State} {y} :
    KeepsOut R s (execSynCalFail y s) := by
  unfold execSynCalFail
  with_reducible repeat' first
    | apply KeepsOut.ok | apply KeepsOut.next | apply Keeps.refl | apply State.fset_keeps | apply State.cond_keeps
    | apply State.synSettle_keeps | apply State.synFree_keeps | apply State.raiseF_keeps | intro _ | apply Keeps.ite
    | dsimp only | split

theorem execRxEnable_keeps [Kept R] [KRegs R] [KStaged R] [KLed R] {s : State} {p} {who} :
    KeepsOut R s (execRxEnable p who s) := by
  unfold execRxEnable
  with_reducible repeat' first
    | apply KeepsOut.ok | apply KeepsOut.next | apply Keeps.refl | apply State.writeRxCtl_keeps | intro _
    | apply Keeps.ite | dsimp only | split

theorem execRxIntervalEnd_keeps [Kept R] [KRegs R] [KPort R] [KRt R] {s : State} {p} {pwr} :
    KeepsOut R s (execRxIntervalEnd p pwr s) := by
  unfold execRxIntervalEnd
  with_reducible repeat' first
    | apply KeepsOut.ok | apply KeepsOut.next | apply Keeps.refl | apply State.rxInterval_keeps | intro _
    | apply Keeps.ite | dsimp only | split

end Sys2Proof.Machine
end

