-- ==== Sys2Proof/Laws/KeepsRouter.lean ====
section
/-! SUPPORT. `Keeps` of the operations of Machine/Router.lean. -/

namespace Sys2Proof.Machine

variable {R : State → State → Prop}

theorem State.ruleRestart_keeps [Kept R] [KRegs R] {s x : State} (hk : R s x) {n} : R s (State.ruleRestart x n) := by
  unfold State.ruleRestart
  with_reducible repeat' first
    | exact hk | apply Keeps.refl | apply State.wr_keeps | intro _ | apply Keeps.ite | dsimp only | split

theorem State.ruleCount_keeps [Kept R] [KRegs R] {s x : State} (hk :
    R s x) {n} {v} {armed} :
    R s (State.ruleCount x n v armed) := by
  unfold State.ruleCount
  with_reducible repeat' first
    | exact hk | apply Keeps.refl | apply State.wr_keeps | intro _ | apply Keeps.ite | dsimp only | split

theorem State.evalRule_keeps [Kept R] [KRegs R] {s x : State} (hk : R s x) {evs} {n} : R s (State.evalRule x evs n).1 := by
  unfold State.evalRule
  with_reducible repeat' first
    | exact hk | apply Keeps.refl | apply State.ruleCount_keeps | intro _ | apply Keeps.ite | dsimp only | split

theorem State.runRule_keeps [Kept R] [KRegs R] [KRt R] {s : State} {x : State × _} (hk :
    R s x.1) {evs} {n} :
    R s (State.runRule evs x n).1 := by
  unfold State.runRule
  with_reducible repeat' first
    | exact hk | apply Keeps.refl | apply State.raise_keeps | apply State.cond_keeps | apply State.evalRule_keeps
    | apply State.event_keeps | refine Keeps.fst ?_ (by assumption) | intro _ | apply Keeps.ite | dsimp only | split

theorem State.suppress_keeps [Kept R] [KRegs R] {s x : State} (hk : R s x) : R s (State.suppress x) := by
  unfold State.suppress
  with_reducible repeat' first
    | exact hk | apply Keeps.refl | apply State.inc_keeps | intro _ | apply Keeps.ite | dsimp only | split

theorem State.actFlag_keeps [Kept R] [KRegs R] [KStaged R] {s : State} {x : State × _} (hk :
    R s x.1) {set} {mask} {b} :
    R s (State.actFlag set mask x b).1 := by
  unfold State.actFlag
  with_reducible repeat' first
    | exact hk | apply Keeps.refl | apply State.stageNext_keeps | apply State.suppress_keeps | apply State.raiseF_keeps
    | apply Keeps.foldl | apply Keeps.foldlP | intro _ | apply Keeps.ite | dsimp only | split

theorem State.actBank_keeps [Kept R] [KRegs R] [KStaged R] [KLed R] [KBank R] {s : State} {x : State × _} (hk :
    R s x.1) {n} {req} {b} :
    R s (State.actBank n req x b).1 := by
  unfold State.actBank
  with_reducible repeat' first
    | exact hk | apply Keeps.refl | apply State.wr_keeps | apply State.stageNext_keeps | apply State.suppress_keeps
    | apply State.requestBank_keeps | apply State.raiseF_keeps | intro _ | apply Keeps.ite | dsimp only | split

theorem State.actWake_keeps [Kept R] [KRegs R] [KStaged R] {s : State} {x : State × _} (hk :
    R s x.1) {on} :
    R s (State.actWake on x).1 := by
  unfold State.actWake
  with_reducible repeat' first
    | exact hk | apply Keeps.refl | apply State.stageNext_keeps | apply State.suppress_keeps | intro _ | apply Keeps.ite
    | dsimp only | split

theorem State.actLane_keeps [Kept R] [KRegs R] [KRt R] {s x : State} (hk : R s x) {n} {k} : R s (State.actLane n x k) := by
  unfold State.actLane
  with_reducible repeat' first
    | exact hk | apply Keeps.refl | apply State.arbRequest_keeps | apply State.raiseF_keeps | intro _ | apply Keeps.ite
    | dsimp only | split

theorem State.actPrimary_keeps [Kept R] [KRegs R] [KStaged R] [KLed R] [KBank R] [KPort R] [KRt R] {s : State} {x : State ×
    _} (hk :
    R s x.1) {n} {op} {arg} :
    R s (State.actPrimary n op arg x).1 := by
  unfold State.actPrimary
  with_reducible repeat' first
    | exact hk | apply Keeps.refl | apply State.actWake_keeps | apply State.actBank_keeps | apply State.each_keeps
    | apply State.stageNext_keeps | apply State.raiseF_keeps | apply State.txIssue_keeps | apply State.actFlag_keeps
    | apply State.actLane_keeps | apply Keeps.foldl | apply Keeps.foldlP | refine Keeps.fst ?_ (by assumption) | intro _
    | apply Keeps.ite | dsimp only | split

theorem State.actRule_keeps [Kept R] [KRegs R] [KStaged R] [KLed R] [KBank R] [KPort R] [KRt R] {s : State} {x : State × _}
    (hk :
    R s x.1) {f} :
    R s (State.actRule x f).1 := by
  unfold State.actRule
  with_reducible repeat' first
    | exact hk | apply Keeps.refl | apply State.actWake_keeps | apply State.actPrimary_keeps | apply State.stageNext_keeps
    | apply State.suppress_keeps | apply State.cond_keeps | apply State.raiseF_keeps | refine Keeps.fst ?_ (by assumption)
    | intro _ | apply Keeps.ite | dsimp only | split

theorem State.routerPhase_keeps [Kept R] [KRegs R] [KStaged R] [KLed R] [KBank R] [KPort R] [KRt R] {s x : State} (hk :
    R s x) {evs} :
    R s (State.routerPhase x evs) := by
  unfold State.routerPhase
  with_reducible repeat' first
    | exact hk | apply Keeps.refl | apply State.each_keeps | apply State.runRule_keeps | apply State.ruleRestart_keeps
    | apply State.cond_keeps | apply State.actRule_keeps | apply Keeps.foldl | apply Keeps.foldlP
    | refine Keeps.fst ?_ (by assumption) | intro _ | apply Keeps.ite | dsimp only | split

theorem State.grant_keeps [Kept R] [KRegs R] [KStaged R] [KLed R] [KPmc R] [KPort R] [KRing R] [KRt R] {s x : State} (hk :
    R s x) {a} :
    R s (State.grant x a) := by
  unfold State.grant
  with_reducible repeat' first
    | exact hk | apply Keeps.refl | apply State.pmcWaiting_keeps | apply State.fset_keeps | apply State.wr_keeps
    | apply State.stageNext_keeps | apply State.request_keeps | apply State.cond_keeps | apply State.updRt_keeps
    | apply State.updRing_keeps | apply State.updPm_keeps | apply State.updPt_keeps | exact fun _ => Router.wf_of rfl
    | intro _ | apply Keeps.ite | dsimp only | split

theorem State.lose_keeps [Kept R] [KRt R] {s x : State} (hk : R s x) {a} : R s (State.lose x a) := by
  unfold State.lose
  with_reducible repeat' first
    | exact hk | apply Keeps.refl | apply State.updRt_keeps | exact fun _ => Router.wf_of rfl | intro _ | apply Keeps.ite
    | dsimp only | split

theorem State.arbitrate_keeps [Kept R] [KRegs R] [KStaged R] [KLed R] [KPmc R] [KPort R] [KRing R] [KRt R] {s x : State} (hk
    :
    R s x) :
    R s (State.arbitrate x) := by
  unfold State.arbitrate
  with_reducible repeat' first
    | exact hk | apply Keeps.refl | apply State.grant_keeps | apply State.lose_keeps | apply State.updRt_keeps
    | apply State.updRing_keeps | apply Keeps.foldl | apply Keeps.foldlP | exact fun _ => Router.wf_of rfl | intro _
    | apply Keeps.ite | dsimp only | split

theorem State.countLosses_keeps [Kept R] [KRegs R] [KRt R] {s x : State} (hk : R s x) : R s (State.countLosses x) := by
  unfold State.countLosses
  with_reducible repeat' first
    | exact hk | apply Keeps.refl | apply State.inc_keeps | apply State.cond_keeps | apply State.updRt_keeps
    | apply Keeps.foldl | apply Keeps.foldlP | exact fun _ => Router.wf_of rfl | intro _ | apply Keeps.ite | dsimp only
    | split

theorem State.note_keeps [Kept R] [KRegs R] [KRing R] [KRt R] {s x : State} (hk :
    R s x) {intr} {idx} {st} {info} :
    R s (State.note x intr idx st info) := by
  unfold State.note
  with_reducible repeat' first
    | exact hk | apply Keeps.refl | apply State.inc_keeps | apply State.updRt_keeps | apply State.updRing_keeps
    | exact fun _ => Router.wf_of rfl | intro _ | apply Keeps.ite | dsimp only | split

theorem State.notice_keeps [Kept R] [KRegs R] [KRing R] [KRt R] {s x : State} (hk :
    R s x) {n} {st} {sel} :
    R s (State.notice x n st sel) := by
  unfold State.notice
  with_reducible repeat' first
    | exact hk | apply Keeps.refl | apply State.note_keeps | intro _ | apply Keeps.ite | dsimp only | split

theorem State.refreshInt_keeps [Kept R] [KRegs R] [KUnit R] [KRing R] [KRt R] {s x : State} (hk :
    R s x) :
    R s (State.refreshInt x) := by
  unfold State.refreshInt
  with_reducible repeat' first
    | exact hk | apply Keeps.refl | apply State.note_keeps | apply State.each_keeps | apply State.updUnit_keeps
    | apply State.updRt_keeps | apply State.fbit_keeps | exact fun _ => Router.wf_of rfl | exact fun _ => rfl
    | exact fun _ => UnitSt.rail_st .. | intro _ | apply Keeps.ite | dsimp only | split

theorem State.tempStep_keeps [Kept R] [KRegs R] [KRt R] {s x : State} (hk :
    R s x) {d} {t} :
    R s (State.tempStep x d t) := by
  unfold State.tempStep
  with_reducible repeat' first
    | exact hk | apply Keeps.refl | apply State.fset_keeps | apply State.eventT_keeps | apply State.updRt_keeps
    | exact fun _ => Router.wf_of rfl | intro _ | apply Keeps.ite | dsimp only | split

theorem State.ringCommand_keeps [Kept R] [KRegs R] [KRt R] {s x : State} (hk :
    R s x) {code} {at_} {cyc} :
    R s (State.ringCommand x code at_ cyc) := by
  unfold State.ringCommand
  with_reducible repeat' first
    | exact hk | apply Keeps.refl | apply State.updRt_keeps | apply State.raiseF_keeps | apply State.event_keeps
    | exact fun _ => Router.wf_of rfl | intro _ | apply Keeps.ite | dsimp only | split

theorem State.commandDue_keeps [Kept R] [KRt R] {s x : State} (hk :
    R s x) {code} {at_} :
    R s (State.commandDue x code at_) := by
  unfold State.commandDue
  with_reducible repeat' first
    | exact hk | apply Keeps.refl | apply State.eventT_keeps | apply State.updRt_keeps | exact fun _ => Router.wf_of rfl
    | intro _ | apply Keeps.ite | dsimp only | split

theorem State.timerStart_keeps [Kept R] [KRt R] {s x : State} (hk : R s x) {k} : R s (State.timerStart x k) := by
  refine State.updRt_keeps hk (fun r h => ?_)
  exact Tab.wf_set _ _ _ _ h

theorem State.applyRouter_keeps [Kept R] [KRegs R] [KFrc R] [KRt R] {s x : State} (hk :
    R s x) {a} {v} :
    R s (State.applyRouter x a v) := by
  unfold State.applyRouter
  with_reducible repeat' first
    | exact hk | apply Keeps.refl | apply State.timerStart_keeps | apply State.ruleRestart_keeps | apply State.cond_keeps
    | apply State.updRt_keeps | apply State.setEff_keeps | exact fun _ => Router.wf_of rfl | intro _ | apply Keeps.ite
    | dsimp only | split

theorem execRuleWrite_keeps [Kept R] [KRegs R] [KStaged R] {s : State} {n} {word} {w} :
    KeepsOut R s (execRuleWrite n word w s) := by
  unfold execRuleWrite
  with_reducible repeat' first
    | apply KeepsOut.ok | apply KeepsOut.next | apply Keeps.refl | apply State.writeAt_keeps | intro _ | apply Keeps.ite
    | dsimp only | split

theorem execRouterTimer_keeps [Kept R] [KRt R] {s : State} {k} : KeepsOut R s (execRouterTimer k s) := by
  unfold execRouterTimer
  with_reducible repeat' first
    | apply KeepsOut.ok | apply KeepsOut.next | apply Keeps.refl | apply State.eventT_keeps | apply State.cond_keeps
    | intro _ | apply Keeps.ite | dsimp only | split

theorem execTimedCommandDue_keeps [Kept R] [KRt R] {s : State} {code} {at_} :
    KeepsOut R s (execTimedCommandDue code at_ s) := by
  unfold execTimedCommandDue
  with_reducible repeat' first
    | apply KeepsOut.ok | apply KeepsOut.next | apply Keeps.refl | apply State.commandDue_keeps | intro _
    | apply Keeps.ite | dsimp only | split

theorem execIntStatusClear_keeps [Kept R] [KStaged R] {s : State} {val} {cyc} :
    KeepsOut R s (execIntStatusClear val cyc s) := by
  unfold execIntStatusClear
  with_reducible repeat' first
    | apply KeepsOut.ok | apply KeepsOut.next | apply Keeps.refl | apply State.stage_keeps | intro _ | apply Keeps.ite
    | dsimp only | split

theorem execRtStatusWakeClear_keeps [Kept R] [KIsl R] {s : State} : KeepsOut R s (execRtStatusWakeClear s) := by
  unfold execRtStatusWakeClear
  with_reducible repeat' first
    | apply KeepsOut.ok | apply KeepsOut.next | apply Keeps.refl | apply State.toC9_keeps | intro _ | apply Keeps.ite
    | dsimp only | split

theorem execRtStatusRead_keeps [Kept R] [KRegs R] {s : State} : KeepsOut R s (execRtStatusRead s) := by
  unfold execRtStatusRead
  with_reducible repeat' first
    | apply KeepsOut.ok | apply KeepsOut.next | apply Keeps.refl | apply State.fset_keeps | intro _ | apply Keeps.ite
    | dsimp only | split

theorem execArbitrationRequestAged_keeps [Kept R] [KRt R] {s : State} {id} :
    KeepsOut R s (execArbitrationRequestAged id s) := by
  unfold execArbitrationRequestAged
  with_reducible repeat' first
    | apply KeepsOut.ok | apply KeepsOut.next | apply Keeps.refl | apply State.updRt_keeps
    | exact fun _ => Router.wf_of rfl | intro _ | apply Keeps.ite | dsimp only | split

end Sys2Proof.Machine
end

