-- ==== Sys2Proof/Laws/KeepsCal.lean ====
section
/-! SUPPORT. `Keeps` of the operations of Machine/Cal.lean. -/

namespace Sys2Proof.Machine

variable {R : State → State → Prop}

theorem State.aim_keeps [Kept R] [KCal R] {s x : State} (hk : R s x) {e} {i} {t} {v} : R s (State.aim x e i t v) := by
  unfold State.aim
  dsimp only
  split
  · refine State.updCal_keeps hk (fun c h => ?_)
    rw [Cal.wf_iff] at *
    refine ⟨h.1, ?_⟩
    dsimp only
    split
    · exact Tab.wf_set _ _ _ _ h.2
    · exact h.2
  · refine State.updCal_keeps hk (fun c h => ?_)
    rw [Cal.wf_iff] at *
    exact ⟨h.1, Tab.wf_set _ _ _ _ h.2⟩

theorem State.retarget_keeps [Kept R] [KSea R] [KCal R] {s x : State} (hk : R s x) {e} : R s (State.retarget x e) := by
  unfold State.retarget
  with_reducible repeat' first
    | exact hk | apply Keeps.refl | apply State.updSea_keeps | apply State.aim_keeps | apply Keeps.foldl
    | apply Keeps.foldlP | intro _ | apply Keeps.ite | dsimp only | split

theorem State.setCoef_keeps [Kept R] [KCal R] {s x : State} (hk : R s x) {key} {v} : R s (State.setCoef x key v) := by
  refine State.updCal_keeps hk (fun c h => ?_)
  rw [Cal.wf_iff] at *
  exact ⟨Tab.wf_set _ _ _ _ h.1, Tab.wf_set _ _ _ _ h.2⟩

theorem State.applyElem_keeps [Kept R] [KCal R] {s x : State} (hk : R s x) {e} : R s (State.applyElem x e) := by
  unfold State.applyElem
  with_reducible repeat' first
    | exact hk | apply Keeps.refl | apply State.setCoef_keeps | apply Keeps.foldl | apply Keeps.foldlP | intro _
    | apply Keeps.ite | dsimp only | split

theorem State.refreshSettled_keeps [Kept R] [KRegs R] {s x : State} (hk : R s x) : R s (State.refreshSettled x) := by
  unfold State.refreshSettled
  with_reducible repeat' first
    | exact hk | apply Keeps.refl | apply State.fbit_keeps | intro _ | apply Keeps.ite | dsimp only | split

theorem State.calPhase_keeps [Kept R] [KRegs R] [KSea R] [KCal R] {s x : State} (hk : R s x) : R s (State.calPhase x) := by
  unfold State.calPhase
  have h1 : ∀ (t : State) (y : Nat) (g : Cal → Int), R t (t.updCal (fun c => { c with
      coef := Tab.set (fun _ => 0) c.coef y (g c), rr := y })) := fun t y g => by
    refine State.updCal_keeps Keeps.refl (fun c h => ?_)
    rw [Cal.wf_iff] at *
    exact ⟨Tab.wf_set _ _ _ _ h.1, h.2⟩
  with_reducible repeat' first
    | exact hk | apply Keeps.refl | apply State.updSea_keeps | apply State.cond_keeps | apply State.inc_keeps
    | apply State.refreshSettled_keeps | exact h1 _ _ _ | apply State.updCal_keeps | exact fun _ => Cal.wf_of rfl rfl
    | apply Keeps.foldl | intro _ | apply Keeps.ite | dsimp only | split

theorem State.calSwitch_keeps [Kept R] [KRegs R] [KCal R] {s x : State} (hk : R s x) : R s (State.calSwitch x) := by
  unfold State.calSwitch
  with_reducible repeat' first
    | exact hk | apply Keeps.refl | apply State.refreshSettled_keeps | apply State.updCal_keeps
    | apply State.setCoef_keeps | apply Keeps.foldl | apply Keeps.foldlP | exact fun _ => Cal.wf_of rfl rfl | intro _
    | apply Keeps.ite | dsimp only | split

theorem State.showTorn_keeps [Kept R] [KRegs R] [KSea R] {s x : State} (hk : R s x) : R s (State.showTorn x) := by
  unfold State.showTorn
  with_reducible repeat' first
    | exact hk | apply Keeps.refl | apply State.updSea_keeps | apply State.fset_keeps | apply State.cond_keeps
    | apply State.fbit_keeps | apply State.upTo_keeps | apply Keeps.foldl | apply Keeps.foldlP | intro _ | apply Keeps.ite
    | dsimp only | split

theorem State.setUncal_keeps [Kept R] [KRegs R] {s x : State} (hk : R s x) {e} {on} : R s (State.setUncal x e on) := by
  unfold State.setUncal
  with_reducible repeat' first
    | exact hk | apply Keeps.refl | apply State.fbit_keeps | intro _ | apply Keeps.ite | dsimp only | split

theorem State.untear_keeps [Kept R] [KRegs R] [KStaged R] [KLed R] [KCal R] {s x : State} (hk :
    R s x) {e} :
    R s (State.untear x e) := by
  unfold State.untear
  with_reducible repeat' first
    | exact hk | apply Keeps.refl | apply State.aeAgain_keeps | apply State.updCal_keeps | apply State.setUncal_keeps
    | apply State.srcAgain_keeps | apply State.reRequest_keeps | exact fun _ => Cal.wf_of rfl rfl | intro _
    | apply Keeps.ite | dsimp only | split

theorem State.refreshInfo_keeps [Kept R] [KRegs R] {s x : State} (hk : R s x) : R s (State.refreshInfo x) := by
  unfold State.refreshInfo
  with_reducible repeat' first
    | exact hk | apply Keeps.refl | apply State.fset_keeps | apply State.fbit_keeps | apply Keeps.foldl
    | apply Keeps.foldlP | intro _ | apply Keeps.ite | dsimp only | split

theorem State.calGoNow_keeps [Kept R] [KRegs R] [KCal R] {s x : State} (hk : R s x) : R s (State.calGoNow x) := by
  unfold State.calGoNow
  with_reducible repeat' first
    | exact hk | apply Keeps.refl | apply State.fset_keeps | apply State.wr_keeps | apply State.updCal_keeps
    | apply State.raiseF_keeps | exact fun _ => Cal.wf_of rfl rfl | intro _ | apply Keeps.ite | dsimp only | split

theorem State.calEnd_keeps [Kept R] [KRegs R] [KCal R] [KRt R] {s x : State} (hk :
    R s x) {early} :
    R s (State.calEnd x early) := by
  unfold State.calEnd
  with_reducible repeat' first
    | exact hk | apply Keeps.refl | apply State.fset_keeps | apply State.eventT_keeps | apply State.updCal_keeps
    | exact fun _ => Cal.wf_of rfl rfl | intro _ | apply Keeps.ite | dsimp only | split

theorem State.calReject_keeps [Kept R] [KRegs R] [KCal R] {s x : State} (hk :
    R s x) {e} {cause} :
    R s (State.calReject x e cause) := by
  unfold State.calReject
  with_reducible repeat' first
    | exact hk | apply Keeps.refl | apply State.raiseIf_keeps | apply State.wr_keeps | apply State.updCal_keeps
    | apply State.inc_keeps | exact fun _ => Cal.wf_of rfl rfl | intro _ | apply Keeps.ite | dsimp only | split

theorem State.calDecided_keeps [Kept R] [KRegs R] [KCal R] [KRt R] {s x : State} (hk :
    R s x) :
    R s (State.calDecided x) := by
  unfold State.calDecided
  with_reducible repeat' first
    | exact hk | apply Keeps.refl | apply State.updCal_keeps | apply State.calEnd_keeps | exact fun _ => Cal.wf_of rfl rfl
    | intro _ | apply Keeps.ite | dsimp only | split

theorem State.calAskGroups_keeps [Kept R] [KRegs R] [KCal R] [KRt R] {s x : State} (hk :
    R s x) {a} :
    R s (State.calAskGroups x a) := by
  induction a generalizing x with
  | nil => unfold State.calAskGroups; exact State.calDecided_keeps hk
  | cons g gs ih =>
    unfold State.calAskGroups
    with_reducible repeat' first
      | exact hk | apply Keeps.refl | apply ih | apply State.arbRequest_keeps | apply State.calReject_keeps
      | apply State.updCal_keeps | exact fun _ => Cal.wf_of rfl rfl | apply Keeps.foldl | intro _ | apply Keeps.ite | dsimp only
      | split

theorem State.calAsk_keeps [Kept R] [KRegs R] [KCal R] [KRt R] {s x : State} (hk : R s x) : R s (State.calAsk x) := by
  unfold State.calAsk
  with_reducible repeat' first
    | exact hk | apply Keeps.refl | apply State.calAskGroups_keeps | apply State.arbRequest_keeps | apply State.cond_keeps
    | apply State.arbWithdraw_keeps | intro _ | apply Keeps.ite | dsimp only | split

theorem State.calRequest_keeps [Kept R] [KStaged R] [KLed R] [KCal R] {s x : State} (hk :
    R s x) :
    R s (State.calRequest x) := by
  unfold State.calRequest
  with_reducible repeat' first
    | exact hk | apply Keeps.refl | apply State.updCal_keeps | apply State.request_keeps
    | exact fun _ => Cal.wf_of rfl rfl | intro _ | apply Keeps.ite | dsimp only | split

theorem State.calAdmitted_keeps [Kept R] [KCal R] {s x : State} (hk : R s x) : R s (State.calAdmitted x) := by
  unfold State.calAdmitted
  with_reducible repeat' first
    | exact hk | apply Keeps.refl | apply State.updCal_keeps | apply State.cond_keeps | exact fun _ => Cal.wf_of rfl rfl
    | intro _ | apply Keeps.ite | dsimp only | split

theorem State.calHoldElem_keeps [Kept R] [KRegs R] [KMem R] [KChan R] [KSrc R] [KAe R] [KRt R] {s x : State} (hk :
    R s x) {e} :
    R s (State.calHoldElem x e) := by
  unfold State.calHoldElem
  with_reducible repeat' first
    | exact hk | apply Keeps.refl | apply State.updEn_keeps | apply State.updSr_keeps | apply State.fset_keeps
    | apply State.updCh_keeps | apply State.aeStopNow_keeps | apply State.playStop_keeps | apply State.setAe_keeps
    | intro _ | apply Keeps.ite | dsimp only | split

theorem State.calHold_keeps [Kept R] [KRegs R] [KMem R] [KChan R] [KSrc R] [KAe R] [KCal R] [KRt R] {s x : State} (hk :
    R s x) :
    R s (State.calHold x) := by
  unfold State.calHold
  with_reducible repeat' first
    | exact hk | apply Keeps.refl | apply State.arbRequest_keeps | apply State.calHoldElem_keeps
    | apply State.updCal_keeps | apply State.cond_keeps | apply Keeps.foldl | apply Keeps.foldlP
    | exact fun _ => Cal.wf_of rfl rfl | intro _ | apply Keeps.ite | dsimp only | split

theorem State.aeRelease_keeps [Kept R] [KRegs R] [KLed R] [KAe R] {s x : State} (hk :
    R s x) {e} :
    R s (State.aeRelease x e) := by
  unfold State.aeRelease
  with_reducible repeat' first
    | exact hk | apply Keeps.refl | apply State.updEn_keeps | apply State.cond_keeps | apply State.setAe_keeps
    | apply State.release_keeps | intro _ | apply Keeps.ite | dsimp only | split

theorem State.calFree_keeps [Kept R] [KRegs R] [KStaged R] [KLed R] [KChan R] [KPmc R] [KSrc R] [KAe R] {s x : State} (hk :
    R s x) {e} :
    R s (State.calFree x e) := by
  unfold State.calFree
  with_reducible repeat' first
    | exact hk | apply Keeps.refl | apply State.updSr_keeps | apply State.pmcFree_keeps | apply State.fset_keeps
    | apply State.updCh_keeps | apply State.writeChMode_keeps | apply State.cond_keeps | apply State.aeRelease_keeps
    | apply State.reRequest_keeps | apply State.release_keeps | intro _ | apply Keeps.ite | dsimp only | split

theorem State.calLetGo_keeps [Kept R] [KRegs R] [KStaged R] [KLed R] [KPmc R] [KRt R] {s x : State} (hk :
    R s x) :
    R s (State.calLetGo x) := by
  unfold State.calLetGo
  with_reducible repeat' first
    | exact hk | apply Keeps.refl | apply State.pmcFree_keeps | apply State.cond_keeps | apply State.updRt_keeps
    | apply State.arbWithdraw_keeps | apply State.upTo_keeps | apply Keeps.foldl | apply Keeps.foldlP
    | exact fun _ => Router.wf_of rfl | intro _ | apply Keeps.ite | dsimp only | split

theorem State.calAbort_keeps [Kept R] [KRegs R] [KStaged R] [KLed R] [KChan R] [KPmc R] [KSrc R] [KAe R] [KCal R] [KRt R] {s
    x : State} (hk :
    R s x) {f} :
    R s (State.calAbort x f) := by
  unfold State.calAbort
  with_reducible repeat' first
    | exact hk | apply Keeps.refl | apply State.calFree_keeps | apply State.withdraw_keeps | apply State.updCal_keeps
    | apply State.calEnd_keeps | apply State.cond_keeps | apply State.raiseF_keeps | apply State.unstage_keeps
    | apply State.release_keeps | apply State.calLetGo_keeps | apply Keeps.foldl | apply Keeps.foldlP
    | exact fun _ => Cal.wf_of rfl rfl | intro _ | apply Keeps.ite | dsimp only | split

theorem State.calStopNow_keeps [Kept R] [KRegs R] [KStaged R] [KLed R] [KChan R] [KPmc R] [KSrc R] [KAe R] [KCal R] [KRt R]
    {s x : State} (hk :
    R s x) :
    R s (State.calStopNow x) := by
  unfold State.calStopNow
  with_reducible repeat' first
    | exact hk | apply Keeps.refl | apply State.calAbort_keeps | intro _ | apply Keeps.ite | dsimp only | split

theorem State.calCheck_keeps [Kept R] [KRegs R] [KStaged R] [KLed R] [KChan R] [KPmc R] [KSrc R] [KAe R] [KCal R] [KRt R] {s
    x : State} (hk :
    R s x) :
    R s (State.calCheck x) := by
  unfold State.calCheck
  with_reducible repeat' first
    | exact hk | apply Keeps.refl | apply State.calAbort_keeps | apply State.updCal_keeps | apply State.cond_keeps
    | exact fun _ => Cal.wf_of rfl rfl | intro _ | apply Keeps.ite | dsimp only | split

theorem State.calWindow_keeps [Kept R] [KCal R] {s x : State} (hk : R s x) {d} {t} : R s (State.calWindow x d t) := by
  unfold State.calWindow
  with_reducible repeat' first
    | exact hk | apply Keeps.refl | apply State.updCal_keeps | apply State.cond_keeps | exact fun _ => Cal.wf_of rfl rfl
    | intro _ | apply Keeps.ite | dsimp only | split

theorem State.calAccept_keeps [Kept R] [KRegs R] [KCal R] {s x : State} (hk :
    R s x) {e} {r} :
    R s (State.calAccept x e r) := by
  unfold State.calAccept
  with_reducible repeat' first
    | exact hk | apply Keeps.refl | apply State.updCal_keeps | apply State.inc_keeps | exact fun _ => Cal.wf_of rfl rfl
    | intro _ | apply Keeps.ite | dsimp only | split

theorem State.calDecide_keeps [Kept R] [KRegs R] [KCal R] {s x : State} (hk : R s x) {p} : R s (State.calDecide x p) := by
  unfold State.calDecide
  with_reducible repeat' first
    | exact hk | apply Keeps.refl | apply State.calReject_keeps | apply State.calAccept_keeps | intro _ | apply Keeps.ite
    | dsimp only | split

theorem State.calPassDone_keeps [Kept R] [KRegs R] [KStaged R] [KLed R] [KChan R] [KPmc R] [KSrc R] [KAe R] [KCal R] [KRt R]
    {s x : State} (hk :
    R s x) {rs} :
    R s (State.calPassDone x rs) := by
  unfold State.calPassDone
  with_reducible repeat' first
    | exact hk | apply Keeps.refl | apply State.calFree_keeps | apply State.calAbort_keeps | apply State.updCal_keeps
    | apply State.calDecide_keeps | apply State.calEnd_keeps | apply State.calLetGo_keeps | apply Keeps.foldl
    | apply Keeps.foldlP | exact fun _ => Cal.wf_of rfl rfl | intro _ | apply Keeps.ite | dsimp only | split

theorem State.refreshBusy_keeps [Kept R] [KRegs R] {s x : State} (hk : R s x) : R s (State.refreshBusy x) := by
  unfold State.refreshBusy
  with_reducible repeat' first
    | exact hk | apply Keeps.refl | apply State.fbit_keeps | intro _ | apply Keeps.ite | dsimp only | split

theorem State.commitBegin_keeps [Kept R] [KRegs R] [KCal R] {s x : State} (hk : R s x) : R s (State.commitBegin x) := by
  unfold State.commitBegin
  with_reducible repeat' first
    | exact hk | apply Keeps.refl | apply State.fset_keeps | apply State.refreshBusy_keeps | apply State.updCal_keeps
    | exact fun _ => Cal.wf_of rfl rfl | intro _ | apply Keeps.ite | dsimp only | split

theorem State.portUsed_keeps [Kept R] [KRt R] {s x : State} (hk : R s x) : R s (State.portUsed x) := by
  unfold State.portUsed
  with_reducible repeat' first
    | exact hk | apply Keeps.refl | apply State.updRt_keeps | exact fun _ => Router.wf_of rfl | intro _ | apply Keeps.ite
    | dsimp only | split

theorem State.commitUnchanged_keeps [Kept R] [KSea R] [KCal R] {s x : State} (hk :
    R s x) {x1} :
    R s (State.commitUnchanged x x1) := by
  unfold State.commitUnchanged
  with_reducible repeat' first
    | exact hk | apply Keeps.refl | apply State.retarget_keeps | apply State.updCal_keeps | apply State.setCoef_keeps
    | apply Keeps.foldl | apply Keeps.foldlP | exact fun _ => Cal.wf_of rfl rfl | intro _ | apply Keeps.ite | dsimp only
    | split

theorem State.commitEnd_keeps [Kept R] [KRegs R] [KStaged R] [KLed R] [KChan R] [KPmc R] [KSrc R] [KAe R] [KSea R] [KCal R]
    [KRt R] {s x : State} (hk :
    R s x) {acc} {good} :
    R s (State.commitEnd x acc good) := by
  unfold State.commitEnd
  with_reducible repeat' first
    | exact hk | apply Keeps.refl | apply State.refreshSettled_keeps | apply State.showTorn_keeps
    | apply State.untear_keeps | apply State.raiseIf_keeps | apply State.calFree_keeps | apply State.refreshBusy_keeps
    | apply State.updCal_keeps | apply State.calEnd_keeps | apply State.cond_keeps | apply State.commitUnchanged_keeps
    | apply State.calLetGo_keeps | apply Keeps.foldl | apply Keeps.foldlP | exact fun _ => Cal.wf_of rfl rfl | intro _
    | apply Keeps.ite | dsimp only | split

theorem State.calCommit_keeps [Kept R] [KRegs R] [KBs R] [KStaged R] [KLed R] [KChan R] [KPmc R] [KSrc R] [KAe R] [KSea R]
    [KCal R] [KRt R] [KFree R] {s x : State} (hk :
    R s x) {good} :
    R s (State.calCommit x good) := by
  unfold State.calCommit
  with_reducible repeat' first
    | exact hk | apply Keeps.refl | apply State.calAbort_keeps | apply State.commitBegin_keeps
    | apply State.portUsed_keeps | apply State.bsWr_keeps | apply State.updCal_keeps | apply State.cond_keeps
    | apply State.bsFail_keeps | apply State.commitEnd_keeps | apply Keeps.foldl | apply Keeps.foldlP
    | exact fun _ => Cal.wf_of rfl rfl | intro _ | apply Keeps.ite | dsimp only | split

theorem State.calComplete_keeps [Kept R] [KRegs R] [KBs R] [KStaged R] [KLed R] [KChan R] [KPmc R] [KSrc R] [KAe R] [KSea R]
    [KCal R] [KRt R] [KFree R] {s x : State} (hk :
    R s x) {good} :
    R s (State.calComplete x good) := by
  unfold State.calComplete
  with_reducible repeat' first
    | exact hk | apply Keeps.refl | apply State.updSea_keeps | apply State.fset_keeps | apply State.bsWrC_keeps
    | apply State.portUsed_keeps | apply State.cond_keeps | apply State.bsFail_keeps | apply State.commitEnd_keeps
    | intro _ | apply Keeps.ite | dsimp only | split

theorem State.calApply_keeps [Kept R] [KRegs R] [KStaged R] [KLed R] [KChan R] [KPmc R] [KSrc R] [KAe R] [KSea R] [KCal R]
    [KRt R] {s x : State} (hk :
    R s x) :
    R s (State.calApply x) := by
  unfold State.calApply
  with_reducible repeat' first
    | exact hk | apply Keeps.refl | apply State.refreshSettled_keeps | apply State.updSea_keeps
    | apply State.calFree_keeps | apply State.retarget_keeps | apply State.updCal_keeps | apply State.cond_keeps
    | apply State.refreshPair_keeps | apply State.applyElem_keeps | apply State.calLetGo_keeps | apply Keeps.foldl
    | apply Keeps.foldlP | exact fun _ => Cal.wf_of rfl rfl | intro _ | apply Keeps.ite | dsimp only | split

theorem State.applyTslot_keeps [Kept R] [KRegs R] [KFrc R] [KStaged R] [KLed R] [KChan R] [KPmc R] [KSrc R] [KAe R] [KCal R]
    [KRt R] {s x : State} (hk :
    R s x) {v} :
    R s (State.applyTslot x v) := by
  unfold State.applyTslot
  with_reducible repeat' first
    | exact hk | apply Keeps.refl | apply State.calAbort_keeps | apply State.refreshBusy_keeps | apply State.updCal_keeps
    | apply State.setEff_keeps | apply Keeps.foldl | apply Keeps.foldlP | exact fun _ => Cal.wf_of rfl rfl | intro _
    | apply Keeps.ite | dsimp only | split

theorem State.clearValid_keeps [Kept R] [KBs R] {s x : State} (hk : R s x) {m} {els} : R s (State.clearValid x m els) := by
  unfold State.clearValid
  with_reducible repeat' first
    | exact hk | apply Keeps.refl | apply State.bsWrC_keeps | apply State.each_keeps | intro _ | apply Keeps.ite
    | dsimp only | split

theorem State.tslotNWrite_keeps [Kept R] [KBs R] {s x : State} (hk : R s x) : R s (State.tslotNWrite x) := by
  unfold State.tslotNWrite
  with_reducible repeat' first
    | exact hk | apply Keeps.refl | apply State.bsWr_keeps | intro _ | apply Keeps.ite | dsimp only | split

theorem State.tslotCycle_keeps [Kept R] [KRegs R] [KBs R] [KCal R] {s x : State} (hk :
    R s x) :
    R s (State.tslotCycle x) := by
  unfold State.tslotCycle
  with_reducible repeat' first
    | exact hk | apply Keeps.refl | apply State.tslotNWrite_keeps | apply State.refreshBusy_keeps | apply State.bsWr_keeps
    | apply State.updCal_keeps | apply State.clearValid_keeps | exact fun _ => Cal.wf_of rfl rfl | intro _
    | apply Keeps.ite | dsimp only | split

theorem execCalGo_keeps [Kept R] [KRegs R] [KCal R] {s : State} : KeepsOut R s (execCalGo s) := by
  unfold execCalGo
  with_reducible repeat' first
    | apply KeepsOut.ok | apply KeepsOut.next | apply Keeps.refl | apply State.calGoNow_keeps | intro _ | apply Keeps.ite
    | dsimp only | split

theorem execCalStop_keeps [Kept R] [KRegs R] [KStaged R] [KLed R] [KChan R] [KPmc R] [KSrc R] [KAe R] [KCal R] [KRt R] {s :
    State} :
    KeepsOut R s (execCalStop s) := by
  unfold execCalStop
  with_reducible repeat' first
    | apply KeepsOut.ok | apply KeepsOut.next | apply Keeps.refl | apply State.calStopNow_keeps | intro _
    | apply Keeps.ite | dsimp only | split

theorem execCalGroupHold_keeps [Kept R] [KRegs R] [KMem R] [KChan R] [KSrc R] [KAe R] [KCal R] [KRt R] {s : State} :
    KeepsOut R s (execCalGroupHold s) := by
  unfold execCalGroupHold
  with_reducible repeat' first
    | apply KeepsOut.ok | apply KeepsOut.next | apply Keeps.refl | apply State.calHold_keeps | intro _ | apply Keeps.ite
    | dsimp only | split

theorem execCalPassDone_keeps [Kept R] [KRegs R] [KStaged R] [KLed R] [KChan R] [KPmc R] [KSrc R] [KAe R] [KCal R] [KRt R]
    {s : State} {runs} :
    KeepsOut R s (execCalPassDone runs s) := by
  unfold execCalPassDone
  with_reducible repeat' first
    | apply KeepsOut.ok | apply KeepsOut.next | apply Keeps.refl | apply State.calPassDone_keeps | intro _
    | apply Keeps.ite | dsimp only | split

theorem execCalCommit_keeps [Kept R] [KRegs R] [KBs R] [KStaged R] [KLed R] [KChan R] [KPmc R] [KSrc R] [KAe R] [KSea R]
    [KCal R] [KRt R] [KFree R] {s : State} {readBackOk} :
    KeepsOut R s (execCalCommit readBackOk s) := by
  unfold execCalCommit
  with_reducible repeat' first
    | apply KeepsOut.ok | apply KeepsOut.next | apply Keeps.refl | apply State.calCommit_keeps | intro _ | apply Keeps.ite
    | dsimp only | split

theorem execCalCommitComplete_keeps [Kept R] [KRegs R] [KBs R] [KStaged R] [KLed R] [KChan R] [KPmc R] [KSrc R] [KAe R]
    [KSea R] [KCal R] [KRt R] [KFree R] {s : State} {readBackOk} :
    KeepsOut R s (execCalCommitComplete readBackOk s) := by
  unfold execCalCommitComplete
  with_reducible repeat' first
    | apply KeepsOut.ok | apply KeepsOut.next | apply Keeps.refl | apply State.calComplete_keeps | intro _
    | apply Keeps.ite | dsimp only | split

theorem execTslotInvalidation_keeps [Kept R] [KRegs R] [KBs R] [KCal R] {s : State} :
    KeepsOut R s (execTslotInvalidation s) := by
  unfold execTslotInvalidation
  with_reducible repeat' first
    | apply KeepsOut.ok | apply KeepsOut.next | apply Keeps.refl | apply State.tslotCycle_keeps | intro _
    | apply Keeps.ite | dsimp only | split

end Sys2Proof.Machine
end

