-- ==== Sys2Proof/Laws/KeepsStore.lean ====
section
/-! SUPPORT. `Keeps` of the operations of Machine/Store.lean. -/

namespace Sys2Proof.Machine

variable {R : State → State → Prop}

theorem State.bsLoss_keeps [Kept R] [KRegs R] [KBs R] {s x : State} (hk : R s x) : R s (State.bsLoss x) := by
  unfold State.bsLoss
  with_reducible repeat' first
    | exact hk | apply Keeps.refl | apply State.fset_keeps | apply State.bsReinit_keeps | apply State.raiseF_keeps
    | intro _ | apply Keeps.ite | dsimp only | split

theorem State.bsRepair_keeps [Kept R] [KRegs R] [KBs R] {s x : State} (hk : R s x) : R s (State.bsRepair x) := by
  unfold State.bsRepair
  with_reducible repeat' first
    | exact hk | apply Keeps.refl | apply State.each_keeps | apply State.bsWr_keeps | apply State.raiseF_keeps | intro _
    | apply Keeps.ite | dsimp only | split

theorem State.bsTslotFix_keeps [Kept R] [KRegs R] [KFrc R] [KBs R] {s x : State} (hk :
    R s x) :
    R s (State.bsTslotFix x) := by
  unfold State.bsTslotFix
  with_reducible repeat' first
    | exact hk | apply Keeps.refl | apply State.tslotNWrite_keeps | apply State.raiseF_keeps | apply State.putBoth_keeps
    | apply State.clearValid_keeps | intro _ | apply Keeps.ite | dsimp only | split

theorem State.bsTorn_keeps [Kept R] [KRegs R] [KSea R] [KCal R] {s x : State} (hk : R s x) : R s (State.bsTorn x) := by
  unfold State.bsTorn
  with_reducible repeat' first
    | exact hk | apply Keeps.refl | apply State.showTorn_keeps | apply State.each_keeps | apply State.updCal_keeps
    | apply State.setUncal_keeps | exact fun _ => Cal.wf_of rfl rfl | intro _ | apply Keeps.ite | dsimp only | split

theorem State.bsClose_keeps [Kept R] [KRegs R] [KBs R] {s x : State} (hk : R s x) : R s (State.bsClose x) := by
  unfold State.bsClose
  with_reducible repeat' first
    | exact hk | apply Keeps.refl | apply State.fset_keeps | apply State.bsWrC_keeps | apply State.cond_keeps | intro _
    | apply Keeps.ite | dsimp only | split

theorem State.loadSeason_keeps [Kept R] [KRegs R] {s x : State} (hk : R s x) : R s (State.loadSeason x) := by
  unfold State.loadSeason
  with_reducible repeat' first
    | exact hk | apply Keeps.refl | apply State.wr_keeps | intro _ | apply Keeps.ite | dsimp only | split

theorem State.bsCheck_keeps [Kept R] [KRegs R] [KFrc R] [KBs R] [KSea R] [KCal R] {s x : State} (hk :
    R s x) :
    R s (State.bsCheck x) := by
  unfold State.bsCheck
  with_reducible repeat' first
    | exact hk | apply Keeps.refl | apply State.loadSeason_keeps | apply State.bsClose_keeps | apply State.bsTorn_keeps
    | apply State.bsTslotFix_keeps | apply State.bsLoss_keeps | apply State.bsRepair_keeps | intro _ | apply Keeps.ite
    | dsimp only | split

theorem State.storeWrite_keeps [Kept R] [KRegs R] [KBs R] {s x : State} (hk :
    R s x) {i} {v} :
    R s (State.storeWrite x i v).1 := by
  unfold State.storeWrite
  with_reducible repeat' first
    | exact hk | apply Keeps.refl | apply State.raiseF_keeps | apply State.bsPut_keeps | intro _ | apply Keeps.ite
    | dsimp only | split

theorem State.recordWrite_keeps [Kept R] [KRegs R] [KBs R] [KSea R] [KFree R] {s x : State} (hk :
    R s x) {good} :
    R s (State.recordWrite x good) := by
  unfold State.recordWrite
  with_reducible repeat' first
    | exact hk | apply Keeps.refl | apply State.updSea_keeps | apply State.fset_keeps | apply State.raiseIf_keeps
    | apply State.refreshBusy_keeps | apply State.bsWr_keeps | apply State.cond_keeps | apply State.bsFail_keeps
    | apply Keeps.foldl | apply Keeps.foldlP | intro _ | apply Keeps.ite | dsimp only | split

theorem State.seasonsWrite_keeps [Kept R] [KRegs R] [KBs R] [KSea R] [KFree R] {s x : State} (hk :
    R s x) {good} :
    R s (State.seasonsWrite x good) := by
  unfold State.seasonsWrite
  with_reducible repeat' first
    | exact hk | apply Keeps.refl | apply State.updSea_keeps | apply State.bsCounter_keeps | apply State.bsFail_keeps
    | intro _ | apply Keeps.ite | dsimp only | split

theorem execTraceabilityRecordWrite_keeps [Kept R] [KRegs R] [KBs R] [KSea R] [KFree R] {s : State} {readBackOk} :
    KeepsOut R s (execTraceabilityRecordWrite readBackOk s) := by
  unfold execTraceabilityRecordWrite
  with_reducible repeat' first
    | apply KeepsOut.ok | apply KeepsOut.next | apply Keeps.refl | apply State.recordWrite_keeps | intro _
    | apply Keeps.ite | dsimp only | split

theorem execSeasonsCounterWrite_keeps [Kept R] [KRegs R] [KBs R] [KSea R] [KFree R] {s : State} {readBackOk} :
    KeepsOut R s (execSeasonsCounterWrite readBackOk s) := by
  unfold execSeasonsCounterWrite
  with_reducible repeat' first
    | apply KeepsOut.ok | apply KeepsOut.next | apply Keeps.refl | apply State.seasonsWrite_keeps | intro _
    | apply Keeps.ite | dsimp only | split

theorem execPoweredHoursIncrement_keeps [Kept R] [KBs R] [KUnit R] {s : State} :
    KeepsOut R s (execPoweredHoursIncrement s) := by
  unfold execPoweredHoursIncrement
  with_reducible repeat' first
    | apply KeepsOut.ok | apply KeepsOut.next | apply Keeps.refl | apply State.updUnit_keeps | apply State.bsCount_keeps
    | exact fun _ => rfl | exact fun _ => UnitSt.rail_st .. | intro _ | apply Keeps.ite | dsimp only | split

end Sys2Proof.Machine
end

