-- ==== Sys2Proof/Laws/KeepsTick.lean ====
section
/-! SUPPORT. `Keeps` of the operations of Machine/Tick.lean. -/

namespace Sys2Proof.Machine

variable {R : State → State → Prop}

theorem State.tickFault_keeps [Kept R] [KRegs R] {s x : State} (hk : R s x) : R s (State.tickFault x) := by
  unfold State.tickFault
  with_reducible repeat' first
    | exact hk | apply Keeps.refl | apply State.raiseF_keeps | intro _ | apply Keeps.ite | dsimp only | split

theorem State.tickFrame_keeps [Kept R] [KRegs R] [KClk R] {s x : State} (hk : R s x) {ws} : R s (State.tickFrame x ws) := by
  unfold State.tickFrame
  with_reducible repeat' first
    | exact hk | apply Keeps.refl | apply State.fset_keeps | apply State.raiseF_keeps | apply State.updClk_keeps
    | apply State.tickFault_keeps | intro _ | apply Keeps.ite | dsimp only | split

theorem State.tickLost_keeps [Kept R] [KRegs R] [KRt R] {s x : State} (hk : R s x) : R s (State.tickLost x) := by
  unfold State.tickLost
  with_reducible repeat' first
    | exact hk | apply Keeps.refl | apply State.fset_keeps | apply State.eventT_keeps | apply State.raiseF_keeps
    | apply State.tickFault_keeps | intro _ | apply Keeps.ite | dsimp only | split

theorem State.adoptCount_keeps [Kept R] [KRegs R] [KClk R] [KSea R] {s x : State} (hk :
    R s x) :
    R s (State.adoptCount x) := by
  unfold State.adoptCount
  with_reducible repeat' first
    | exact hk | apply Keeps.refl | apply State.updSea_keeps | apply State.fset_keeps | apply State.cond_keeps
    | apply State.raiseF_keeps | apply State.updClk_keeps | intro _ | apply Keeps.ite | dsimp only | split

theorem State.phaseMeasure_keeps [Kept R] [KRegs R] [KClk R] {s x : State} (hk :
    R s x) {edge} :
    R s (State.phaseMeasure x edge) := by
  unfold State.phaseMeasure
  with_reducible repeat' first
    | exact hk | apply Keeps.refl | apply State.fset_keeps | apply State.raiseF_keeps | apply State.fbit_keeps
    | apply State.updClk_keeps | intro _ | apply Keeps.ite | dsimp only | split

theorem State.leapSchedule_keeps [Kept R] [KRegs R] [KClk R] {s x : State} (hk : R s x) : R s (State.leapSchedule x) := by
  unfold State.leapSchedule
  with_reducible repeat' first
    | exact hk | apply Keeps.refl | apply State.fset_keeps | apply State.updClk_keeps | intro _ | apply Keeps.ite
    | dsimp only | split

theorem State.slewBegin_keeps [Kept R] [KRegs R] [KClk R] [KSea R] {s x : State} (hk :
    R s x) {fine} :
    R s (State.slewBegin x fine) := by
  unfold State.slewBegin
  with_reducible repeat' first
    | exact hk | apply Keeps.refl | apply State.markLeap_keeps | apply State.fset_keeps | apply State.updClk_keeps
    | intro _ | apply Keeps.ite | dsimp only | split

theorem State.leapNow_keeps [Kept R] [KRegs R] [KClk R] [KSea R] [KRt R] {s x : State} (hk :
    R s x) {n} :
    R s (State.leapNow x n) := by
  unfold State.leapNow
  with_reducible repeat' first
    | exact hk | apply Keeps.refl | apply State.markLeap_keeps | apply State.eventT_keeps | apply State.inc_keeps
    | apply State.updClk_keeps | intro _ | apply Keeps.ite | dsimp only | split

theorem State.leapTick_keeps [Kept R] [KRegs R] [KClk R] [KSea R] [KRt R] {s x : State} (hk :
    R s x) :
    R s (State.leapTick x) := by
  unfold State.leapTick
  with_reducible repeat' first
    | exact hk | apply Keeps.refl | apply State.fset_keeps | apply State.leapNow_keeps | apply State.slewBegin_keeps
    | apply State.updClk_keeps | intro _ | apply Keeps.ite | dsimp only | split

theorem State.noLeap_keeps [Kept R] [KRegs R] [KClk R] {s x : State} (hk : R s x) : R s (State.noLeap x) := by
  unfold State.noLeap
  with_reducible repeat' first
    | exact hk | apply Keeps.refl | apply State.fset_keeps | apply State.updClk_keeps | intro _ | apply Keeps.ite
    | dsimp only | split

theorem State.writeLeap_keeps [Kept R] [KRegs R] [KClk R] [KSea R] {s x : State} (hk :
    R s x) {v} :
    R s (State.writeLeap x v) := by
  unfold State.writeLeap
  with_reducible repeat' first
    | exact hk | apply Keeps.refl | apply State.fset_keeps | apply State.wr_keeps | apply State.cond_keeps
    | apply State.noLeap_keeps | apply State.slewBegin_keeps | apply State.updClk_keeps | intro _ | apply Keeps.ite
    | dsimp only | split

theorem State.writeEpact_keeps [Kept R] [KRegs R] [KClk R] [KSea R] {s x : State} (hk :
    R s x) {v} :
    R s (State.writeEpact x v) := by
  unfold State.writeEpact
  with_reducible repeat' first
    | exact hk | apply Keeps.refl | apply State.wr_keeps | apply State.slewBegin_keeps | apply State.updClk_keeps
    | intro _ | apply Keeps.ite | dsimp only | split

theorem State.slewEnd_keeps [Kept R] [KRegs R] [KClk R] {s x : State} (hk : R s x) : R s (State.slewEnd x) := by
  unfold State.slewEnd
  with_reducible repeat' first
    | exact hk | apply Keeps.refl | apply State.fset_keeps | apply State.updClk_keeps | intro _ | apply Keeps.ite
    | dsimp only | split

theorem State.epactStart_keeps [Kept R] [KRegs R] [KClk R] {s x : State} (hk : R s x) : R s (State.epactStart x) := by
  unfold State.epactStart
  with_reducible repeat' first
    | exact hk | apply Keeps.refl | apply State.fset_keeps | apply State.updClk_keeps | intro _ | apply Keeps.ite
    | dsimp only | split

theorem State.marker_keeps [Kept R] [KClk R] {s x : State} (hk :
    R s x) {r} {count} {arrival} {offset} :
    R s (State.marker x r count arrival offset) := by
  unfold State.marker
  with_reducible repeat' first
    | exact hk | apply Keeps.refl | apply State.updClk_keeps | intro _ | apply Keeps.ite | dsimp only | split

theorem State.epactMean_keeps [Kept R] [KRegs R] [KFree R] {s x : State} (hk :
    R s x) {a} {sum} {n} :
    R s (State.epactMean x a sum n) := by
  unfold State.epactMean
  with_reducible repeat' first
    | exact hk | apply Keeps.refl | apply State.fresh_keeps | apply State.wr_keeps | apply State.cond_keeps | intro _
    | apply Keeps.ite | dsimp only | split

theorem State.epactEnd_keeps [Kept R] [KRegs R] [KFree R] {s x : State} (hk : R s x) : R s (State.epactEnd x) := by
  unfold State.epactEnd
  with_reducible repeat' first
    | exact hk | apply Keeps.refl | apply State.epactMean_keeps | apply State.fset_keeps | intro _ | apply Keeps.ite
    | dsimp only | split

theorem State.readCount_keeps [Kept R] [KLat R] [KSea R] {s x : State} (hk :
    R s x) {h} {cyc} :
    R s (State.readCount x h cyc).1 := by
  unfold State.readCount
  with_reducible repeat' first
    | exact hk | apply Keeps.refl | apply State.markLocal_keeps | apply State.latch_keeps | intro _ | apply Keeps.ite
    | dsimp only | split

theorem execTickFrame_keeps [Kept R] [KRegs R] [KClk R] {s : State} {widths} : KeepsOut R s (execTickFrame widths s) := by
  unfold execTickFrame
  with_reducible repeat' first
    | apply KeepsOut.ok | apply KeepsOut.next | apply Keeps.refl | apply State.tickFrame_keeps | intro _ | apply Keeps.ite
    | dsimp only | split

theorem execTickLost_keeps [Kept R] [KRegs R] [KRt R] {s : State} : KeepsOut R s (execTickLost s) := by
  unfold execTickLost
  with_reducible repeat' first
    | apply KeepsOut.ok | apply KeepsOut.next | apply Keeps.refl | apply State.tickLost_keeps | intro _ | apply Keeps.ite
    | dsimp only | split

theorem execLeapSchedule_keeps [Kept R] [KRegs R] [KClk R] {s : State} : KeepsOut R s (execLeapSchedule s) := by
  unfold execLeapSchedule
  with_reducible repeat' first
    | apply KeepsOut.ok | apply KeepsOut.next | apply Keeps.refl | apply State.leapSchedule_keeps | intro _
    | apply Keeps.ite | dsimp only | split

theorem execLeapTick_keeps [Kept R] [KRegs R] [KClk R] [KSea R] [KRt R] {s : State} : KeepsOut R s (execLeapTick s) := by
  unfold execLeapTick
  with_reducible repeat' first
    | apply KeepsOut.ok | apply KeepsOut.next | apply Keeps.refl | apply State.leapTick_keeps | intro _ | apply Keeps.ite
    | dsimp only | split

theorem execLeapJump_keeps [Kept R] [KRegs R] [KClk R] [KSea R] {s : State} {w} : KeepsOut R s (execLeapJump w s) := by
  unfold execLeapJump
  with_reducible repeat' first
    | apply KeepsOut.ok | apply KeepsOut.next | apply Keeps.refl | apply State.writeLeap_keeps | intro _ | apply Keeps.ite
    | dsimp only | split

theorem execAdopt_keeps [Kept R] [KRegs R] [KClk R] [KSea R] {s : State} {w} : KeepsOut R s (execAdopt w s) := by
  unfold execAdopt
  with_reducible repeat' first
    | apply KeepsOut.ok | apply KeepsOut.next | apply Keeps.refl | apply State.writeLeap_keeps | intro _ | apply Keeps.ite
    | dsimp only | split

theorem execEpactWrite_keeps [Kept R] [KRegs R] [KClk R] [KSea R] {s : State} {w} : KeepsOut R s (execEpactWrite w s) := by
  unfold execEpactWrite
  with_reducible repeat' first
    | apply KeepsOut.ok | apply KeepsOut.next | apply Keeps.refl | apply State.writeEpact_keeps | intro _
    | apply Keeps.ite | dsimp only | split

theorem execEpactSlewEnd_keeps [Kept R] [KRegs R] [KClk R] {s : State} : KeepsOut R s (execEpactSlewEnd s) := by
  unfold execEpactSlewEnd
  with_reducible repeat' first
    | apply KeepsOut.ok | apply KeepsOut.next | apply Keeps.refl | apply State.slewEnd_keeps | intro _ | apply Keeps.ite
    | dsimp only | split

theorem execEpactStart_keeps [Kept R] [KRegs R] [KClk R] {s : State} : KeepsOut R s (execEpactStart s) := by
  unfold execEpactStart
  with_reducible repeat' first
    | apply KeepsOut.ok | apply KeepsOut.next | apply Keeps.refl | apply State.epactStart_keeps | intro _
    | apply Keeps.ite | dsimp only | split

theorem execMarker_keeps [Kept R] [KClk R] {s : State} {ring} {count} {arrival} {offset} :
    KeepsOut R s (execMarker ring count arrival offset s) := by
  unfold execMarker
  with_reducible repeat' first
    | apply KeepsOut.ok | apply KeepsOut.next | apply Keeps.refl | apply State.marker_keeps | intro _ | apply Keeps.ite
    | dsimp only | split

theorem execEpactMeasurementEnd_keeps [Kept R] [KRegs R] [KFree R] {s : State} :
    KeepsOut R s (execEpactMeasurementEnd s) := by
  unfold execEpactMeasurementEnd
  with_reducible repeat' first
    | apply KeepsOut.ok | apply KeepsOut.next | apply Keeps.refl | apply State.epactEnd_keeps | intro _ | apply Keeps.ite
    | dsimp only | split

theorem execTickCountLoRead_keeps [Kept R] [KLat R] [KSea R] {s : State} {h} {cyc} :
    KeepsOut R s (execTickCountLoRead h cyc s) := by
  unfold execTickCountLoRead
  with_reducible repeat' first
    | apply KeepsOut.ok | apply KeepsOut.next | apply Keeps.refl | apply State.readCount_keeps
    | refine Keeps.fst ?_ (by assumption) | intro _ | apply Keeps.ite | dsimp only | split

theorem execTickStatusRead_keeps [Kept R] [KRegs R] {s : State} : KeepsOut R s (execTickStatusRead s) := by
  unfold execTickStatusRead
  with_reducible repeat' first
    | apply KeepsOut.ok | apply KeepsOut.next | apply Keeps.refl | apply State.fset_keeps | intro _ | apply Keeps.ite
    | dsimp only | split

theorem execTickBudgetRead_keeps [Kept R] [KRegs R] {s : State} : KeepsOut R s (execTickBudgetRead s) := by
  unfold execTickBudgetRead
  with_reducible repeat' first
    | apply KeepsOut.ok | apply KeepsOut.next | apply Keeps.refl | apply State.wr_keeps | intro _ | apply Keeps.ite
    | dsimp only | split

end Sys2Proof.Machine
end

