-- ==== Sys2Proof/Laws/KeepsSeason.lean ====
section
/-! SUPPORT. `Keeps` of the operations of Machine/Season.lean. -/

namespace Sys2Proof.Machine

variable {R : State → State → Prop}

theorem State.seasonForces_keeps [Kept R] [KRegs R] [KFrc R] [KStaged R] [KLed R] [KChan R] [KPmc R] [KSrc R] [KAe R] [KCal
    R] [KRt R] {s x : State} (hk :
    R s x) :
    R s (State.seasonForces x) := by
  unfold State.seasonForces
  with_reducible repeat' first
    | exact hk | apply Keeps.refl | apply State.applyTslot_keeps | apply State.updStaged_keeps | apply State.setEff_keeps
    | apply Keeps.foldl | apply Keeps.foldlP | intro _ | apply Keeps.ite | dsimp only | split

theorem State.seasonWait_keeps [Kept R] [KStaged R] {s x : State} (hk : R s x) : R s (State.seasonWait x) := by
  unfold State.seasonWait
  with_reducible repeat' first
    | exact hk | apply Keeps.refl | apply State.updStaged_keeps | apply Keeps.foldl | apply Keeps.foldlP | intro _
    | apply Keeps.ite | dsimp only | split

theorem State.seasonAt_keeps [Kept R] [KRegs R] [KFrc R] [KStaged R] [KLed R] [KChan R] [KPmc R] [KSrc R] [KAe R] [KSea R]
    [KCal R] [KRt R] {s x : State} (hk :
    R s x) {mask} :
    R s (State.seasonAt x mask) := by
  unfold State.seasonAt
  with_reducible repeat' first
    | exact hk | apply Keeps.refl | apply State.updSea_keeps | apply State.eventT_keeps | apply State.seasonForces_keeps
    | apply State.calSwitch_keeps | intro _ | apply Keeps.ite | dsimp only | split

theorem State.writeSeason_keeps [Kept R] [KRegs R] [KStaged R] {s x : State} (hk :
    R s x) {w} :
    R s (State.writeSeason x w) := by
  unfold State.writeSeason
  with_reducible repeat' first
    | exact hk | apply Keeps.refl | apply State.stage_keeps | apply State.writeAt_keeps | apply State.cond_keeps | intro _
    | apply Keeps.ite | dsimp only | split

theorem State.seasonInterval_keeps [Kept R] [KRegs R] [KFrc R] [KStaged R] [KLed R] [KChan R] [KPmc R] [KSrc R] [KAe R]
    [KSea R] [KCal R] [KRt R] {s x : State} (hk :
    R s x) :
    R s (State.seasonInterval x) := by
  unfold State.seasonInterval
  with_reducible repeat' first
    | exact hk | apply Keeps.refl | apply State.seasonAt_keeps | apply State.cond_keeps | intro _ | apply Keeps.ite
    | dsimp only | split

theorem State.latchStat_keeps [Kept R] [KRegs R] {s x : State} (hk : R s x) {p} : R s (State.latchStat x p) := by
  unfold State.latchStat
  with_reducible repeat' first
    | exact hk | apply Keeps.refl | apply State.wr_keeps | intro _ | apply Keeps.ite | dsimp only | split

theorem State.latchClear_keeps [Kept R] [KRegs R] {s x : State} (hk : R s x) {c} : R s (State.latchClear x c) := by
  unfold State.latchClear
  with_reducible repeat' first
    | exact hk | apply Keeps.refl | apply State.wr_keeps | intro _ | apply Keeps.ite | dsimp only | split

theorem State.seasonBegin_keeps [Kept R] [KSea R] {s x : State} (hk : R s x) : R s (State.seasonBegin x) := by
  unfold State.seasonBegin
  with_reducible repeat' first
    | exact hk | apply Keeps.refl | apply State.updSea_keeps | intro _ | apply Keeps.ite | dsimp only | split

theorem State.seasonLatch_keeps [Kept R] [KRegs R] [KClk R] [KSea R] [KFree R] {s x : State} (hk :
    R s x) :
    R s (State.seasonLatch x) := by
  unfold State.seasonLatch
  with_reducible repeat' first
    | exact hk | apply Keeps.refl | apply State.updSea_keeps | apply State.adoptCount_keeps
    | apply State.seasonBegin_keeps | apply State.fset_keeps | apply State.wr_keeps | apply State.refreshBusy_keeps
    | apply State.latchStat_keeps | apply State.freshN_keeps | apply State.latchClear_keeps | apply State.upTo_keeps
    | apply Keeps.foldl | apply Keeps.foldlP | intro _ | apply Keeps.ite | dsimp only | split

theorem State.hotCheck_keeps [Kept R] [KRegs R] [KBank R] [KUnit R] {s x : State} (hk :
    R s x) {d} {t} :
    R s (State.hotCheck x d t) := by
  unfold State.hotCheck
  with_reducible repeat' first
    | exact hk | apply Keeps.refl | apply State.fset_keeps | apply State.dieFault_keeps | apply State.cond_keeps | intro _
    | apply Keeps.ite | dsimp only | split

theorem State.sampleNow_keeps [Kept R] [KRegs R] [KBank R] [KSea R] [KUnit R] [KCal R] {s x : State} (hk :
    R s x) {d} {t} :
    R s (State.sampleNow x d t) := by
  unfold State.sampleNow
  with_reducible repeat' first
    | exact hk | apply Keeps.refl | apply State.refreshSettled_keeps | apply State.updSea_keeps | apply State.fset_keeps
    | apply State.hotCheck_keeps | apply State.calWindow_keeps | apply State.retarget_keeps | apply State.updCal_keeps
    | apply State.cond_keeps | apply State.synDue_keeps | apply Keeps.foldl | apply Keeps.foldlP
    | exact fun _ => Cal.wf_of rfl rfl | intro _ | apply Keeps.ite | dsimp only | split

theorem State.sampleDie_keeps [Kept R] [KRegs R] [KBank R] [KSea R] [KUnit R] [KCal R] [KRt R] {s x : State} (hk :
    R s x) {d} {t} :
    R s (State.sampleDie x d t) := by
  unfold State.sampleDie
  with_reducible repeat' first
    | exact hk | apply Keeps.refl | apply State.cond_keeps | apply State.sampleNow_keeps | apply State.tempStep_keeps
    | intro _ | apply Keeps.ite | dsimp only | split

theorem execSeasonBoundaryRequest_keeps [Kept R] [KStaged R] {s : State} {who} {cyc} :
    KeepsOut R s (execSeasonBoundaryRequest who cyc s) := by
  unfold execSeasonBoundaryRequest
  with_reducible repeat' first
    | apply KeepsOut.ok | apply KeepsOut.next | apply Keeps.refl | apply State.stage_keeps | intro _ | apply Keeps.ite
    | dsimp only | split

theorem execSeasonInterval_keeps [Kept R] [KRegs R] [KFrc R] [KStaged R] [KLed R] [KChan R] [KPmc R] [KSrc R] [KAe R] [KSea
    R] [KCal R] [KRt R] {s : State} :
    KeepsOut R s (execSeasonInterval s) := by
  unfold execSeasonInterval
  with_reducible repeat' first
    | apply KeepsOut.ok | apply KeepsOut.next | apply Keeps.refl | apply State.seasonInterval_keeps | intro _
    | apply Keeps.ite | dsimp only | split

theorem execTemperatureSample_keeps [Kept R] [KRegs R] [KBank R] [KSea R] [KUnit R] [KCal R] [KRt R] {s : State} {die} {t} :
    KeepsOut R s (execTemperatureSample die t s) := by
  unfold execTemperatureSample
  with_reducible repeat' first
    | apply KeepsOut.ok | apply KeepsOut.next | apply Keeps.refl | apply State.sampleDie_keeps | intro _ | apply Keeps.ite
    | dsimp only | split

end Sys2Proof.Machine
end

