-- ==== Sys2Proof/Laws/KeepsSeq.lean ====
section
/-! SUPPORT. `Keeps` of the operations of Machine/Seq.lean. -/

namespace Sys2Proof.Machine

variable {R : State → State → Prop}

theorem State.applyVec_keeps [Kept R] [KRegs R] [KChan R] [KBank R] {s x : State} (hk :
    R s x) {b} {l} {v} {test} {judge} :
    R s (State.applyVec x b l v test judge) := by
  unfold State.applyVec
  with_reducible repeat' first
    | exact hk | apply Keeps.refl | apply State.each_keeps | apply State.updCh_keeps | apply State.updBk_keeps
    | apply State.inc_keeps | intro _ | apply Keeps.ite | dsimp only | split

theorem State.toLine_keeps [Kept R] [KBank R] {s x : State} (hk : R s x) {b} {l} : R s (State.toLine x b l) := by
  unfold State.toLine
  with_reducible repeat' first
    | exact hk | apply Keeps.refl | apply State.updBk_keeps | intro _ | apply Keeps.ite | dsimp only | split

theorem State.setSeq_keeps [Kept R] [KRegs R] {s x : State} (hk : R s x) {b} {st} : R s (State.setSeq x b st) := by
  unfold State.setSeq
  with_reducible repeat' first
    | exact hk | apply Keeps.refl | apply State.fset_keeps | intro _ | apply Keeps.ite | dsimp only | split

theorem State.toWait_keeps [Kept R] [KRegs R] [KBank R] {s x : State} (hk : R s x) {b} {w} : R s (State.toWait x b w) := by
  unfold State.toWait
  with_reducible repeat' first
    | exact hk | apply Keeps.refl | apply State.setSeq_keeps | apply State.updBk_keeps | intro _ | apply Keeps.ite
    | dsimp only | split

theorem State.judgeRep_keeps [Kept R] [KRegs R] [KBank R] {s x : State} (hk :
    R s x) {b} {r} :
    R s (State.judgeRep x b r) := by
  unfold State.judgeRep
  with_reducible repeat' first
    | exact hk | apply Keeps.refl | apply State.fset_keeps | apply State.toLine_keeps | apply State.toWait_keeps
    | apply State.updBk_keeps | intro _ | apply Keeps.ite | dsimp only | split

theorem State.matchTest_keeps [Kept R] [KRegs R] [KBank R] {s x : State} (hk :
    R s x) {b} {id} {pass} :
    R s (State.matchTest x b id pass) := by
  unfold State.matchTest
  with_reducible repeat' first
    | exact hk | apply Keeps.refl | apply State.updBk_keeps | apply State.judgeRep_keeps | intro _ | apply Keeps.ite
    | dsimp only | split

theorem State.decide1_keeps [Kept R] [KRegs R] [KBank R] [KRt R] {s x : State} (hk :
    R s x) {b} {x2} :
    R s (State.decide1 x b x2) := by
  unfold State.decide1
  with_reducible repeat' first
    | exact hk | apply Keeps.refl | apply State.eventAt_keeps | apply State.wr_keeps | apply State.matchTest_keeps
    | intro _ | apply Keeps.ite | dsimp only | split

theorem State.strobesDue_keeps [Kept R] [KRegs R] [KBank R] [KRt R] {s x : State} (hk :
    R s x) {b} {t} :
    R s (State.strobesDue x b t) := by
  unfold State.strobesDue
  with_reducible repeat' first
    | exact hk | apply Keeps.refl | apply State.decide1_keeps | apply State.updBk_keeps | apply Keeps.foldl
    | apply Keeps.foldlP | intro _ | apply Keeps.ite | dsimp only | split

theorem State.edgesDue_keeps [Kept R] [KChan R] {s x : State} (hk : R s x) {c} {t} : R s (State.edgesDue x c t) := by
  unfold State.edgesDue
  with_reducible repeat' first
    | exact hk | apply Keeps.refl | apply State.updCh_keeps | apply State.setDrive_keeps | intro _ | apply Keeps.ite
    | dsimp only | split

theorem State.haltDue_keeps [Kept R] [KRegs R] [KFrc R] [KStaged R] [KLed R] [KBank R] [KPmc R] [KRt R] {s x : State} (hk :
    R s x) {b} {t} :
    R s (State.haltDue x b t) := by
  unfold State.haltDue
  with_reducible repeat' first
    | exact hk | apply Keeps.refl | apply State.eventAt_keeps | apply State.seqHalt_keeps | apply State.handLast_keeps
    | intro _ | apply Keeps.ite | dsimp only | split

theorem State.bankAdvance_keeps [Kept R] [KRegs R] [KFrc R] [KStaged R] [KLed R] [KChan R] [KBank R] [KPmc R] [KRt R] {s x :
    State} (hk :
    R s x) {b} {t} :
    R s (State.bankAdvance x b t) := by
  unfold State.bankAdvance
  with_reducible repeat' first
    | exact hk | apply Keeps.refl | apply State.handDue_keeps | apply State.haltDue_keeps | apply State.each_keeps
    | apply State.edgesDue_keeps | apply State.strobesDue_keeps | intro _ | apply Keeps.ite | dsimp only | split

theorem State.lineErr_keeps [Kept R] [KBank R] {s x : State} (hk : R s x) {b} {code} : R s (State.lineErr x b code) := by
  unfold State.lineErr
  with_reducible repeat' first
    | exact hk | apply Keeps.refl | apply State.updBk_keeps | apply State.handLast_keeps | intro _ | apply Keeps.ite
    | dsimp only | split

theorem State.errDue_keeps [Kept R] [KRegs R] [KFrc R] [KMem R] [KStaged R] [KLed R] [KChan R] [KBank R] [KPmc R] [KSrc R]
    [KAe R] [KIsl R] [KSea R] [KUnit R] [KRt R] [KFree R] {s x : State} (hk :
    R s x) {b} :
    R s (State.errDue x b) := by
  unfold State.errDue
  with_reducible repeat' first
    | exact hk | apply Keeps.refl | apply State.errHaltNow_keeps | apply State.cond_keeps | intro _ | apply Keeps.ite
    | dsimp only | split

theorem State.enterLine_keeps [Kept R] [KRegs R] [KChan R] [KBank R] [KRt R] {s x : State} (hk :
    R s x) {b} {l} {op} {v} :
    R s (State.enterLine x b l op v) := by
  unfold State.enterLine
  with_reducible repeat' first
    | exact hk | apply Keeps.refl | apply State.handEnd_keeps | apply State.setSeq_keeps | apply State.fset_keeps
    | apply State.each_keeps | apply State.updBk_keeps | apply State.cond_keeps | apply State.driveOff_keeps
    | apply State.handStart_keeps | apply State.event_keeps | intro _ | apply Keeps.ite | dsimp only | split

theorem State.fetch_keeps [Kept R] [KBank R] {s x : State} (hk : R s x) {b} {l} : R s (State.fetch x b l) := by
  unfold State.fetch
  with_reducible repeat' first
    | exact hk | apply Keeps.refl | apply State.updBk_keeps | intro _ | apply Keeps.ite | dsimp only | split

theorem State.openRep_keeps [Kept R] [KBank R] {s x : State} (hk :
    R s x) {b} {l} {start} :
    R s (State.openRep x b l start) := by
  unfold State.openRep
  with_reducible repeat' first
    | exact hk | apply Keeps.refl | apply State.updBk_keeps | intro _ | apply Keeps.ite | dsimp only | split

theorem State.applyLine_keeps [Kept R] [KRegs R] [KChan R] [KBank R] {s x : State} (hk :
    R s x) {b} {l} {op} {v} :
    R s (State.applyLine x b l op v) := by
  unfold State.applyLine
  with_reducible repeat' first
    | exact hk | apply Keeps.refl | apply State.applyVec_keeps | apply State.openRep_keeps | intro _ | apply Keeps.ite
    | dsimp only | split

theorem State.runLine_keeps [Kept R] [KRegs R] [KFrc R] [KStaged R] [KLed R] [KChan R] [KBank R] [KPmc R] [KRt R] {s x :
    State} (hk :
    R s x) {b} {op} {vs} {after : State → Nat → State} (hafter : ∀ t y, R t (after t y)) :
    R s (State.runLine x b op vs after) := by
  unfold State.runLine
  with_reducible repeat' first
    | exact hk | apply Keeps.refl | apply State.enterLine_keeps | apply State.applyLine_keeps
    | apply State.bankAdvance_keeps | apply State.updBk_keeps | apply State.fetch_keeps | apply State.lineErr_keeps
    | apply Keeps.foldl | apply Keeps.foldlP | intro _ | apply Keeps.ite | dsimp only | split
    | refine Keeps.trans ?_ (hafter _ _)

theorem State.setStack_keeps [Kept R] [KRegs R] [KBank R] {s x : State} (hk :
    R s x) {b} {st} :
    R s (State.setStack x b st) := by
  unfold State.setStack
  with_reducible repeat' first
    | exact hk | apply Keeps.refl | apply State.fset_keeps | apply State.updBk_keeps | intro _ | apply Keeps.ite
    | dsimp only | split

theorem State.afterLset_keeps [Kept R] [KRegs R] [KBank R] {s x : State} (hk :
    R s x) {b} {l} :
    R s (State.afterLset x b l) := by
  unfold State.afterLset
  with_reducible repeat' first
    | exact hk | apply Keeps.refl | apply State.fset_keeps | apply State.toLine_keeps | intro _ | apply Keeps.ite
    | dsimp only | split

theorem State.afterLoop_keeps [Kept R] [KRegs R] [KBank R] {s x : State} (hk :
    R s x) {b} {l} :
    R s (State.afterLoop x b l) := by
  unfold State.afterLoop
  with_reducible repeat' first
    | exact hk | apply Keeps.refl | apply State.fset_keeps | apply State.toLine_keeps | intro _ | apply Keeps.ite
    | dsimp only | split

theorem State.afterFlag_keeps [Kept R] [KRegs R] [KStaged R] [KBank R] {s x : State} (hk :
    R s x) {b} {l} {w} :
    R s (State.afterFlag x b l w) := by
  unfold State.afterFlag
  with_reducible repeat' first
    | exact hk | apply Keeps.refl | apply State.stage_keeps | apply State.toLine_keeps | apply State.toWait_keeps
    | apply State.cond_keeps | intro _ | apply Keeps.ite | dsimp only | split

theorem State.afterWtick_keeps [Kept R] [KRegs R] [KBank R] {s x : State} (hk :
    R s x) {b} {l} :
    R s (State.afterWtick x b l) := by
  unfold State.afterWtick
  with_reducible repeat' first
    | exact hk | apply Keeps.refl | apply State.toWait_keeps | intro _ | apply Keeps.ite | dsimp only | split

theorem State.afterMloop_keeps [Kept R] [KRegs R] [KBank R] {s x : State} (hk :
    R s x) {b} {l} :
    R s (State.afterMloop x b l) := by
  unfold State.afterMloop
  with_reducible repeat' first
    | exact hk | apply Keeps.refl | apply State.toLine_keeps | apply State.toWait_keeps | intro _ | apply Keeps.ite
    | dsimp only | split

theorem State.afterWreg_keeps [Kept R] [KRegs R] [KBank R] {s x : State} (hk :
    R s x) {b} {l} :
    R s (State.afterWreg x b l) := by
  unfold State.afterWreg
  with_reducible repeat' first
    | exact hk | apply Keeps.refl | apply State.toLine_keeps | apply State.toWait_keeps | apply State.updBk_keeps
    | intro _ | apply Keeps.ite | dsimp only | split

theorem State.afterHalt_keeps [Kept R] [KBank R] {s x : State} (hk : R s x) {b} : R s (State.afterHalt x b) := by
  unfold State.afterHalt
  with_reducible repeat' first
    | exact hk | apply Keeps.refl | apply State.updBk_keeps | intro _ | apply Keeps.ite | dsimp only | split

theorem State.holdTick_keeps [Kept R] [KRegs R] [KBank R] {s x : State} (hk : R s x) {b} : R s (State.holdTick x b) := by
  unfold State.holdTick
  with_reducible repeat' first
    | exact hk | apply Keeps.refl | apply State.fset_keeps | apply State.updBk_keeps | apply State.cond_keeps | intro _
    | apply Keeps.ite | dsimp only | split

theorem State.seqTick_keeps [Kept R] [KRegs R] [KFrc R] [KStaged R] [KLed R] [KChan R] [KBank R] [KPmc R] [KRt R] {s x :
    State} (hk :
    R s x) :
    R s (State.seqTick x) := by
  unfold State.seqTick
  with_reducible repeat' first
    | exact hk | apply Keeps.refl | apply State.bankAdvance_keeps | apply State.holdTick_keeps | apply State.upTo_keeps
    | intro _ | apply Keeps.ite | dsimp only | split

theorem State.seqGoNow_keeps [Kept R] [KRegs R] [KBank R] {s x : State} (hk :
    R s x) {b} {cond} {flag} {addr} :
    R s (State.seqGoNow x b cond flag addr) := by
  unfold State.seqGoNow
  with_reducible repeat' first
    | exact hk | apply Keeps.refl | apply State.setSeq_keeps | apply State.fset_keeps | apply State.raiseIf_keeps
    | apply State.updBk_keeps | apply State.raiseF_keeps | intro _ | apply Keeps.ite | dsimp only | split

theorem State.seqStopNow_keeps [Kept R] [KRegs R] [KFrc R] [KStaged R] [KLed R] [KBank R] [KPmc R] [KRt R] {s x : State} (hk
    :
    R s x) {b} :
    R s (State.seqStopNow x b) := by
  unfold State.seqStopNow
  with_reducible repeat' first
    | exact hk | apply Keeps.refl | apply State.eventT_keeps | apply State.updBk_keeps | apply State.seqHalt_keeps
    | apply State.lineErr_keeps | apply State.handLast_keeps | intro _ | apply Keeps.ite | dsimp only | split

theorem State.seqStart_keeps [Kept R] [KRegs R] [KBank R] {s x : State} (hk : R s x) {b} : R s (State.seqStart x b) := by
  unfold State.seqStart
  with_reducible repeat' first
    | exact hk | apply Keeps.refl | apply State.setSeq_keeps | apply State.fset_keeps | apply State.wr_keeps
    | apply State.updBk_keeps | apply State.setStack_keeps | apply State.upTo_keeps | intro _ | apply Keeps.ite
    | dsimp only | split

theorem State.seqCheck_keeps [Kept R] [KRegs R] [KFrc R] [KMem R] [KStaged R] [KLed R] [KChan R] [KBank R] [KPmc R] [KSrc R]
    [KAe R] [KIsl R] [KSea R] [KUnit R] [KRt R] [KFree R] {s x : State} (hk :
    R s x) {b} :
    R s (State.seqCheck x b) := by
  unfold State.seqCheck
  with_reducible repeat' first
    | exact hk | apply Keeps.refl | apply State.errHaltNow_keeps | apply State.updBk_keeps | apply State.lineErr_keeps
    | intro _ | apply Keeps.ite | dsimp only | split

theorem State.wregAsk_keeps [Kept R] [KRegs R] [KStaged R] [KLed R] [KBank R] {s x : State} (hk :
    R s x) {b} :
    R s (State.wregAsk x b) := by
  unfold State.wregAsk
  with_reducible repeat' first
    | exact hk | apply Keeps.refl | apply State.askEff_keeps | apply State.updBk_keeps | apply State.request_keeps
    | apply State.cond_keeps | apply State.fbit_keeps | apply Keeps.foldl | apply Keeps.foldlP | intro _ | apply Keeps.ite
    | dsimp only | split

theorem State.writeVecPeriod_keeps [Kept R] [KRegs R] [KStaged R] [KLed R] {s x : State} (hk :
    R s x) {b} {w} :
    R s (State.writeVecPeriod x b w) := by
  unfold State.writeVecPeriod
  with_reducible repeat' first
    | exact hk | apply Keeps.refl | apply State.gated_keeps | apply State.wr_keeps | apply State.inc_keeps
    | apply State.request_keeps | intro _ | apply Keeps.ite | dsimp only | split

theorem State.applyVecPeriod_keeps [Kept R] [KFrc R] [KLed R] {s x : State} (hk :
    R s x) {b} {v} :
    R s (State.applyVecPeriod x b v) := by
  unfold State.applyVecPeriod
  with_reducible repeat' first
    | exact hk | apply Keeps.refl | apply State.lower_keeps | apply State.each_keeps | apply State.setEff_keeps | intro _
    | apply Keeps.ite | dsimp only | split

theorem State.vmWrite_keeps [Kept R] [KRegs R] [KMem R] {s x : State} (hk :
    R s x) {b} {a} {v} :
    R s (State.vmWrite x b a v) := by
  unfold State.vmWrite
  with_reducible repeat' first
    | exact hk | apply Keeps.refl | apply State.gated_keeps | apply State.memWr_keeps | apply State.raiseF_keeps | intro _
    | apply Keeps.ite | dsimp only | split

theorem execVectorMemoryWrite_keeps [Kept R] [KRegs R] [KMem R] {s : State} {b} {line} {w} {val} :
    KeepsOut R s (execVectorMemoryWrite b line w val s) := by
  unfold execVectorMemoryWrite
  with_reducible repeat' first
    | apply KeepsOut.ok | apply KeepsOut.next | apply Keeps.refl | apply State.vmWrite_keeps | intro _ | apply Keeps.ite
    | dsimp only | split

theorem execNext_keeps [Kept R] [KRegs R] [KFrc R] [KStaged R] [KLed R] [KChan R] [KBank R] [KPmc R] [KRt R] {s : State} {b}
    {v} :
    KeepsOut R s (execNext b v s) := by
  unfold execNext
  with_reducible repeat' first
    | apply KeepsOut.ok | apply KeepsOut.next | apply Keeps.refl | apply State.runLine_keeps | apply State.toLine_keeps
    | intro _ | apply Keeps.ite | dsimp only | split

theorem execRept_keeps [Kept R] [KRegs R] [KFrc R] [KStaged R] [KLed R] [KChan R] [KBank R] [KPmc R] [KRt R] {s : State} {b}
    {vs} :
    KeepsOut R s (execRept b vs s) := by
  unfold execRept
  with_reducible repeat' first
    | apply KeepsOut.ok | apply KeepsOut.next | apply Keeps.refl | apply State.runLine_keeps | apply State.toLine_keeps
    | intro _ | apply Keeps.ite | dsimp only | split

theorem execJump_keeps [Kept R] [KRegs R] [KFrc R] [KStaged R] [KLed R] [KChan R] [KBank R] [KPmc R] [KRt R] {s : State} {b}
    {v} :
    KeepsOut R s (execJump b v s) := by
  unfold execJump
  with_reducible repeat' first
    | apply KeepsOut.ok | apply KeepsOut.next | apply Keeps.refl | apply State.runLine_keeps | apply State.toLine_keeps
    | intro _ | apply Keeps.ite | dsimp only | split

theorem execLset_keeps [Kept R] [KRegs R] [KFrc R] [KStaged R] [KLed R] [KChan R] [KBank R] [KPmc R] [KRt R] {s : State} {b}
    {v} :
    KeepsOut R s (execLset b v s) := by
  unfold execLset
  with_reducible repeat' first
    | apply KeepsOut.ok | apply KeepsOut.next | apply Keeps.refl | apply State.runLine_keeps | apply State.afterLset_keeps
    | intro _ | apply Keeps.ite | dsimp only | split

theorem execLoop_keeps [Kept R] [KRegs R] [KFrc R] [KStaged R] [KLed R] [KChan R] [KBank R] [KPmc R] [KRt R] {s : State} {b}
    {v} :
    KeepsOut R s (execLoop b v s) := by
  unfold execLoop
  with_reducible repeat' first
    | apply KeepsOut.ok | apply KeepsOut.next | apply Keeps.refl | apply State.runLine_keeps | apply State.afterLoop_keeps
    | intro _ | apply Keeps.ite | dsimp only | split

theorem execCall_keeps [Kept R] [KRegs R] [KFrc R] [KStaged R] [KLed R] [KChan R] [KBank R] [KPmc R] [KRt R] {s : State} {b}
    {v} :
    KeepsOut R s (execCall b v s) := by
  unfold execCall
  with_reducible repeat' first
    | apply KeepsOut.ok | apply KeepsOut.next | apply Keeps.refl | apply State.runLine_keeps | apply State.toLine_keeps
    | apply State.setStack_keeps | intro _ | apply Keeps.ite | dsimp only | split

theorem execRet_keeps [Kept R] [KRegs R] [KFrc R] [KStaged R] [KLed R] [KChan R] [KBank R] [KPmc R] [KRt R] {s : State} {b}
    {v} :
    KeepsOut R s (execRet b v s) := by
  unfold execRet
  with_reducible repeat' first
    | apply KeepsOut.ok | apply KeepsOut.next | apply Keeps.refl | apply State.runLine_keeps | apply State.toLine_keeps
    | apply State.setStack_keeps | intro _ | apply Keeps.ite | dsimp only | split

theorem execWflag_keeps [Kept R] [KRegs R] [KFrc R] [KStaged R] [KLed R] [KChan R] [KBank R] [KPmc R] [KRt R] {s : State}
    {b} {v} :
    KeepsOut R s (execWflag b v s) := by
  unfold execWflag
  with_reducible repeat' first
    | apply KeepsOut.ok | apply KeepsOut.next | apply Keeps.refl | apply State.runLine_keeps | apply State.afterFlag_keeps
    | intro _ | apply Keeps.ite | dsimp only | split

theorem execWtick_keeps [Kept R] [KRegs R] [KFrc R] [KStaged R] [KLed R] [KChan R] [KBank R] [KPmc R] [KRt R] {s : State}
    {b} {v} :
    KeepsOut R s (execWtick b v s) := by
  unfold execWtick
  with_reducible repeat' first
    | apply KeepsOut.ok | apply KeepsOut.next | apply Keeps.refl | apply State.runLine_keeps
    | apply State.afterWtick_keeps | intro _ | apply Keeps.ite | dsimp only | split

theorem execWtickExpiry_keeps [Kept R] [KRegs R] [KBank R] {s : State} {b} : KeepsOut R s (execWtickExpiry b s) := by
  unfold execWtickExpiry
  with_reducible repeat' first
    | apply KeepsOut.ok | apply KeepsOut.next | apply Keeps.refl | apply State.setSeq_keeps | apply State.updBk_keeps
    | intro _ | apply Keeps.ite | dsimp only | split

theorem execSeason_keeps [Kept R] [KRegs R] [KFrc R] [KStaged R] [KLed R] [KChan R] [KBank R] [KPmc R] [KRt R] {s : State}
    {b} {v} :
    KeepsOut R s (execSeason b v s) := by
  unfold execSeason
  with_reducible repeat' first
    | apply KeepsOut.ok | apply KeepsOut.next | apply Keeps.refl | apply State.runLine_keeps | apply State.toLine_keeps
    | apply State.stageNext_keeps | intro _ | apply Keeps.ite | dsimp only | split

theorem execMloop_keeps [Kept R] [KRegs R] [KFrc R] [KStaged R] [KLed R] [KChan R] [KBank R] [KPmc R] [KRt R] {s : State}
    {b} {v} :
    KeepsOut R s (execMloop b v s) := by
  unfold execMloop
  with_reducible repeat' first
    | apply KeepsOut.ok | apply KeepsOut.next | apply Keeps.refl | apply State.afterMloop_keeps
    | apply State.runLine_keeps | intro _ | apply Keeps.ite | dsimp only | split

theorem execHand_keeps [Kept R] [KRegs R] [KFrc R] [KStaged R] [KLed R] [KChan R] [KBank R] [KPmc R] [KRt R] {s : State} {b}
    {v} :
    KeepsOut R s (execHand b v s) := by
  unfold execHand
  with_reducible repeat' first
    | apply KeepsOut.ok | apply KeepsOut.next | apply Keeps.refl | apply State.runLine_keeps | apply State.afterFlag_keeps
    | intro _ | apply Keeps.ite | dsimp only | split

theorem execWreg_keeps [Kept R] [KRegs R] [KFrc R] [KStaged R] [KLed R] [KChan R] [KBank R] [KPmc R] [KRt R] {s : State} {b}
    {v} :
    KeepsOut R s (execWreg b v s) := by
  unfold execWreg
  with_reducible repeat' first
    | apply KeepsOut.ok | apply KeepsOut.next | apply Keeps.refl | apply State.runLine_keeps | apply State.afterWreg_keeps
    | intro _ | apply Keeps.ite | dsimp only | split

theorem execHalt_keeps [Kept R] [KRegs R] [KFrc R] [KStaged R] [KLed R] [KChan R] [KBank R] [KPmc R] [KRt R] {s : State} {b}
    {v} :
    KeepsOut R s (execHalt b v s) := by
  unfold execHalt
  with_reducible repeat' first
    | apply KeepsOut.ok | apply KeepsOut.next | apply Keeps.refl | apply State.runLine_keeps | apply State.afterHalt_keeps
    | intro _ | apply Keeps.ite | dsimp only | split

theorem execIllegalOp_keeps [Kept R] [KRegs R] [KFrc R] [KStaged R] [KLed R] [KChan R] [KBank R] [KPmc R] [KRt R] {s :
    State} {b} :
    KeepsOut R s (execIllegalOp b s) := by
  unfold execIllegalOp
  have h : R s (s.bankAdvance b.val (max (s.bk b.val).endAt s.clk.start)) := State.bankAdvance_keeps Keeps.refl
  dsimp only
  split
  · split
    · exact KeepsOut.next (State.lineErr_keeps (State.updBk_keeps h))
    · exact KeepsOut.next h
  · exact KeepsOut.next h

theorem execRawCrossing_keeps [Kept R] [KRegs R] [KFrc R] [KStaged R] [KLed R] [KChan R] [KBank R] [KPmc R] [KAe R] [KSea R]
    [KRt R] {s : State} {c} {level} {fine} {discarded} :
    KeepsOut R s (execRawCrossing c level fine discarded s) := by
  unfold execRawCrossing
  with_reducible repeat' first
    | apply KeepsOut.ok | apply KeepsOut.next | apply Keeps.refl | apply State.bankAdvance_keeps
    | apply State.rawCrossing_keeps | intro _ | apply Keeps.ite | dsimp only | split

theorem execSeqGo_keeps [Kept R] [KRegs R] [KBank R] {s : State} {b} {cond} {flag} {addr} :
    KeepsOut R s (execSeqGo b cond flag addr s) := by
  unfold execSeqGo
  with_reducible repeat' first
    | apply KeepsOut.ok | apply KeepsOut.next | apply Keeps.refl | apply State.seqGoNow_keeps | intro _ | apply Keeps.ite
    | dsimp only | split

theorem execSeqStop_keeps [Kept R] [KRegs R] [KFrc R] [KStaged R] [KLed R] [KBank R] [KPmc R] [KRt R] {s : State} {b} :
    KeepsOut R s (execSeqStop b s) := by
  unfold execSeqStop
  with_reducible repeat' first
    | apply KeepsOut.ok | apply KeepsOut.next | apply Keeps.refl | apply State.seqStopNow_keeps | intro _
    | apply Keeps.ite | dsimp only | split

theorem execSeqAbort_keeps [Kept R] [KRegs R] [KFrc R] [KMem R] [KStaged R] [KLed R] [KChan R] [KBank R] [KPmc R] [KSrc R]
    [KAe R] [KIsl R] [KSea R] [KUnit R] [KRt R] [KFree R] {s : State} {b} :
    KeepsOut R s (execSeqAbort b s) := by
  unfold execSeqAbort
  with_reducible repeat' first
    | apply KeepsOut.ok | apply KeepsOut.next | apply Keeps.refl | apply State.abortNow_keeps | intro _ | apply Keeps.ite
    | dsimp only | split

theorem execSequencerStart_keeps [Kept R] [KRegs R] [KBank R] {s : State} {b} : KeepsOut R s (execSequencerStart b s) := by
  unfold execSequencerStart
  with_reducible repeat' first
    | apply KeepsOut.ok | apply KeepsOut.next | apply Keeps.refl | apply State.seqStart_keeps | intro _ | apply Keeps.ite
    | dsimp only | split

theorem execVecPeriodWrite_keeps [Kept R] [KRegs R] [KStaged R] [KLed R] {s : State} {b} {w} :
    KeepsOut R s (execVecPeriodWrite b w s) := by
  unfold execVecPeriodWrite
  with_reducible repeat' first
    | apply KeepsOut.ok | apply KeepsOut.next | apply Keeps.refl | apply State.writeVecPeriod_keeps | intro _
    | apply Keeps.ite | dsimp only | split

end Sys2Proof.Machine
end

