-- ==== Sys2Proof/Laws/KeepsAlmanac.lean ====
section
/-! SUPPORT. `Keeps` of the operations of Machine/Almanac.lean. -/

namespace Sys2Proof.Machine

variable {R : State → State → Prop}

theorem State.showVerr_keeps [Kept R] [KRegs R] {s x : State} (hk : R s x) {x1} : R s (State.showVerr x x1) := by
  unfold State.showVerr
  with_reducible repeat' first
    | exact hk | apply Keeps.refl | apply State.fset_keeps | intro _ | apply Keeps.ite | dsimp only | split

theorem State.pendItem_keeps [Kept R] [KRegs R] [KSrc R] [KAe R] {s x : State} (hk :
    R s x) {a} :
    R s (State.pendItem x a) := by
  unfold State.pendItem
  with_reducible repeat' first
    | exact hk | apply Keeps.refl | apply State.updEn_keeps | apply State.updSr_keeps | apply State.fset_keeps | intro _
    | apply Keeps.ite | dsimp only | split

theorem State.requestItems_keeps [Kept R] [KRegs R] [KLed R] [KBank R] [KSrc R] [KAe R] [KAlm R] {s x : State} (hk :
    R s x) {t} :
    R s (State.requestItems x t) := by
  unfold State.requestItems
  with_reducible repeat' first
    | exact hk | apply Keeps.refl | apply State.updAlm_keeps | apply State.requestList_keeps | apply State.updBk_keeps
    | apply State.pendItem_keeps | apply State.cond_keeps | apply Keeps.foldl | apply Keeps.foldlP
    | exact .of (fun _ => rfl) (fun _ => rfl) (fun _ => rfl) | intro _ | apply Keeps.ite | dsimp only | split

theorem State.goNow_keeps [Kept R] [KRegs R] [KBank R] [KAe R] [KRt R] {s x : State} (hk :
    R s x) {g} :
    R s (State.goNow x g) := by
  unfold State.goNow
  with_reducible repeat' first
    | exact hk | apply Keeps.refl | apply State.pmcGo_keeps | apply State.aeGoNow_keeps | apply State.playGo_keeps
    | apply State.seqGoNow_keeps | intro _ | apply Keeps.ite | dsimp only | split

theorem State.goAll_keeps [Kept R] [KRegs R] [KBank R] [KAe R] [KAlm R] [KRt R] {s x : State} (hk :
    R s x) {p} :
    R s (State.goAll x p) := by
  unfold State.goAll
  with_reducible repeat' first
    | exact hk | apply Keeps.refl | apply State.updAlm_keeps | apply State.goNow_keeps | apply Keeps.foldl
    | apply Keeps.foldlP | exact .of (fun _ => rfl) (fun _ => rfl) (fun _ => rfl) | intro _ | apply Keeps.ite | dsimp only
    | split

theorem State.followRange_keeps [Kept R] [KRegs R] {s x : State} (hk : R s x) {a} {v} : R s (State.followRange x a v) := by
  unfold State.followRange
  with_reducible repeat' first
    | exact hk | apply Keeps.refl | apply State.fset_keeps | apply State.fbit_keeps | intro _ | apply Keeps.ite
    | dsimp only | split

theorem State.loadWord_keeps [Kept R] [KRegs R] [KFrc R] [KMem R] [KStaged R] [KLed R] [KChan R] [KPmc R] [KSrc R] [KAe R]
    [KIsl R] [KClk R] [KSea R] [KCal R] [KAlm R] [KRt R] {s x : State} (hk :
    R s x) {t} {a} {v} :
    R s (State.loadWord x t a v) := by
  unfold State.loadWord
  with_reducible repeat' first
    | exact hk | apply Keeps.refl | apply State.updAlm_keeps | apply State.applyTslot_keeps | apply State.wr_keeps
    | apply State.followRange_keeps | apply State.memWr_keeps | apply State.writeEpact_keeps | apply State.toC9_keeps
    | apply State.putBoth_keeps | apply State.writeLeap_keeps | exact .of (fun _ => rfl) (fun _ => rfl) (fun _ => rfl)
    | intro _ | apply Keeps.ite | dsimp only | split

theorem State.loadSeg_keeps [Kept R] [KRegs R] [KFrc R] [KMem R] [KStaged R] [KLed R] [KChan R] [KPmc R] [KSrc R] [KAe R]
    [KIsl R] [KClk R] [KSea R] [KCal R] [KAlm R] [KRt R] {s x : State} (hk :
    R s x) {a} :
    R s (State.loadSeg x a) := by
  unfold State.loadSeg
  with_reducible repeat' first
    | exact hk | apply Keeps.refl | apply State.updAlm_keeps | apply State.loadWord_keeps | apply Keeps.foldl
    | apply Keeps.foldlP | exact .of (fun _ => rfl) (fun _ => rfl) (fun _ => rfl) | intro _ | apply Keeps.ite | dsimp only
    | split

theorem State.loadSegs_keeps [Kept R] [KRegs R] [KFrc R] [KMem R] [KStaged R] [KLed R] [KChan R] [KPmc R] [KSrc R] [KAe R]
    [KIsl R] [KClk R] [KSea R] [KCal R] [KAlm R] [KRt R] {s x : State} (hk :
    R s x) {f} {skip} {slot} {a} {a5} :
    R s (State.loadSegs x f skip slot a a5).1 := by
  induction a generalizing x a5 with
  | nil => unfold State.loadSegs; exact hk
  | cons a l ih =>
    unfold State.loadSegs
    with_reducible repeat' first
      | exact hk | apply ih | apply State.loadSeg_keeps | apply Keeps.ite | dsimp only | split

theorem State.unload_keeps [Kept R] [KRegs R] [KFrc R] [KMem R] [KIsl R] [KCal R] [KAlm R] {s x : State} (hk :
    R s x) {n} :
    R s (State.unload x n) := by
  unfold State.unload
  with_reducible repeat' first
    | exact hk | apply Keeps.refl | apply State.memDrop_keeps | apply State.updAlm_keeps | apply State.wr_keeps
    | apply State.each_keeps | apply State.updCal_keeps | apply State.cond_keeps | apply State.toC9_keeps
    | apply State.putBoth_keeps | apply State.setEff_keeps | exact .of (fun _ => rfl) (fun _ => rfl) (fun _ => rfl)
    | exact fun _ => Cal.wf_of rfl rfl | intro _ | apply Keeps.ite | dsimp only | split

theorem State.almFault_keeps [Kept R] [KRegs R] {s x : State} (hk : R s x) : R s (State.almFault x) := by
  unfold State.almFault
  with_reducible repeat' first
    | exact hk | apply Keeps.refl | apply State.raiseF_keeps | intro _ | apply Keeps.ite | dsimp only | split

theorem State.noSlot_keeps [Kept R] [KRegs R] {s x : State} (hk : R s x) : R s (State.noSlot x) := by
  unfold State.noSlot
  with_reducible repeat' first
    | exact hk | apply Keeps.refl | apply State.almFault_keeps | apply State.fset_keeps | intro _ | apply Keeps.ite
    | dsimp only | split

theorem State.refreshWritable_keeps [Kept R] [KRegs R] {s x : State} (hk : R s x) : R s (State.refreshWritable x) := by
  unfold State.refreshWritable
  with_reducible repeat' first
    | exact hk | apply Keeps.refl | apply State.fset_keeps | intro _ | apply Keeps.ite | dsimp only | split

theorem State.loadSlots_keeps [Kept R] [KRegs R] [KFrc R] [KMem R] [KStaged R] [KLed R] [KChan R] [KPmc R] [KSrc R] [KAe R]
    [KIsl R] [KClk R] [KSea R] [KCal R] [KAlm R] [KRt R] {s x : State} (hk :
    R s x) {f} {skip} {first} {a} :
    R s (State.loadSlots x f skip first a) := by
  induction a generalizing x first with
  | nil => unfold State.loadSlots; exact State.noSlot_keeps hk
  | cons slot l ih =>
    unfold State.loadSlots
    with_reducible repeat' first
      | exact hk | apply Keeps.refl | apply ih | apply State.noSlot_keeps | apply State.unload_keeps | apply State.almFault_keeps
      | apply State.raiseF_keeps | apply State.fset_keeps | apply State.cond_keeps | apply State.loadSegs_keeps | intro _
      | apply Keeps.ite | dsimp only | split

theorem State.loadAlmanac_keeps [Kept R] [KRegs R] [KFrc R] [KMem R] [KStaged R] [KLed R] [KChan R] [KPmc R] [KSrc R] [KAe
    R] [KIsl R] [KClk R] [KSea R] [KCal R] [KAlm R] [KRt R] {s x : State} (hk :
    R s x) {f} {skip} :
    R s (State.loadAlmanac x f skip) := by
  unfold State.loadAlmanac
  with_reducible repeat' first
    | exact hk | apply Keeps.refl | apply State.refreshWeak_keeps | apply State.refreshWritable_keeps
    | apply State.refreshInvert_keeps | apply State.noSlot_keeps | apply State.loadSlots_keeps | apply State.fbit_keeps
    | apply State.upTo_keeps | intro _ | apply Keeps.ite | dsimp only | split

theorem State.showLoader_keeps [Kept R] [KRegs R] {s x : State} (hk : R s x) : R s (State.showLoader x) := by
  unfold State.showLoader
  with_reducible repeat' first
    | exact hk | apply Keeps.refl | apply State.fset_keeps | apply State.fbit_keeps | intro _ | apply Keeps.ite
    | dsimp only | split

theorem State.dropRequests_keeps [Kept R] [KLed R] {s x : State} (hk : R s x) {t} : R s (State.dropRequests x t) := by
  unfold State.dropRequests
  with_reducible repeat' first
    | exact hk | apply Keeps.refl | apply State.updLed_keeps | intro _ | apply Keeps.ite | dsimp only | split

theorem State.reloadBank0_keeps [Kept R] [KRegs R] [KFrc R] [KMem R] [KStaged R] [KLed R] [KChan R] [KBank R] [KPmc R] [KSrc
    R] [KAe R] [KIsl R] [KSea R] [KUnit R] [KCal R] [KRt R] [KFree R] {s x : State} (hk :
    R s x) {b} :
    R s (State.reloadBank0 x b) := by
  unfold State.reloadBank0
  with_reducible repeat' first
    | exact hk | apply Keeps.refl | apply State.fset_keeps | apply State.srcOffNow_keeps | apply State.calAbort_keeps
    | apply State.aeOffNow_keeps | apply State.moveBank_keeps | apply State.pmcBankStop_keeps
    | apply State.dropRequests_keeps | apply State.dropBankRequests_keeps | apply State.each_keeps
    | apply State.updBk_keeps | apply State.setStack_keeps | apply State.cond_keeps | apply State.unstage_keeps
    | apply State.seqCut_keeps | apply State.upTo_keeps | apply State.holdChan_keeps | intro _ | apply Keeps.ite
    | dsimp only | split

theorem State.reloadRouter0_keeps [Kept R] [KStaged R] [KLed R] [KRt R] {s x : State} (hk :
    R s x) :
    R s (State.reloadRouter0 x) := by
  unfold State.reloadRouter0
  with_reducible repeat' first
    | exact hk | apply Keeps.refl | apply State.withdrawIf_keeps | apply State.dropRequests_keeps
    | apply State.updRt_keeps | apply State.unstage_keeps | exact fun _ => Router.wf_of rfl | intro _ | apply Keeps.ite
    | dsimp only | split

theorem State.reloadRf0_keeps [Kept R] [KRegs R] [KFrc R] [KStaged R] [KLed R] [KChan R] [KPmc R] [KSrc R] [KAe R] [KPort R]
    [KSyn R] [KUnit R] [KCal R] [KRt R] [KRf R] {s x : State} (hk :
    R s x) :
    R s (State.reloadRf0 x) := by
  unfold State.reloadRf0
  with_reducible repeat' first
    | exact hk | apply Keeps.refl | apply State.refreshSyn_keeps | apply State.setRfReload_keeps | apply State.fset_keeps
    | apply State.calAbort_keeps | apply State.portTick_keeps | apply State.dropRequests_keeps | apply State.rxEnd_keeps
    | apply State.cond_keeps | apply State.refreshRfreq_keeps | apply State.synFree_keeps | apply State.updRt_keeps
    | apply State.unstage_keeps | apply State.upTo_keeps | exact fun _ => Router.wf_of rfl | intro _ | apply Keeps.ite
    | dsimp only | split

theorem State.reloadAt_keeps [Kept R] [KRegs R] [KFrc R] [KMem R] [KStaged R] [KLed R] [KChan R] [KBank R] [KPmc R] [KSrc R]
    [KAe R] [KPort R] [KSyn R] [KIsl R] [KSea R] [KUnit R] [KCal R] [KAlm R] [KRt R] [KRf R] [KFree R] {s x : State} (hk :
    R s x) {t} :
    R s (State.reloadAt x t) := by
  unfold State.reloadAt
  with_reducible repeat' first
    | exact hk | apply Keeps.refl | apply State.updAlm_keeps | apply State.reloadBank0_keeps | apply State.reloadRf0_keeps
    | apply State.raiseF_keeps | apply State.reloadRouter0_keeps | apply State.showLoader_keeps
    | exact .of (fun _ => rfl) (fun _ => rfl) (fun _ => rfl) | intro _ | apply Keeps.ite | dsimp only | split

theorem State.fallbackOk_keeps [Kept R] [KRegs R] {s x : State} (hk : R s x) {slot} : R s (State.fallbackOk x slot).1 := by
  unfold State.fallbackOk
  with_reducible repeat' first
    | exact hk | apply Keeps.refl | apply State.showVerr_keeps | apply State.fset_keeps | intro _ | apply Keeps.ite
    | dsimp only | split

theorem Alm.fillWord_calm (t : Nat) (p : Nat × Word) : Alm.Calm (fun k => k.fillWord t p) := by
  constructor
  · intro k
    unfold Alm.fillWord Alm.enables
    dsimp only
    split <;> (try split) <;> rfl
  · intro k h
    unfold Alm.fillWord
    rw [Alm.wf_iff] at h
    dsimp only
    split
    · exact (Alm.wf_iff _).mpr ⟨h.1, h.2.1, Tab.wf_set _ _ _ _ h.2.2⟩
    · exact (Alm.wf_iff _).mpr ⟨h.1, h.2.1, Tab.wf_set _ _ _ _ h.2.2⟩
    · exact (Alm.wf_iff _).mpr h
    · split
      · exact (Alm.wf_iff _).mpr h
      · exact (Alm.wf_iff _).mpr ⟨h.1, h.2.1, Tab.wf_set _ _ _ _ h.2.2⟩

theorem State.fillFrom_keeps [Kept R] [KAlm R] {s x : State} (hk : R s x) {t} {a} : R s (State.fillFrom x t a) := by
  unfold State.fillFrom
  dsimp only
  have h0 : ∀ (t : Nat) (l : List (Nat × Word)) (k : Alm), (l.foldl (fun k p => k.fillWord t p) k).flash = k.flash
      ∧ (k.wf = true → (l.foldl (fun k p => k.fillWord t p) k).wf = true) := by
    intro t l
    induction l with
    | nil => exact fun k => ⟨rfl, id⟩
    | cons p l ih =>
      intro k
      have h1 := Alm.fillWord_calm t p
      exact ⟨(ih _).1.trans (h1.flash k), fun h => (ih _).2 (h1.wf k h)⟩
  exact State.updAlm_keeps hk ⟨fun k => (h0 _ _ _).1, fun k h => (h0 _ _ _).2 (Alm.wf_of rfl rfl rfl h)⟩

theorem State.spoil_keeps [Kept R] [KFlash R] [KFree R] {s x : State} (hk : R s x) {a} {n} : R s (State.spoil x a n) := by
  unfold State.spoil
  with_reducible repeat' first
    | exact hk | apply Keeps.refl | apply State.fPut_keeps | apply State.freshN_keeps | apply State.upTo_keeps | intro _
    | apply Keeps.ite | dsimp only | split

theorem State.slotTouched_keeps [Kept R] [KRegs R] [KAlm R] {s x : State} (hk :
    R s x) {slot} :
    R s (State.slotTouched x slot) := by
  unfold State.slotTouched
  with_reducible repeat' first
    | exact hk | apply Keeps.refl | apply State.updAlm_keeps | apply State.fset_keeps | apply State.cond_keeps
    | exact .of (fun _ => rfl) (fun _ => rfl) (fun _ => rfl) | intro _ | apply Keeps.ite | dsimp only | split

theorem State.abandonOp_keeps [Kept R] [KRegs R] [KFlash R] [KAlm R] [KFree R] {s x : State} (hk :
    R s x) :
    R s (State.abandonOp x) := by
  unfold State.abandonOp
  with_reducible repeat' first
    | exact hk | apply Keeps.refl | apply State.updAlm_keeps | apply State.fset_keeps | apply State.slotTouched_keeps
    | apply State.spoil_keeps | apply State.raiseF_keeps | exact .of (fun _ => rfl) (fun _ => rfl) (fun _ => rfl)
    | intro _ | apply Keeps.ite | dsimp only | split

theorem State.reloadBegin_keeps [Kept R] [KRegs R] [KFlash R] [KAlm R] [KFree R] {s x : State} (hk :
    R s x) {f} :
    R s (State.reloadBegin x f) := by
  unfold State.reloadBegin
  have h1 : ∀ {x : State}, R s x → ∀ (f : Alm → Alm), (∀ k, (f k).flash = k.flash) → (∀ k, (f k).buf = k.buf)
      → (∀ k, (f k).fill = [] ∨ (f k).fill = k.fill) → R s (x.updAlm f) := fun hx f a b c => by
    refine State.updAlm_keeps hx ⟨a, fun k h => ?_⟩
    rw [Alm.wf_iff] at *
    rw [a, b]
    refine ⟨h.1, h.2.1, ?_⟩
    rcases c k with e | e <;> rw [e]
    · rfl
    · exact h.2.2
  with_reducible repeat' first
    | exact hk | apply Keeps.refl | apply State.almFault_keeps | apply State.showLoader_keeps | apply State.fset_keeps
    | apply State.raiseF_keeps | apply State.cond_keeps | apply State.fillFrom_keeps | apply State.abandonOp_keeps
    | apply State.fallbackOk_keeps
    | (refine h1 ?_ _ (fun _ => rfl) (fun _ => rfl) (fun _ => .inr rfl))
    | (refine h1 ?_ _ (fun _ => rfl) (fun _ => rfl) (fun _ => .inl rfl)) | intro _ | apply Keeps.ite | dsimp only | split

theorem State.reloadCommit_keeps [Kept R] [KRegs R] [KStaged R] [KLed R] [KBank R] [KSrc R] [KAe R] [KAlm R] {s x : State}
    (hk :
    R s x) :
    R s (State.reloadCommit x) := by
  unfold State.reloadCommit
  with_reducible repeat' first
    | exact hk | apply Keeps.refl | apply State.updAlm_keeps | apply State.stage_keeps | apply State.requestItems_keeps
    | exact .of (fun _ => rfl) (fun _ => rfl) (fun _ => rfl) | intro _ | apply Keeps.ite | dsimp only | split

theorem State.applyFill_keeps [Kept R] [KRegs R] [KFrc R] [KMem R] {s x : State} (hk :
    R s x) :
    R s (State.applyFill x) := by
  unfold State.applyFill
  with_reducible repeat' first
    | exact hk | apply Keeps.refl | apply State.wr_keeps | apply State.followRange_keeps | apply State.memWr_keeps
    | apply State.putBoth_keeps | apply Keeps.foldl | apply Keeps.foldlP | intro _ | apply Keeps.ite | dsimp only | split

theorem State.reloadBank_keeps [Kept R] [KRegs R] [KFrc R] [KMem R] [KStaged R] [KLed R] [KChan R] [KBank R] [KPmc R] [KSrc
    R] [KAe R] [KIsl R] [KSea R] [KUnit R] [KRt R] [KFree R] [KTarget R] {s x : State} (hk :
    R s x) {b} :
    R s (State.reloadBank x b) := by
  unfold State.reloadBank
  with_reducible repeat' first
    | exact hk | apply Keeps.refl | apply State.updEn_keeps | apply State.refreshWeak_keeps | apply State.updSr_keeps
    | apply State.bankPend_keeps | apply State.fset_keeps | apply State.moveBank_keeps | apply State.wr_keeps
    | apply State.refreshInvert_keeps | apply State.targetReset_keeps | apply State.each_keeps | apply State.updCh_keeps
    | apply State.applyFill_keeps | apply State.updBk_keeps | apply State.cond_keeps | apply State.setUncal_keeps
    | apply State.refreshPair_keeps | apply State.fbit_keeps | apply State.upTo_keeps | apply State.updPm_keeps | intro _
    | apply Keeps.ite | dsimp only | split

theorem State.reloadRouter_keeps [Kept R] [KRegs R] [KFrc R] [KMem R] [KRt R] [KTarget R] {s x : State} (hk :
    R s x) :
    R s (State.reloadRouter x) := by
  unfold State.reloadRouter
  with_reducible repeat' first
    | exact hk | apply Keeps.refl | apply State.timerStart_keeps | apply State.fset_keeps | apply State.targetReset_keeps
    | apply State.applyFill_keeps | apply State.cond_keeps | apply State.updRt_keeps | apply State.upTo_keeps
    | exact fun _ => Router.wf_of rfl | intro _ | apply Keeps.ite | dsimp only | split

theorem State.reloadRf_keeps [Kept R] [KRegs R] [KFrc R] [KMem R] [KPort R] [KSyn R] [KRf R] [KTarget R] {s x : State} (hk :
    R s x) :
    R s (State.reloadRf x) := by
  unfold State.reloadRf
  with_reducible repeat' first
    | exact hk | apply Keeps.refl | apply State.setRfReload_keeps | apply State.fset_keeps | apply State.updSy_keeps
    | apply State.wr_keeps | apply State.targetReset_keeps | apply State.applyFill_keeps | apply State.setUncal_keeps
    | apply State.upTo_keeps | apply State.updPt_keeps | intro _ | apply Keeps.ite | dsimp only | split

theorem State.reloadOver_keeps [Kept R] [KRegs R] [KFrc R] [KMem R] [KStaged R] [KLed R] [KChan R] [KBank R] [KPmc R] [KSrc
    R] [KAe R] [KPort R] [KSyn R] [KIsl R] [KSea R] [KUnit R] [KAlm R] [KRt R] [KRf R] [KFree R] [KTarget R] {s x : State}
    (hk :
    R s x) {t} :
    R s (State.reloadOver x t) := by
  unfold State.reloadOver
  have h1 : ∀ {x : State}, R s x → ∀ (f : Alm → Alm), (∀ k, (f k).flash = k.flash) → (∀ k, (f k).buf = k.buf)
      → (∀ k, (f k).fill = []) → R s (x.updAlm f) := fun hx f a b c =>
    State.updAlm_keeps hx ⟨a, fun k h => by
      rw [Alm.wf_iff] at *
      rw [a, b, c]
      exact ⟨h.1, h.2.1, rfl⟩⟩
  with_reducible repeat' first
    | exact hk | apply Keeps.refl | apply State.reloadRf_keeps | apply State.reloadRouter_keeps | apply State.reloadBank_keeps
    | apply State.almFault_keeps | apply State.showLoader_keeps | apply State.fset_keeps | apply State.raiseF_keeps
    | apply State.raiseIf_keeps | apply State.cond_keeps | apply State.fbit_keeps
    | (refine h1 ?_ _ (fun _ => rfl) (fun _ => rfl) (fun _ => rfl)) | intro _ | apply Keeps.ite | dsimp only | split

theorem State.nvmAddr_keeps [Kept R] [KRegs R] [KFrc R] [KAlm R] {s x : State} (hk :
    R s x) {v} :
    R s (State.nvmAddr x v) := by
  unfold State.nvmAddr
  with_reducible repeat' first
    | exact hk | apply Keeps.refl | apply State.updAlm_keeps | apply State.putBoth_keeps
    | exact .of (fun _ => rfl) (fun _ => rfl) (fun _ => rfl) | intro _ | apply Keeps.ite | dsimp only | split

theorem State.nvmData_keeps [Kept R] [KAlm R] {s x : State} (hk : R s x) {val} : R s (State.nvmData x val).1 := by
  unfold State.nvmData
  dsimp only
  refine State.updAlm_keeps ?_ (.of (fun _ => rfl) (fun _ => rfl) (fun _ => rfl))
  split
  · refine State.updAlm_keeps hk ⟨fun _ => rfl, fun k h => ?_⟩
    rw [Alm.wf_iff] at *
    exact ⟨h.1, Tab.wf_foldl_set _ _ _ _ _ h.2.1, h.2.2⟩
  · exact hk

theorem State.nvmRefuse_keeps [Kept R] [KRegs R] {s x : State} (hk : R s x) : R s (State.nvmRefuse x) := by
  unfold State.nvmRefuse
  with_reducible repeat' first
    | exact hk | apply Keeps.refl | apply State.raiseF_keeps | intro _ | apply Keeps.ite | dsimp only | split

theorem State.nvmCommand_keeps [Kept R] [KRegs R] [KAlm R] {s x : State} (hk :
    R s x) {op} {good} {f : State → State} (hf : ∀ t, R t (f t)) :
    R s (State.nvmCommand x op good f) := by
  unfold State.nvmCommand
  with_reducible repeat' first
    | exact hk | apply Keeps.refl | apply State.updAlm_keeps | apply State.fset_keeps | apply State.nvmRefuse_keeps
    | exact .of (fun _ => rfl) (fun _ => rfl) (fun _ => rfl) | intro _ | apply Keeps.ite | dsimp only | split
    | refine Keeps.trans ?_ (hf _)

theorem State.nvmRun_keeps [Kept R] [KRegs R] [KAlm R] {s x : State} (hk : R s x) {op} : R s (State.nvmRun x op) := by
  unfold State.nvmRun
  with_reducible repeat' first
    | exact hk | apply Keeps.refl | apply State.updAlm_keeps | apply State.fset_keeps
    | exact .of (fun _ => rfl) (fun _ => rfl) (fun _ => rfl) | intro _ | apply Keeps.ite | dsimp only | split

theorem State.nvmReadNow_keeps [Kept R] [KAlm R] {s x : State} (hk : R s x) {a} : R s (State.nvmReadNow x a) := by
  unfold State.nvmReadNow
  refine State.updAlm_keeps hk ⟨fun _ => rfl, fun k h => ?_⟩
  rw [Alm.wf_iff] at *
  refine ⟨h.1, ?_, h.2.2⟩
  generalize List.range 256 = l
  exact Tab.wf_foldl_set _ l (fun i => i) _ _ h.2.1

theorem State.nvmVerifyNow_keeps [Kept R] [KRegs R] [KAlm R] {s x : State} (hk :
    R s x) {slot} :
    R s (State.nvmVerifyNow x slot) := by
  unfold State.nvmVerifyNow
  with_reducible repeat' first
    | exact hk | apply Keeps.refl | apply State.showVerr_keeps | apply State.updAlm_keeps | apply State.fset_keeps
    | apply State.raiseF_keeps | exact .of (fun _ => rfl) (fun _ => rfl) (fun _ => rfl) | intro _ | apply Keeps.ite
    | dsimp only | split

theorem State.nvmRead_keeps [Kept R] [KRegs R] [KAlm R] {s x : State} (hk : R s x) : R s (State.nvmRead x) := by
  unfold State.nvmRead
  with_reducible repeat' first
    | exact hk | apply Keeps.refl | apply State.nvmCommand_keeps | apply State.nvmReadNow_keeps | apply State.nvmRun_keeps
    | intro _ | apply Keeps.ite | dsimp only | split

theorem State.nvmProgram_keeps [Kept R] [KRegs R] [KAlm R] {s x : State} (hk : R s x) : R s (State.nvmProgram x) := by
  unfold State.nvmProgram
  with_reducible repeat' first
    | exact hk | apply Keeps.refl | apply State.nvmCommand_keeps | apply State.slotTouched_keeps
    | apply State.nvmRun_keeps | intro _ | apply Keeps.ite | dsimp only | split

theorem State.nvmErase_keeps [Kept R] [KRegs R] [KAlm R] {s x : State} (hk : R s x) : R s (State.nvmErase x) := by
  unfold State.nvmErase
  with_reducible repeat' first
    | exact hk | apply Keeps.refl | apply State.nvmCommand_keeps | apply State.slotTouched_keeps
    | apply State.nvmRun_keeps | intro _ | apply Keeps.ite | dsimp only | split

theorem State.nvmVerify_keeps [Kept R] [KRegs R] [KAlm R] {s x : State} (hk : R s x) : R s (State.nvmVerify x) := by
  unfold State.nvmVerify
  with_reducible repeat' first
    | exact hk | apply Keeps.refl | apply State.nvmCommand_keeps | apply State.nvmVerifyNow_keeps
    | apply State.nvmRun_keeps | intro _ | apply Keeps.ite | dsimp only | split

theorem State.nvmActivate_keeps [Kept R] [KRegs R] [KAlm R] {s x : State} (hk :
    R s x) {actReload} :
    R s (State.nvmActivate x actReload) := by
  unfold State.nvmActivate
  with_reducible repeat' first
    | exact hk | apply Keeps.refl | apply State.updAlm_keeps | apply State.fset_keeps | apply State.nvmCommand_keeps
    | exact .of (fun _ => rfl) (fun _ => rfl) (fun _ => rfl) | intro _ | apply Keeps.ite | dsimp only | split

theorem State.nvmCancel_keeps [Kept R] [KRegs R] [KAlm R] {s x : State} (hk : R s x) : R s (State.nvmCancel x) := by
  unfold State.nvmCancel
  with_reducible repeat' first
    | exact hk | apply Keeps.refl | apply State.updAlm_keeps | apply State.fset_keeps | apply State.nvmCommand_keeps
    | exact .of (fun _ => rfl) (fun _ => rfl) (fun _ => rfl) | intro _ | apply Keeps.ite | dsimp only | split

theorem State.nvmCmd_keeps [Kept R] [KRegs R] [KAlm R] {s x : State} (hk : R s x) {v} : R s (State.nvmCmd x v) := by
  unfold State.nvmCmd
  with_reducible repeat' first
    | exact hk | apply Keeps.refl | apply State.nvmRead_keeps | apply State.nvmProgram_keeps | apply State.nvmErase_keeps
    | apply State.nvmVerify_keeps | apply State.nvmCancel_keeps | apply State.nvmActivate_keeps | intro _
    | apply Keeps.ite | dsimp only | split

theorem State.nvmDone_keeps [Kept R] [KRegs R] [KFlash R] [KAlm R] [KFree R] {s x : State} (hk :
    R s x) {good} :
    R s (State.nvmDone x good) := by
  unfold State.nvmDone
  with_reducible repeat' first
    | exact hk | apply Keeps.refl | apply State.updAlm_keeps | apply State.fset_keeps | apply State.fPut_keeps
    | apply State.spoil_keeps | apply State.nvmReadNow_keeps | apply State.raiseF_keeps | apply State.nvmVerifyNow_keeps
    | apply State.upTo_keeps | exact .of (fun _ => rfl) (fun _ => rfl) (fun _ => rfl) | intro _ | apply Keeps.ite
    | dsimp only | split

theorem State.activate_keeps [Kept R] [KRegs R] [KFrc R] [KMem R] [KStaged R] [KLed R] [KChan R] [KBank R] [KPmc R] [KSrc R]
    [KAe R] [KPort R] [KSyn R] [KIsl R] [KSea R] [KUnit R] [KCal R] [KAlm R] [KRt R] [KRf R] [KFree R] {s x : State} (hk :
    R s x) :
    R s (State.activate x) := by
  unfold State.activate
  with_reducible repeat' first
    | exact hk | apply Keeps.refl | apply State.updAlm_keeps | apply State.fset_keeps | apply State.refreshWritable_keeps
    | apply State.each_keeps | apply State.reloadAt_keeps | apply State.cond_keeps | apply State.fbit_keeps
    | exact .of (fun _ => rfl) (fun _ => rfl) (fun _ => rfl) | intro _ | apply Keeps.ite | dsimp only | split

theorem State.actseq_keeps [Kept R] [KRegs R] [KFlash R] [KAlm R] {s x : State} (hk : R s x) : R s (State.actseq x) := by
  unfold State.actseq
  with_reducible repeat' first
    | exact hk | apply Keeps.refl | apply State.updAlm_keeps | apply State.fset_keeps | apply State.fPut_keeps
    | apply State.upTo_keeps | exact .of (fun _ => rfl) (fun _ => rfl) (fun _ => rfl) | intro _ | apply Keeps.ite
    | dsimp only | split

theorem State.writeAlmanac_keeps [Kept R] [KRegs R] [KFrc R] [KStaged R] {s x : State} (hk :
    R s x) {w} :
    R s (State.writeAlmanac x w) := by
  unfold State.writeAlmanac
  with_reducible repeat' first
    | exact hk | apply Keeps.refl | apply State.stage_keeps | apply State.writeAt_keeps | apply State.cond_keeps
    | apply State.setEff_keeps | intro _ | apply Keeps.ite | dsimp only | split

theorem execReloadRequest_keeps [Kept R] [KRegs R] [KFrc R] [KMem R] [KStaged R] [KLed R] [KChan R] [KBank R] [KPmc R] [KSrc
    R] [KAe R] [KPort R] [KSyn R] [KIsl R] [KSea R] [KUnit R] [KCal R] [KAlm R] [KRt R] [KRf R] [KFree R] {s : State}
    {target} :
    KeepsOut R s (execReloadRequest target s) := by
  unfold execReloadRequest
  with_reducible repeat' first
    | apply KeepsOut.ok | apply KeepsOut.next | apply Keeps.refl | apply State.reloadAt_keeps | intro _ | apply Keeps.ite
    | dsimp only | split

theorem execReloadStart_keeps [Kept R] [KRegs R] [KFlash R] [KAlm R] [KFree R] {s : State} {flash} :
    KeepsOut R s (execReloadStart flash s) := by
  unfold execReloadStart
  with_reducible repeat' first
    | apply KeepsOut.ok | apply KeepsOut.next | apply Keeps.refl | apply State.reloadBegin_keeps | intro _
    | apply Keeps.ite | dsimp only | split

theorem execReloadEnd_keeps [Kept R] [KRegs R] [KStaged R] [KLed R] [KBank R] [KSrc R] [KAe R] [KAlm R] {s : State} :
    KeepsOut R s (execReloadEnd s) := by
  unfold execReloadEnd
  with_reducible repeat' first
    | apply KeepsOut.ok | apply KeepsOut.next | apply Keeps.refl | apply State.reloadCommit_keeps | intro _
    | apply Keeps.ite | dsimp only | split

theorem execNvmRead_keeps [Kept R] [KRegs R] [KAlm R] {s : State} : KeepsOut R s (execNvmRead s) := by
  unfold execNvmRead
  with_reducible repeat' first
    | apply KeepsOut.ok | apply KeepsOut.next | apply Keeps.refl | apply State.nvmRead_keeps | intro _ | apply Keeps.ite
    | dsimp only | split

theorem execNvmProgram_keeps [Kept R] [KRegs R] [KAlm R] {s : State} : KeepsOut R s (execNvmProgram s) := by
  unfold execNvmProgram
  with_reducible repeat' first
    | apply KeepsOut.ok | apply KeepsOut.next | apply Keeps.refl | apply State.nvmProgram_keeps | intro _
    | apply Keeps.ite | dsimp only | split

theorem execNvmErase_keeps [Kept R] [KRegs R] [KAlm R] {s : State} : KeepsOut R s (execNvmErase s) := by
  unfold execNvmErase
  with_reducible repeat' first
    | apply KeepsOut.ok | apply KeepsOut.next | apply Keeps.refl | apply State.nvmErase_keeps | intro _ | apply Keeps.ite
    | dsimp only | split

theorem execNvmVerify_keeps [Kept R] [KRegs R] [KAlm R] {s : State} : KeepsOut R s (execNvmVerify s) := by
  unfold execNvmVerify
  with_reducible repeat' first
    | apply KeepsOut.ok | apply KeepsOut.next | apply Keeps.refl | apply State.nvmVerify_keeps | intro _ | apply Keeps.ite
    | dsimp only | split

theorem execNvmActivate_keeps [Kept R] [KRegs R] [KAlm R] {s : State} {actReload} :
    KeepsOut R s (execNvmActivate actReload s) := by
  unfold execNvmActivate
  with_reducible repeat' first
    | apply KeepsOut.ok | apply KeepsOut.next | apply Keeps.refl | apply State.nvmActivate_keeps | intro _
    | apply Keeps.ite | dsimp only | split

theorem execNvmCancel_keeps [Kept R] [KRegs R] [KAlm R] {s : State} : KeepsOut R s (execNvmCancel s) := by
  unfold execNvmCancel
  with_reducible repeat' first
    | apply KeepsOut.ok | apply KeepsOut.next | apply Keeps.refl | apply State.nvmCancel_keeps | intro _ | apply Keeps.ite
    | dsimp only | split

theorem execNvmOperationComplete_keeps [Kept R] [KRegs R] [KFlash R] [KAlm R] [KFree R] {s : State} {reportedOk} :
    KeepsOut R s (execNvmOperationComplete reportedOk s) := by
  unfold execNvmOperationComplete
  with_reducible repeat' first
    | apply KeepsOut.ok | apply KeepsOut.next | apply Keeps.refl | apply State.nvmDone_keeps | intro _ | apply Keeps.ite
    | dsimp only | split

theorem execNvmDataAccess_keeps [Kept R] [KAlm R] {s : State} {val} : KeepsOut R s (execNvmDataAccess val s) := by
  unfold execNvmDataAccess
  with_reducible repeat' first
    | apply KeepsOut.ok | apply KeepsOut.next | apply Keeps.refl | apply State.nvmData_keeps
    | refine Keeps.fst ?_ (by assumption) | intro _ | apply Keeps.ite | dsimp only | split

theorem execNvmAddrWrite_keeps [Kept R] [KRegs R] [KFrc R] [KAlm R] {s : State} {val} :
    KeepsOut R s (execNvmAddrWrite val s) := by
  unfold execNvmAddrWrite
  with_reducible repeat' first
    | apply KeepsOut.ok | apply KeepsOut.next | apply Keeps.refl | apply State.nvmAddr_keeps | intro _ | apply Keeps.ite
    | dsimp only | split

theorem execSlotActivation_keeps [Kept R] [KRegs R] [KFrc R] [KMem R] [KStaged R] [KLed R] [KChan R] [KBank R] [KPmc R]
    [KSrc R] [KAe R] [KPort R] [KSyn R] [KIsl R] [KSea R] [KUnit R] [KCal R] [KAlm R] [KRt R] [KRf R] [KFree R] {s : State}
    :
    KeepsOut R s (execSlotActivation s) := by
  unfold execSlotActivation
  with_reducible repeat' first
    | apply KeepsOut.ok | apply KeepsOut.next | apply Keeps.refl | apply State.activate_keeps | intro _ | apply Keeps.ite
    | dsimp only | split

theorem execActseqProgram_keeps [Kept R] [KRegs R] [KFlash R] [KAlm R] {s : State} :
    KeepsOut R s (execActseqProgram s) := by
  unfold execActseqProgram
  with_reducible repeat' first
    | apply KeepsOut.ok | apply KeepsOut.next | apply Keeps.refl | apply State.actseq_keeps | intro _ | apply Keeps.ite
    | dsimp only | split

end Sys2Proof.Machine
end

