-- ==== Sys2Proof/Laws/KeepsUnit.lean ====
section
/-! SUPPORT. `Keeps` of the operations of Machine/Unit.lean. -/

namespace Sys2Proof.Machine

variable {R : State → State → Prop}

theorem State.setUnit_keeps [Kept R] [KRegs R] [KSt R] {s x : State} (hk : R s x) {u} : R s (State.setUnit x u) := State.fset_keeps (State.fset_keeps (State.setSt_keeps hk))

theorem State.refreshFault_keeps [Kept R] [KRegs R] [KUnit R] {s x : State} (hk : R s x) : R s (State.refreshFault x) := by
  unfold State.refreshFault
  with_reducible repeat' first
    | exact hk | apply Keeps.refl | apply State.updUnit_keeps | apply State.fbit_keeps | exact fun _ => rfl
    | exact fun _ => UnitSt.rail_st .. | intro _ | apply Keeps.ite | dsimp only | split

theorem State.refreshUnit_keeps [Kept R] [KRegs R] [KUnit R] {s x : State} (hk : R s x) : R s (State.refreshUnit x) := by
  unfold State.refreshUnit
  with_reducible repeat' first
    | exact hk | apply Keeps.refl | apply State.fset_keeps | apply State.refreshFault_keeps | apply State.fbit_keeps
    | intro _ | apply Keeps.ite | dsimp only | split

theorem State.showPower_keeps [Kept R] [KRegs R] {s x : State} (hk : R s x) : R s (State.showPower x) := by
  unfold State.showPower
  with_reducible repeat' first
    | exact hk | apply Keeps.refl | apply State.fbit_keeps | intro _ | apply Keeps.ite | dsimp only | split

theorem State.setCause_keeps [Kept R] [KRegs R] {s x : State} (hk : R s x) {c} : R s (State.setCause x c) := by
  unfold State.setCause
  with_reducible repeat' first
    | exact hk | apply Keeps.refl | apply State.fset_keeps | intro _ | apply Keeps.ite | dsimp only | split

theorem State.startReset_keeps [Kept R] [KRegs R] [KFlash R] [KFree R] [KCore R] {s x : State} (hk :
    R s x) :
    R s (State.startReset x) := by
  unfold State.startReset
  with_reducible repeat' first
    | exact hk | apply Keeps.refl | apply State.setCause_keeps | apply State.spoil_keeps | apply State.fbit_keeps
    | apply State.coreCleared_keeps | apply State.showPower_keeps | intro _ | apply Keeps.ite | dsimp only | split

theorem State.resetFor_keeps [Kept R] [KRegs R] [KFlash R] [KUnit R] [KFree R] [KCore R] {s x : State} (hk :
    R s x) {cause} :
    R s (State.resetFor x cause) := by
  unfold State.resetFor
  with_reducible repeat' first
    | exact hk | apply Keeps.refl | apply State.refreshFault_keeps | apply State.startReset_keeps
    | apply State.updUnit_keeps | exact fun _ => rfl | exact fun _ => UnitSt.rail_st .. | intro _ | apply Keeps.ite
    | dsimp only | split

theorem State.vaonRise_keeps [Kept R] [KRegs R] [KFlash R] [KUnit R] [KFree R] [KVaon R] [KCore R] {s x : State} (hk :
    R s x) :
    R s (State.vaonRise x) := by
  unfold State.vaonRise
  with_reducible repeat' first
    | exact hk | apply Keeps.refl | apply State.fset_keeps | apply State.refreshFault_keeps
    | apply State.vaonCleared_keeps | apply State.setCause_keeps | apply State.startReset_keeps
    | apply State.updUnit_keeps | exact fun _ => rfl | exact fun _ => UnitSt.rail_st .. | intro _ | apply Keeps.ite
    | dsimp only | split

theorem State.watchdogFire_keeps [Kept R] [KRegs R] [KFlash R] [KUnit R] [KFree R] [KCore R] {s x : State} (hk :
    R s x) :
    R s (State.watchdogFire x) := by
  unfold State.watchdogFire
  with_reducible repeat' first
    | exact hk | apply Keeps.refl | apply State.resetFor_keeps | apply State.refreshFault_keeps
    | apply State.updUnit_keeps | exact fun _ => rfl | exact fun _ => UnitSt.rail_st .. | intro _ | apply Keeps.ite
    | dsimp only | split

theorem State.mainFall_keeps [Kept R] [KRegs R] [KBs R] [KFlash R] [KUnit R] [KFree R] [KCore R] {s x : State} (hk :
    R s x) {r} :
    R s (State.mainFall x r) := by
  unfold State.mainFall
  with_reducible repeat' first
    | exact hk | apply Keeps.refl | apply State.bsRetain_keeps | apply State.resetFor_keeps | apply State.updUnit_keeps
    | apply State.showPower_keeps | exact fun _ => rfl | exact fun _ => UnitSt.rail_st .. | intro _ | apply Keeps.ite
    | dsimp only | split

theorem State.linkDown_keeps [Kept R] [KRegs R] [KUnit R] {s x : State} (hk : R s x) {d} : R s (State.linkDown x d) := by
  unfold State.linkDown
  with_reducible repeat' first
    | exact hk | apply Keeps.refl | apply State.fset_keeps | apply State.updUnit_keeps | exact fun _ => rfl
    | exact fun _ => UnitSt.rail_st .. | intro _ | apply Keeps.ite | dsimp only | split

theorem State.linkFault_keeps [Kept R] [KRegs R] [KBank R] [KUnit R] {s x : State} (hk :
    R s x) {d} :
    R s (State.linkFault x d) := by
  unfold State.linkFault
  with_reducible repeat' first
    | exact hk | apply Keeps.refl | apply State.linkDown_keeps | apply State.dieFault_keeps | apply State.raiseF_keeps
    | intro _ | apply Keeps.ite | dsimp only | split

theorem State.flitRetry_keeps [Kept R] [KRegs R] [KBank R] [KUnit R] {s x : State} (hk :
    R s x) {d} :
    R s (State.flitRetry x d) := by
  unfold State.flitRetry
  with_reducible repeat' first
    | exact hk | apply Keeps.refl | apply State.updUnit_keeps | apply State.inc_keeps | apply State.linkFault_keeps
    | exact fun _ => rfl | exact fun _ => UnitSt.rail_st .. | intro _ | apply Keeps.ite | dsimp only | split

theorem State.dieRailFall_keeps [Kept R] [KRegs R] [KChan R] [KBank R] [KUnit R] {s x : State} (hk :
    R s x) {r} {d} :
    R s (State.dieRailFall x r d) := by
  unfold State.dieRailFall
  with_reducible repeat' first
    | exact hk | apply Keeps.refl | apply State.fset_keeps | apply State.pinsSafe_keeps | apply State.each_keeps
    | apply State.dieFault_keeps | apply State.updUnit_keeps | apply State.cond_keeps | apply State.showPower_keeps
    | exact fun _ => rfl | exact fun _ => UnitSt.rail_st .. | intro _ | apply Keeps.ite | dsimp only | split

theorem State.supplyGood_keeps [Kept R] [KRegs R] [KUnit R] {s x : State} (hk :
    R s x) {r} :
    R s (State.supplyGood x r) := by
  unfold State.supplyGood
  with_reducible repeat' first
    | exact hk | apply Keeps.refl | apply State.fset_keeps | apply State.updUnit_keeps | apply State.cond_keeps
    | apply State.upTo_keeps | apply State.showPower_keeps | exact fun _ => rfl | exact fun _ => UnitSt.rail_st ..
    | intro _ | apply Keeps.ite | dsimp only | split

theorem State.pllLoss_keeps [Kept R] [KRegs R] [KBank R] [KUnit R] {s x : State} (hk :
    R s x) {d} :
    R s (State.pllLoss x d) := by
  unfold State.pllLoss
  with_reducible repeat' first
    | exact hk | apply Keeps.refl | apply State.fset_keeps | apply State.dieFault_keeps | apply State.updUnit_keeps
    | apply State.raiseF_keeps | exact fun _ => rfl | exact fun _ => UnitSt.rail_st .. | intro _ | apply Keeps.ite
    | dsimp only | split

theorem State.pllLock_keeps [Kept R] [KRegs R] [KUnit R] {s x : State} (hk : R s x) {d} : R s (State.pllLock x d) := by
  unfold State.pllLock
  with_reducible repeat' first
    | exact hk | apply Keeps.refl | apply State.fset_keeps | apply State.updUnit_keeps | exact fun _ => rfl
    | exact fun _ => UnitSt.rail_st .. | intro _ | apply Keeps.ite | dsimp only | split

theorem State.setStep_keeps [Kept R] [KRegs R] {s x : State} (hk : R s x) {n} : R s (State.setStep x n) := by
  unfold State.setStep
  with_reducible repeat' first
    | exact hk | apply Keeps.refl | apply State.fset_keeps | intro _ | apply Keeps.ite | dsimp only | split

theorem State.trainDie_keeps [Kept R] [KRegs R] {s x : State} (hk :
    R s x) {trained} {d} :
    R s (State.trainDie trained x d) := by
  unfold State.trainDie
  with_reducible repeat' first
    | exact hk | apply Keeps.refl | apply State.fset_keeps | apply State.dieFaultNow_keeps | intro _ | apply Keeps.ite
    | dsimp only | split

theorem State.calibrateDie_keeps [Kept R] [KRegs R] [KBank R] [KSea R] [KUnit R] [KCal R] {s x : State} (hk :
    R s x) {temps} {d} :
    R s (State.calibrateDie temps x d) := by
  unfold State.calibrateDie
  with_reducible repeat' first
    | exact hk | apply Keeps.refl | apply State.sampleNow_keeps | apply State.applyElem_keeps | apply Keeps.foldl
    | apply Keeps.foldlP | intro _ | apply Keeps.ite | dsimp only | split

theorem State.startUp_keeps [Kept R] [KRegs R] [KFrc R] [KMem R] [KBs R] [KStaged R] [KLed R] [KChan R] [KBank R] [KPmc R]
    [KSrc R] [KAe R] [KIsl R] [KClk R] [KSea R] [KUnit R] [KSt R] [KCal R] [KAlm R] [KRing R] [KRt R] {s x : State} (hk :
    R s x) {temps} {trained} {flash} :
    R s (State.startUp x temps trained flash) := by
  unfold State.startUp
  with_reducible repeat' first
    | exact hk | apply Keeps.refl | apply State.calibrateDie_keeps | apply State.bsCheck_keeps | apply State.fset_keeps
    | apply State.refreshUnit_keeps | apply State.setStep_keeps | apply State.loadAlmanac_keeps
    | apply State.setCause_keeps | apply State.updUnit_keeps | apply State.setUnit_keeps | apply State.upTo_keeps
    | apply State.updRing_keeps | apply State.trainDie_keeps | exact fun _ => rfl | exact fun _ => UnitSt.rail_st ..
    | intro _ | apply Keeps.ite | dsimp only | split

theorem State.enterRunning_keeps [Kept R] [KRegs R] [KBs R] [KLed R] [KIsl R] [KSt R] {s x : State} (hk :
    R s x) {banks} :
    R s (State.enterRunning x banks) := by
  unfold State.enterRunning
  with_reducible repeat' first
    | exact hk | apply Keeps.refl | apply State.autoRelease_keeps | apply State.startLedger_keeps
    | apply State.setUnit_keeps | intro _ | apply Keeps.ite | dsimp only | split

theorem State.runningEntry_keeps [Kept R] [KRegs R] [KBs R] [KLed R] [KBank R] [KSrc R] [KAe R] [KIsl R] [KSea R] [KUnit R]
    [KSt R] [KAlm R] [KRt R] {s x : State} (hk :
    R s x) :
    R s (State.runningEntry x) := by
  unfold State.runningEntry
  with_reducible repeat' first
    | exact hk | apply Keeps.refl | apply State.timerStart_keeps | apply State.updSea_keeps
    | apply State.seasonBegin_keeps | apply State.goAll_keeps | apply State.refreshUnit_keeps | apply State.setStep_keeps
    | apply State.enterRunning_keeps | apply State.requestItems_keeps | apply State.updRt_keeps | apply State.upTo_keeps
    | exact fun _ => Router.wf_of rfl | intro _ | apply Keeps.ite | dsimp only | split

theorem State.enumerated_keeps [Kept R] [KRegs R] [KBs R] [KLed R] [KBank R] [KSrc R] [KAe R] [KIsl R] [KSea R] [KUnit R]
    [KSt R] [KAlm R] [KRt R] {s x : State} (hk :
    R s x) :
    R s (State.enumerated x) := by
  unfold State.enumerated
  with_reducible repeat' first
    | exact hk | apply Keeps.refl | apply State.runningEntry_keeps | apply State.setStep_keeps | apply State.cond_keeps
    | intro _ | apply Keeps.ite | dsimp only | split

theorem State.tickStart_keeps [Kept R] [KRegs R] [KClk R] {s x : State} (hk :
    R s x) {count} {free} :
    R s (State.tickStart x count free) := by
  unfold State.tickStart
  with_reducible repeat' first
    | exact hk | apply Keeps.refl | apply State.fset_keeps | apply State.updClk_keeps | intro _ | apply Keeps.ite
    | dsimp only | split

theorem State.firstAlignment_keeps [Kept R] [KRegs R] [KBs R] [KLed R] [KBank R] [KSrc R] [KAe R] [KIsl R] [KClk R] [KSea R]
    [KUnit R] [KSt R] [KAlm R] [KRt R] {s x : State} (hk :
    R s x) {decoded} :
    R s (State.firstAlignment x decoded) := by
  unfold State.firstAlignment
  with_reducible repeat' first
    | exact hk | apply Keeps.refl | apply State.tickStart_keeps | apply State.runningEntry_keeps | intro _
    | apply Keeps.ite | dsimp only | split

theorem State.freeRun_keeps [Kept R] [KRegs R] [KBs R] [KLed R] [KBank R] [KSrc R] [KAe R] [KIsl R] [KClk R] [KSea R] [KUnit
    R] [KSt R] [KAlm R] [KRt R] {s x : State} (hk :
    R s x) :
    R s (State.freeRun x) := by
  unfold State.freeRun
  with_reducible repeat' first
    | exact hk | apply Keeps.refl | apply State.tickStart_keeps | apply State.runningEntry_keeps | apply State.cond_keeps
    | intro _ | apply Keeps.ite | dsimp only | split

theorem State.deepPending_keeps [Kept R] [KRegs R] [KStaged R] [KUnit R] [KSt R] {s x : State} (hk :
    R s x) :
    R s (State.deepPending x) := by
  unfold State.deepPending
  with_reducible repeat' first
    | exact hk | apply Keeps.refl | apply State.stageNext_keeps | apply State.updUnit_keeps | apply State.setUnit_keeps
    | exact fun _ => rfl | exact fun _ => UnitSt.rail_st .. | intro _ | apply Keeps.ite | dsimp only | split

theorem State.deepDown_keeps [Kept R] [KRegs R] [KFrc R] [KMem R] [KStaged R] [KLed R] [KChan R] [KBank R] [KPmc R] [KSrc R]
    [KAe R] [KPort R] [KIsl R] [KSea R] [KUnit R] [KRt R] [KFree R] {s x : State} (hk :
    R s x) :
    R s (State.deepDown x) := by
  unfold State.deepDown
  with_reducible repeat' first
    | exact hk | apply Keeps.refl | apply State.moveBank_keeps | apply State.dropBankRequests_keeps
    | apply State.rxEnd_keeps | apply State.cond_keeps | apply State.upTo_keeps | apply State.holdChan_keeps | intro _
    | apply Keeps.ite | dsimp only | split

theorem State.deepReady_keeps [Kept R] [KRegs R] [KPort R] [KSyn R] [KClk R] [KUnit R] [KSt R] {s x : State} (hk :
    R s x) :
    R s (State.deepReady x) := by
  unfold State.deepReady
  with_reducible repeat' first
    | exact hk | apply Keeps.refl | apply State.setRfreq_keeps | apply State.refreshSyn_keeps
    | apply State.refreshUnit_keeps | apply State.pllStop_keeps | apply State.updUnit_keeps | apply State.setUnit_keeps
    | apply State.updClk_keeps | apply State.upTo_keeps | exact fun _ => rfl | exact fun _ => UnitSt.rail_st .. | intro _
    | apply Keeps.ite | dsimp only | split

theorem State.wake_keeps [Kept R] [KRegs R] [KFlash R] [KUnit R] [KSt R] [KFree R] [KCore R] {s x : State} (hk :
    R s x) :
    R s (State.wake x) := by
  unfold State.wake
  with_reducible repeat' first
    | exact hk | apply Keeps.refl | apply State.resetFor_keeps | apply State.refreshUnit_keeps | apply State.updUnit_keeps
    | apply State.setUnit_keeps | exact fun _ => rfl | exact fun _ => UnitSt.rail_st .. | intro _ | apply Keeps.ite
    | dsimp only | split

theorem State.rfAgain_keeps [Kept R] [KStaged R] [KLed R] {s x : State} (hk : R s x) : R s (State.rfAgain x) := by
  unfold State.rfAgain
  with_reducible repeat' first
    | exact hk | apply Keeps.refl | apply State.request_keeps | apply State.cond_keeps | apply State.upTo_keeps | intro _
    | apply Keeps.ite | dsimp only | split

theorem State.wakingEntry_keeps [Kept R] [KRegs R] [KBs R] [KStaged R] [KLed R] [KIsl R] [KUnit R] [KSt R] [KRt R] {s x :
    State} (hk :
    R s x) :
    R s (State.wakingEntry x) := by
  unfold State.wakingEntry
  with_reducible repeat' first
    | exact hk | apply Keeps.refl | apply State.rfAgain_keeps | apply State.refreshUnit_keeps
    | apply State.enterRunning_keeps | apply State.each_keeps | apply State.updRt_keeps | apply State.reRequest_keeps
    | exact fun _ => Router.wf_of rfl | intro _ | apply Keeps.ite | dsimp only | split

theorem State.wakingAligned_keeps [Kept R] [KRegs R] [KBs R] [KStaged R] [KLed R] [KIsl R] [KClk R] [KUnit R] [KSt R] [KRt
    R] {s x : State} (hk :
    R s x) {decoded} :
    R s (State.wakingAligned x decoded) := by
  unfold State.wakingAligned
  with_reducible repeat' first
    | exact hk | apply Keeps.refl | apply State.tickStart_keeps | apply State.wakingEntry_keeps | intro _
    | apply Keeps.ite | dsimp only | split

theorem State.wakingTimeout_keeps [Kept R] [KRegs R] [KBs R] [KStaged R] [KLed R] [KIsl R] [KClk R] [KUnit R] [KSt R] [KRt
    R] {s x : State} (hk :
    R s x) :
    R s (State.wakingTimeout x) := by
  unfold State.wakingTimeout
  with_reducible repeat' first
    | exact hk | apply Keeps.refl | apply State.tickStart_keeps | apply State.wakingEntry_keeps | intro _
    | apply Keeps.ite | dsimp only | split

theorem execVaonRise_keeps [Kept R] [KRegs R] [KFlash R] [KUnit R] [KFree R] [KVaon R] [KCore R] {s : State} :
    KeepsOut R s (execVaonRise s) := by
  unfold execVaonRise
  with_reducible repeat' first
    | apply KeepsOut.ok | apply KeepsOut.next | apply Keeps.refl | apply State.vaonRise_keeps | intro _ | apply Keeps.ite
    | dsimp only | split

theorem execResetNLow_keeps [Kept R] [KRegs R] [KFlash R] [KUnit R] [KFree R] [KCore R] {s : State} :
    KeepsOut R s (execResetNLow s) := by
  unfold execResetNLow
  with_reducible repeat' first
    | apply KeepsOut.ok | apply KeepsOut.next | apply Keeps.refl | apply State.resetFor_keeps | intro _ | apply Keeps.ite
    | dsimp only | split

theorem execStartUp_keeps [Kept R] [KRegs R] [KFrc R] [KMem R] [KBs R] [KStaged R] [KLed R] [KChan R] [KBank R] [KPmc R]
    [KSrc R] [KAe R] [KIsl R] [KClk R] [KSea R] [KUnit R] [KSt R] [KCal R] [KAlm R] [KRing R] [KRt R] {s : State} {temps}
    {trained} {flash} :
    KeepsOut R s (execStartUp temps trained flash s) := by
  unfold execStartUp
  with_reducible repeat' first
    | apply KeepsOut.ok | apply KeepsOut.next | apply Keeps.refl | apply State.startUp_keeps | intro _ | apply Keeps.ite
    | dsimp only | split

theorem execEnumerationWaitTimeout_keeps [Kept R] [KRegs R] [KBs R] [KLed R] [KBank R] [KSrc R] [KAe R] [KIsl R] [KSea R]
    [KUnit R] [KSt R] [KAlm R] [KRt R] {s : State} :
    KeepsOut R s (execEnumerationWaitTimeout s) := by
  unfold execEnumerationWaitTimeout
  with_reducible repeat' first
    | apply KeepsOut.ok | apply KeepsOut.next | apply Keeps.refl | apply State.enumerated_keeps | intro _
    | apply Keeps.ite | dsimp only | split

theorem execFirstTickAlignment_keeps [Kept R] [KRegs R] [KBs R] [KLed R] [KBank R] [KSrc R] [KAe R] [KIsl R] [KClk R] [KSea
    R] [KUnit R] [KSt R] [KAlm R] [KRt R] {s : State} {decoded} :
    KeepsOut R s (execFirstTickAlignment decoded s) := by
  unfold execFirstTickAlignment
  with_reducible repeat' first
    | apply KeepsOut.ok | apply KeepsOut.next | apply Keeps.refl | apply State.firstAlignment_keeps | intro _
    | apply Keeps.ite | dsimp only | split

theorem execFreeRunStart_keeps [Kept R] [KRegs R] [KBs R] [KLed R] [KBank R] [KSrc R] [KAe R] [KIsl R] [KClk R] [KSea R]
    [KUnit R] [KSt R] [KAlm R] [KRt R] {s : State} :
    KeepsOut R s (execFreeRunStart s) := by
  unfold execFreeRunStart
  with_reducible repeat' first
    | apply KeepsOut.ok | apply KeepsOut.next | apply Keeps.refl | apply State.freeRun_keeps | intro _ | apply Keeps.ite
    | dsimp only | split

theorem execSupplyGood_keeps [Kept R] [KRegs R] [KUnit R] {s : State} {rail} : KeepsOut R s (execSupplyGood rail s) := by
  unfold execSupplyGood
  with_reducible repeat' first
    | apply KeepsOut.ok | apply KeepsOut.next | apply Keeps.refl | apply State.supplyGood_keeps | intro _
    | apply Keeps.ite | dsimp only | split

theorem execMainSupplyFall_keeps [Kept R] [KRegs R] [KBs R] [KFlash R] [KUnit R] [KFree R] [KCore R] {s : State} {rail} :
    KeepsOut R s (execMainSupplyFall rail s) := by
  unfold execMainSupplyFall
  with_reducible repeat' first
    | apply KeepsOut.ok | apply KeepsOut.next | apply Keeps.refl | apply State.mainFall_keeps | intro _ | apply Keeps.ite
    | dsimp only | split

theorem execDieRailFall_keeps [Kept R] [KRegs R] [KChan R] [KBank R] [KUnit R] {s : State} {rail} :
    KeepsOut R s (execDieRailFall rail s) := by
  unfold execDieRailFall
  with_reducible repeat' first
    | apply KeepsOut.ok | apply KeepsOut.next | apply Keeps.refl | apply State.dieRailFall_keeps | intro _
    | apply Keeps.ite | dsimp only | split

theorem execDieRailRetrain_keeps [Kept R] [KRegs R] [KUnit R] {s : State} {die} :
    KeepsOut R s (execDieRailRetrain die s) := by
  unfold execDieRailRetrain
  with_reducible repeat' first
    | apply KeepsOut.ok | apply KeepsOut.next | apply Keeps.refl | apply State.linkDown_keeps | intro _ | apply Keeps.ite
    | dsimp only | split

theorem execWatchdog_keeps [Kept R] [KRegs R] [KFlash R] [KUnit R] [KFree R] [KCore R] {s : State} :
    KeepsOut R s (execWatchdog s) := by
  unfold execWatchdog
  with_reducible repeat' first
    | apply KeepsOut.ok | apply KeepsOut.next | apply Keeps.refl | apply State.watchdogFire_keeps | intro _
    | apply Keeps.ite | dsimp only | split

theorem execCorePllLossOfLock_keeps [Kept R] [KRegs R] [KFlash R] [KUnit R] [KFree R] [KCore R] {s : State} :
    KeepsOut R s (execCorePllLossOfLock s) := by
  unfold execCorePllLossOfLock
  with_reducible repeat' first
    | apply KeepsOut.ok | apply KeepsOut.next | apply Keeps.refl | apply State.watchdogFire_keeps | intro _
    | apply Keeps.ite | dsimp only | split

theorem execConvPllLossOfLock_keeps [Kept R] [KRegs R] [KBank R] [KUnit R] {s : State} {die} :
    KeepsOut R s (execConvPllLossOfLock die s) := by
  unfold execConvPllLossOfLock
  with_reducible repeat' first
    | apply KeepsOut.ok | apply KeepsOut.next | apply Keeps.refl | apply State.pllLoss_keeps | intro _ | apply Keeps.ite
    | dsimp only | split

theorem execConvPllLock_keeps [Kept R] [KRegs R] [KUnit R] {s : State} {die} : KeepsOut R s (execConvPllLock die s) := by
  unfold execConvPllLock
  with_reducible repeat' first
    | apply KeepsOut.ok | apply KeepsOut.next | apply Keeps.refl | apply State.pllLock_keeps | intro _ | apply Keeps.ite
    | dsimp only | split

theorem execFlitRetry_keeps [Kept R] [KRegs R] [KBank R] [KUnit R] {s : State} {die} :
    KeepsOut R s (execFlitRetry die s) := by
  unfold execFlitRetry
  with_reducible repeat' first
    | apply KeepsOut.ok | apply KeepsOut.next | apply Keeps.refl | apply State.flitRetry_keeps | intro _ | apply Keeps.ite
    | dsimp only | split

theorem execLinkFault_keeps [Kept R] [KRegs R] [KBank R] [KUnit R] {s : State} {die} :
    KeepsOut R s (execLinkFault die s) := by
  unfold execLinkFault
  with_reducible repeat' first
    | apply KeepsOut.ok | apply KeepsOut.next | apply Keeps.refl | apply State.linkFault_keeps | intro _ | apply Keeps.ite
    | dsimp only | split

theorem execLinkRetrainSuccess_keeps [Kept R] [KRegs R] [KUnit R] {s : State} {die} :
    KeepsOut R s (execLinkRetrainSuccess die s) := by
  unfold execLinkRetrainSuccess
  with_reducible repeat' first
    | apply KeepsOut.ok | apply KeepsOut.next | apply Keeps.refl | apply State.fset_keeps | apply State.updUnit_keeps
    | exact fun _ => rfl | exact fun _ => UnitSt.rail_st .. | intro _ | apply Keeps.ite | dsimp only | split

theorem execLinkRetrainSet_keeps [Kept R] [KRegs R] [KUnit R] {s : State} {die} :
    KeepsOut R s (execLinkRetrainSet die s) := by
  unfold execLinkRetrainSet
  with_reducible repeat' first
    | apply KeepsOut.ok | apply KeepsOut.next | apply Keeps.refl | apply State.linkDown_keeps | intro _ | apply Keeps.ite
    | dsimp only | split

theorem execDieLinkStatusRead_keeps [Kept R] [KRegs R] {s : State} : KeepsOut R s (execDieLinkStatusRead s) := by
  unfold execDieLinkStatusRead
  with_reducible repeat' first
    | apply KeepsOut.ok | apply KeepsOut.next | apply Keeps.refl | apply State.fset_keeps | intro _ | apply Keeps.ite
    | dsimp only | split

theorem execDeepPendingEntry_keeps [Kept R] [KRegs R] [KStaged R] [KUnit R] [KSt R] {s : State} :
    KeepsOut R s (execDeepPendingEntry s) := by
  unfold execDeepPendingEntry
  with_reducible repeat' first
    | apply KeepsOut.ok | apply KeepsOut.next | apply Keeps.refl | apply State.deepPending_keeps | intro _
    | apply Keeps.ite | dsimp only | split

theorem execDeepReadyEntry_keeps [Kept R] [KRegs R] [KPort R] [KSyn R] [KClk R] [KUnit R] [KSt R] {s : State} :
    KeepsOut R s (execDeepReadyEntry s) := by
  unfold execDeepReadyEntry
  with_reducible repeat' first
    | apply KeepsOut.ok | apply KeepsOut.next | apply Keeps.refl | apply State.deepReady_keeps | intro _ | apply Keeps.ite
    | dsimp only | split

theorem execWakeFromDeep_keeps [Kept R] [KRegs R] [KFlash R] [KUnit R] [KSt R] [KFree R] [KCore R] {s : State} :
    KeepsOut R s (execWakeFromDeep s) := by
  unfold execWakeFromDeep
  with_reducible repeat' first
    | apply KeepsOut.ok | apply KeepsOut.next | apply Keeps.refl | apply State.wake_keeps | intro _ | apply Keeps.ite
    | dsimp only | split

theorem execWakingAlignment_keeps [Kept R] [KRegs R] [KBs R] [KStaged R] [KLed R] [KIsl R] [KClk R] [KUnit R] [KSt R] [KRt
    R] {s : State} {decoded} :
    KeepsOut R s (execWakingAlignment decoded s) := by
  unfold execWakingAlignment
  with_reducible repeat' first
    | apply KeepsOut.ok | apply KeepsOut.next | apply Keeps.refl | apply State.wakingAligned_keeps | intro _
    | apply Keeps.ite | dsimp only | split

theorem execWakingFrameTimeout_keeps [Kept R] [KRegs R] [KBs R] [KStaged R] [KLed R] [KIsl R] [KClk R] [KUnit R] [KSt R]
    [KRt R] {s : State} :
    KeepsOut R s (execWakingFrameTimeout s) := by
  unfold execWakingFrameTimeout
  with_reducible repeat' first
    | apply KeepsOut.ok | apply KeepsOut.next | apply Keeps.refl | apply State.wakingTimeout_keeps | intro _
    | apply Keeps.ite | dsimp only | split

end Sys2Proof.Machine
end

