-- ==== Sys2Proof/Laws/KeepsRegs.lean ====
section
/-! SUPPORT. `Keeps` of the operations of Machine/Regs.lean. -/

namespace Sys2Proof.Machine

variable {R : State → State → Prop}

theorem State.putNow_keeps [Kept R] [KRegs R] [KFrc R] {s x : State} (hk : R s x) {a} {v} : R s (State.putNow x a v) := by
  unfold State.putNow
  with_reducible repeat' first
    | exact hk | apply Keeps.refl | apply State.gated_keeps | apply State.putBoth_keeps | intro _ | apply Keeps.ite
    | dsimp only | split

theorem State.clearNow_keeps [Kept R] [KRegs R] {s x : State} (hk : R s x) {a} {v} : R s (State.clearNow x a v) := by
  unfold State.clearNow
  with_reducible repeat' first
    | exact hk | apply Keeps.refl | apply State.gated_keeps | apply State.w1c_keeps | intro _ | apply Keeps.ite
    | dsimp only | split

theorem State.writeThen_keeps [Kept R] [KRegs R] [KStaged R] {s x : State} (hk :
    R s x) {a} {w} {f : State → State} (hf : ∀ t, R t (f t)) :
    R s (State.writeThen x a w f) := by
  unfold State.writeThen
  with_reducible repeat' first
    | exact hk | apply Keeps.refl | apply State.gated_keeps | apply State.writeAt_keeps | intro _ | apply Keeps.ite
    | dsimp only | split | refine Keeps.trans ?_ (hf _)

theorem State.stageWr_keeps [Kept R] [KStaged R] {s x : State} (hk : R s x) {w} {e} : R s (State.stageWr x w e) := by
  unfold State.stageWr
  with_reducible repeat' first
    | exact hk | apply Keeps.refl | apply State.stage_keeps | intro _ | apply Keeps.ite | dsimp only | split

theorem State.writeWakeCtl_keeps [Kept R] [KRegs R] [KFrc R] [KStaged R] [KIsl R] {s x : State} (hk :
    R s x) {w} :
    R s (State.writeWakeCtl x w) := by
  unfold State.writeWakeCtl
  with_reducible repeat' first
    | exact hk | apply Keeps.refl | apply State.stageWr_keeps | apply State.cond_keeps | apply State.toC9_keeps
    | apply State.putBoth_keeps | intro _ | apply Keeps.ite | dsimp only | split

theorem State.writeGlobal_keeps [Kept R] [KRegs R] [KFrc R] [KStaged R] [KIsl R] [KClk R] [KSea R] [KUnit R] [KAlm R] {s x :
    State} (hk :
    R s x) {a} {w} :
    R s (State.writeGlobal x a w) := by
  unfold State.writeGlobal
  with_reducible repeat' first
    | exact hk | apply Keeps.refl | apply State.stageWr_keeps | apply State.nvmCmd_keeps | apply State.writeAlmanac_keeps
    | apply State.refreshFault_keeps | apply State.nvmData_keeps | apply State.epactStart_keeps
    | apply State.clearNow_keeps | apply State.writeAt_keeps | apply State.putNow_keeps | apply State.writeWakeCtl_keeps
    | apply State.cond_keeps | apply State.writeEpact_keeps | apply State.toC9_keeps | apply State.writeLeap_keeps
    | apply State.nvmAddr_keeps | apply State.writeSeason_keeps | refine Keeps.fst ?_ (by assumption) | intro _
    | apply Keeps.ite | dsimp only | split

theorem State.writeBankReg_keeps [Kept R] [KRegs R] [KFrc R] [KStaged R] [KLed R] [KBank R] [KSrc R] [KAe R] {s x : State}
    (hk :
    R s x) {a} {b} {o} {w} :
    R s (State.writeBankReg x a b o w) := by
  unfold State.writeBankReg
  with_reducible repeat' first
    | exact hk | apply Keeps.refl | apply State.srcFaultClear_keeps | apply State.gated_keeps | apply State.stageWr_keeps
    | apply State.writeBankMode_keeps | apply State.writeSrcCtl_keeps | apply State.writeAeCtl_keeps
    | apply State.clearNow_keeps | apply State.writeAt_keeps | apply State.putNow_keeps | apply State.cond_keeps
    | apply State.writeVecPeriod_keeps | apply State.writeThen_keeps | intro _ | apply Keeps.ite | dsimp only | split

theorem State.writeChanReg_keeps [Kept R] [KRegs R] [KFrc R] [KStaged R] [KLed R] [KChan R] {s x : State} (hk :
    R s x) {a} {c} {o} {w} :
    R s (State.writeChanReg x a c o w) := by
  unfold State.writeChanReg
  with_reducible repeat' first
    | exact hk | apply Keeps.refl | apply State.gated_keeps | apply State.stageWr_keeps | apply State.w1c_keeps
    | apply State.writeLatch_keeps | apply State.writeChMode_keeps | apply State.clearNow_keeps
    | apply State.writeAt_keeps | apply State.writePmuCtl_keeps | apply State.putNow_keeps | apply State.cond_keeps
    | intro _ | apply Keeps.ite | dsimp only | split

theorem State.writeRouterReg_keeps [Kept R] [KRegs R] [KFrc R] [KStaged R] [KIsl R] [KRt R] {s x : State} (hk :
    R s x) {a} {w} :
    R s (State.writeRouterReg x a w) := by
  unfold State.writeRouterReg
  with_reducible repeat' first
    | exact hk | apply Keeps.refl | apply State.gated_keeps | apply State.clearNow_keeps | apply State.writeAt_keeps
    | apply State.putNow_keeps | apply State.cond_keeps | apply State.updRt_keeps | apply State.toC9_keeps
    | exact fun _ => Router.wf_of rfl | intro _ | apply Keeps.ite | dsimp only | split

theorem State.writeRfReg_keeps [Kept R] [KRegs R] [KFrc R] [KStaged R] [KLed R] [KPort R] [KRt R] {s x : State} (hk :
    R s x) {a} {o} {w} :
    R s (State.writeRfReg x a o w) := by
  unfold State.writeRfReg
  with_reducible repeat' first
    | exact hk | apply Keeps.refl | apply State.gated_keeps | apply State.stageWr_keeps | apply State.writeRfReq_keeps
    | apply State.writeTxCmd_keeps | apply State.clearNow_keeps | apply State.writeAt_keeps | apply State.putNow_keeps
    | apply State.cond_keeps | apply State.writeRxCtl_keeps | intro _ | apply Keeps.ite | dsimp only | split

theorem State.writeCalReg_keeps [Kept R] [KRegs R] [KFrc R] [KStaged R] {s x : State} (hk :
    R s x) {a} {w} :
    R s (State.writeCalReg x a w) := by
  unfold State.writeCalReg
  with_reducible repeat' first
    | exact hk | apply Keeps.refl | apply State.stageWr_keeps | apply State.clearNow_keeps | apply State.writeAt_keeps
    | apply State.putNow_keeps | apply State.cond_keeps | apply State.refreshInfo_keeps | apply State.writeThen_keeps
    | intro _ | apply Keeps.ite | dsimp only | split

theorem State.supersede_keeps [Kept R] [KStaged R] {s x : State} (hk :
    R s x) {a} {due} :
    R s (State.supersede x a due) := by
  unfold State.supersede
  with_reducible repeat' first
    | exact hk | apply Keeps.refl | apply State.updStaged_keeps | intro _ | apply Keeps.ite | dsimp only | split

theorem State.writeAddr_keeps [Kept R] [KRegs R] [KFrc R] [KMem R] [KBs R] [KStaged R] [KLed R] [KChan R] [KBank R] [KSrc R]
    [KAe R] [KPort R] [KIsl R] [KClk R] [KSea R] [KUnit R] [KAlm R] [KRt R] {s x : State} (hk :
    R s x) {a} {w} :
    R s (State.writeAddr x a w) := by
  unfold State.writeAddr
  with_reducible repeat' first
    | exact hk | apply Keeps.refl | apply State.gated_keeps | apply State.writeRfReg_keeps
    | apply State.writeChanReg_keeps | apply State.vmWrite_keeps | apply State.writeCalReg_keeps | apply State.memWr_keeps
    | apply State.storeWrite_keeps | apply State.writeBankReg_keeps | apply State.writeRouterReg_keeps
    | apply State.writeGlobal_keeps | refine Keeps.fst ?_ (by assumption) | intro _ | apply Keeps.ite | dsimp only | split

theorem State.writeReg_keeps [Kept R] [KRegs R] [KFrc R] [KMem R] [KBs R] [KStaged R] [KLed R] [KChan R] [KBank R] [KSrc R]
    [KAe R] [KPort R] [KIsl R] [KClk R] [KSea R] [KUnit R] [KAlm R] [KRing R] [KRt R] {s x : State} (hk :
    R s x) {a} {w} :
    R s (State.writeReg x a w) := by
  unfold State.writeReg
  with_reducible repeat' first
    | exact hk | apply Keeps.refl | apply State.supersede_keeps | apply State.writeAddr_keeps
    | apply State.hideTimed_keeps | intro _ | apply Keeps.ite | dsimp only | split

theorem State.hostWrite_keeps [Kept R] [KRegs R] [KFrc R] [KMem R] [KBs R] [KStaged R] [KLed R] [KChan R] [KBank R] [KSrc R]
    [KAe R] [KPort R] [KIsl R] [KClk R] [KSea R] [KUnit R] [KAlm R] [KRing R] [KRt R] {s x : State} (hk :
    R s x) {h} {cyc} {a} {v} :
    R s (State.hostWrite x h cyc a v).1 := by
  unfold State.hostWrite
  with_reducible repeat' first
    | exact hk | apply Keeps.refl | apply State.fset_keeps | apply State.writeReg_keeps | intro _ | apply Keeps.ite
    | dsimp only | split

theorem State.readClear_keeps [Kept R] [KRegs R] {s x : State} (hk : R s x) {a} : R s (State.readClear x a).1 := by
  unfold State.readClear
  with_reducible repeat' first
    | exact hk | apply Keeps.refl | apply State.wr_keeps | intro _ | apply Keeps.ite | dsimp only | split

theorem State.readWord_keeps [Kept R] [KRegs R] [KLat R] [KChan R] [KSea R] [KAlm R] {s x : State} (hk :
    R s x) {h} {cyc} {a} :
    R s (State.readWord x h cyc a).1 := by
  unfold State.readWord
  with_reducible repeat' first
    | exact hk | apply Keeps.refl | apply State.popEdge_keeps | apply State.readPmuRes_keeps | apply State.readCount_keeps
    | apply State.latch_keeps | apply State.nvmData_keeps | apply State.readClear_keeps
    | refine Keeps.fst ?_ (by assumption) | intro _ | apply Keeps.ite | dsimp only | split

theorem State.wregCommit_keeps [Kept R] [KRegs R] [KFrc R] [KMem R] [KBs R] [KStaged R] [KLed R] [KChan R] [KBank R] [KSrc
    R] [KAe R] [KPort R] [KIsl R] [KClk R] [KSea R] [KUnit R] [KAlm R] [KRing R] [KRt R] {s x : State} (hk :
    R s x) {b} :
    R s (State.wregCommit x b) := by
  unfold State.wregCommit
  with_reducible repeat' first
    | exact hk | apply Keeps.refl | apply State.updStaged_keeps | apply State.updBk_keeps | apply State.writeReg_keeps
    | apply Keeps.foldl | apply Keeps.foldlP | intro _ | apply Keeps.ite | dsimp only | split

theorem execRegisterWrite_keeps [Kept R] [KRegs R] [KFrc R] [KMem R] [KBs R] [KStaged R] [KLed R] [KChan R] [KBank R] [KSrc
    R] [KAe R] [KPort R] [KIsl R] [KClk R] [KSea R] [KUnit R] [KAlm R] [KRing R] [KRt R] {s : State} {addr} {w} :
    KeepsOut R s (execRegisterWrite addr w s) := by
  unfold execRegisterWrite
  with_reducible repeat' first
    | apply KeepsOut.ok | apply KeepsOut.next | apply Keeps.refl | apply State.writeReg_keeps | intro _ | apply Keeps.ite
    | dsimp only | split

theorem execPowerCapWrite_keeps [Kept R] [KRegs R] [KStaged R] {s : State} {w} : KeepsOut R s (execPowerCapWrite w s) := by
  unfold execPowerCapWrite
  with_reducible repeat' first
    | apply KeepsOut.ok | apply KeepsOut.next | apply Keeps.refl | apply State.writeAt_keeps | intro _ | apply Keeps.ite
    | dsimp only | split

theorem execPowerDieCapWrite_keeps [Kept R] [KRegs R] [KStaged R] {s : State} {half} {w} :
    KeepsOut R s (execPowerDieCapWrite half w s) := by
  unfold execPowerDieCapWrite
  with_reducible repeat' first
    | apply KeepsOut.ok | apply KeepsOut.next | apply Keeps.refl | apply State.writeAt_keeps | intro _ | apply Keeps.ite
    | dsimp only | split

theorem execHeldBackEnqueue_keeps [Kept R] [KRegs R] [KLed R] {s : State} : KeepsOut R s (execHeldBackEnqueue s) := by
  unfold execHeldBackEnqueue
  with_reducible repeat' first
    | apply KeepsOut.ok | apply KeepsOut.next | apply Keeps.refl | apply State.placeHeld_keeps | intro _ | apply Keeps.ite
    | dsimp only | split

theorem execLedgerRequestAged_keeps [Kept R] [KLed R] {s : State} {id} : KeepsOut R s (execLedgerRequestAged id s) := by
  unfold execLedgerRequestAged
  with_reducible repeat' first
    | apply KeepsOut.ok | apply KeepsOut.next | apply Keeps.refl | apply State.ageRequest_keeps | intro _
    | apply Keeps.ite | dsimp only | split

theorem execWregCommit_keeps [Kept R] [KRegs R] [KFrc R] [KMem R] [KBs R] [KStaged R] [KLed R] [KChan R] [KBank R] [KSrc R]
    [KAe R] [KPort R] [KIsl R] [KClk R] [KSea R] [KUnit R] [KAlm R] [KRing R] [KRt R] {s : State} {b} :
    KeepsOut R s (execWregCommit b s) := by
  unfold execWregCommit
  with_reducible repeat' first
    | apply KeepsOut.ok | apply KeepsOut.next | apply Keeps.refl | apply State.wregCommit_keeps | intro _
    | apply Keeps.ite | dsimp only | split

theorem execRingErrRead_keeps [Kept R] [KRegs R] {s : State} {inp} : KeepsOut R s (execRingErrRead inp s) := by
  unfold execRingErrRead
  with_reducible repeat' first
    | apply KeepsOut.ok | apply KeepsOut.next | apply Keeps.refl | apply State.wr_keeps | intro _ | apply Keeps.ite
    | dsimp only | split

end Sys2Proof.Machine
end

