-- ==== Sys2Proof/Laws/KeepsRing.lean ====
section
/-! SUPPORT. `Keeps` of the operations of Machine/Ring.lean. -/

namespace Sys2Proof.Machine

variable {R : State → State → Prop}

theorem State.ringCount_keeps [Kept R] [KRegs R] {s x : State} (hk : R s x) {inp} {f} : R s (State.ringCount x inp f) := by
  unfold State.ringCount
  with_reducible repeat' first
    | exact hk | apply Keeps.refl | apply State.inc_keeps | intro _ | apply Keeps.ite | dsimp only | split

theorem State.setAddr_keeps [Kept R] [KRegs R] [KRing R] {s x : State} (hk : R s x) {c} : R s (State.setAddr x c) := by
  unfold State.setAddr
  with_reducible repeat' first
    | exact hk | apply Keeps.refl | apply State.wr_keeps | apply State.updRing_keeps | intro _ | apply Keeps.ite
    | dsimp only | split

theorem State.emit_keeps [Kept R] [KRing R] {s x : State} (hk : R s x) {dir} {p} : R s (State.emit x dir p) := by
  unfold State.emit
  with_reducible repeat' first
    | exact hk | apply Keeps.refl | apply State.updRing_keeps | intro _ | apply Keeps.ite | dsimp only | split

theorem State.setOut_keeps [Kept R] [KRing R] {s x : State} (hk : R s x) {h} {l} : R s (State.setOut x h l) := by
  unfold State.setOut
  with_reducible repeat' first
    | exact hk | apply Keeps.refl | apply State.updRing_keeps | intro _ | apply Keeps.ite | dsimp only | split

theorem State.respond_keeps [Kept R] [KRing R] {s x : State} (hk :
    R s x) {h} {p} {status} {ws} :
    R s (State.respond x h p status ws) := by
  unfold State.respond
  with_reducible repeat' first
    | exact hk | apply Keeps.refl | apply State.setOut_keeps | intro _ | apply Keeps.ite | dsimp only | split

theorem State.setRequests_keeps [Kept R] [KRing R] {s x : State} (hk :
    R s x) {h} {l} {k} :
    R s (State.setRequests x h l k) := by
  unfold State.setRequests
  with_reducible repeat' first
    | exact hk | apply Keeps.refl | apply State.updRing_keeps | intro _ | apply Keeps.ite | dsimp only | split

theorem State.wordDone_keeps [Kept R] [KRing R] {s x : State} (hk :
    R s x) {h} {w} {status} :
    R s (State.wordDone x h w status) := by
  unfold State.wordDone
  with_reducible repeat' first
    | exact hk | apply Keeps.refl | apply State.setRequests_keeps | intro _ | apply Keeps.ite | dsimp only | split

theorem State.showTimed_keeps [Kept R] [KRegs R] {s x : State} (hk : R s x) : R s (State.showTimed x) := by
  unfold State.showTimed
  with_reducible repeat' first
    | exact hk | apply Keeps.refl | apply State.fset_keeps | intro _ | apply Keeps.ite | dsimp only | split

theorem State.holdTimed_keeps [Kept R] [KRegs R] [KRing R] {s x : State} (hk :
    R s x) {h} {p} {at_} :
    R s (State.holdTimed x h p at_).1 := by
  unfold State.holdTimed
  with_reducible repeat' first
    | exact hk | apply Keeps.refl | apply State.showTimed_keeps | apply State.cond_keeps | apply State.raiseF_keeps
    | apply State.updRing_keeps | intro _ | apply Keeps.ite | dsimp only | split

theorem State.displaceTimed_keeps [Kept R] [KRing R] {s x : State} (hk :
    R s x) {cyc} {a} :
    R s (State.displaceTimed x cyc a) := by
  unfold State.displaceTimed
  with_reducible repeat' first
    | exact hk | apply Keeps.refl | apply State.updRing_keeps | intro _ | apply Keeps.ite | dsimp only | split

theorem State.serveStep_keeps [Kept R] [KRegs R] [KFrc R] [KLat R] [KMem R] [KBs R] [KStaged R] [KLed R] [KChan R] [KBank R]
    [KSrc R] [KAe R] [KPort R] [KIsl R] [KClk R] [KSea R] [KUnit R] [KAlm R] [KRing R] [KRt R] {s x t : State} (hk :
    R s x) {h} {cyc} (e : State.serveStep x h cyc = some t) :
    R s t := by
  have key : ∀ u, x.serveStep h cyc = some u → R s u := by
    unfold State.serveStep
    dsimp only
    repeat' first
      | split
      | (intro u e; cases e)
    all_goals with_reducible repeat' first
      | exact hk | apply Keeps.refl | apply State.respond_keeps | apply State.setRequests_keeps | apply
    State.holdTimed_keeps
      | apply State.ringCommand_keeps | apply State.readWord_keeps | apply State.hostWrite_keeps | apply
    State.wordDone_keeps
      | apply State.displaceTimed_keeps | apply State.raiseF_keeps | apply State.cond_keeps | intro _ | apply Keeps.ite
  exact key t e

theorem State.serve_keeps [Kept R] [KRegs R] [KFrc R] [KLat R] [KMem R] [KBs R] [KStaged R] [KLed R] [KChan R] [KBank R]
    [KSrc R] [KAe R] [KPort R] [KIsl R] [KClk R] [KSea R] [KUnit R] [KAlm R] [KRing R] [KRt R] {s x : State} (hk :
    R s x) {h} {cyc} {a} :
    R s (State.serve h cyc a x) := by
  induction a generalizing x with
  | zero => unfold State.serve; exact hk
  | succ n ih =>
    unfold State.serve
    split
    · rename_i e; exact ih (State.serveStep_keeps hk e)
    · exact hk

theorem State.takeRequest_keeps [Kept R] [KRegs R] [KFrc R] [KLat R] [KMem R] [KBs R] [KStaged R] [KLed R] [KChan R] [KBank
    R] [KSrc R] [KAe R] [KPort R] [KIsl R] [KClk R] [KSea R] [KUnit R] [KAlm R] [KRing R] [KRt R] {s x : State} (hk :
    R s x) {p} {cyc} :
    R s (State.takeRequest x p cyc) := by
  unfold State.takeRequest
  with_reducible repeat' first
    | exact hk | apply Keeps.refl | apply State.serve_keeps | apply State.setRequests_keeps | apply State.respond_keeps
    | apply State.cond_keeps | apply State.raiseF_keeps | intro _ | apply Keeps.ite | dsimp only | split

theorem State.storeAsk_keeps [Kept R] [KRegs R] [KRt R] {s x : State} (hk : R s x) : R s (State.storeAsk x) := by
  unfold State.storeAsk
  with_reducible repeat' first
    | exact hk | apply Keeps.refl | apply State.arbRequest_keeps | apply State.cond_keeps | apply Keeps.foldl
    | apply Keeps.foldlP | intro _ | apply Keeps.ite | dsimp only | split

theorem State.timedDue_keeps [Kept R] [KRegs R] [KFrc R] [KMem R] [KBs R] [KStaged R] [KLed R] [KChan R] [KBank R] [KSrc R]
    [KAe R] [KPort R] [KIsl R] [KClk R] [KSea R] [KUnit R] [KAlm R] [KRing R] [KRt R] {s x : State} (hk :
    R s x) {at_} :
    R s (State.timedDue x at_) := by
  unfold State.timedDue
  with_reducible repeat' first
    | exact hk | apply Keeps.refl | apply State.showTimed_keeps | apply State.writeReg_keeps | apply State.updRing_keeps
    | apply Keeps.foldl | apply Keeps.foldlP | intro _ | apply Keeps.ite | dsimp only | split

theorem State.giveAddr_keeps [Kept R] [KRegs R] [KBs R] [KLed R] [KBank R] [KSrc R] [KAe R] [KIsl R] [KSea R] [KUnit R] [KSt
    R] [KAlm R] [KRing R] [KRt R] {s x : State} (hk :
    R s x) {c} :
    R s (State.giveAddr x c) := by
  unfold State.giveAddr
  with_reducible repeat' first
    | exact hk | apply Keeps.refl | apply State.enumerated_keeps | apply State.raiseIf_keeps | apply State.setAddr_keeps
    | apply State.updRing_keeps | intro _ | apply Keeps.ite | dsimp only | split

theorem State.actEnum_keeps [Kept R] [KRegs R] [KBs R] [KLed R] [KBank R] [KSrc R] [KAe R] [KIsl R] [KSea R] [KUnit R] [KSt
    R] [KAlm R] [KRing R] [KRt R] {s x : State} (hk :
    R s x) {w} :
    R s (State.actEnum x w).1 := by
  unfold State.actEnum
  with_reducible repeat' first
    | exact hk | apply Keeps.refl | apply State.giveAddr_keeps | apply State.raiseF_keeps | intro _ | apply Keeps.ite
    | dsimp only | split

theorem State.forward_keeps [Kept R] [KRegs R] [KRing R] {s x : State} (hk :
    R s x) {inp} {p} :
    R s (State.forward x inp p) := by
  unfold State.forward
  with_reducible repeat' first
    | exact hk | apply Keeps.refl | apply State.ringCount_keeps | apply State.cond_keeps | apply State.emit_keeps
    | intro _ | apply Keeps.ite | dsimp only | split

theorem State.consume_keeps [Kept R] [KRegs R] [KFrc R] [KLat R] [KMem R] [KBs R] [KStaged R] [KLed R] [KChan R] [KBank R]
    [KSrc R] [KAe R] [KPort R] [KIsl R] [KClk R] [KSea R] [KUnit R] [KAlm R] [KRing R] [KRt R] {s x : State} (hk :
    R s x) {inp} {p} {cyc} :
    R s (State.consume x inp p cyc) := by
  unfold State.consume
  with_reducible repeat' first
    | exact hk | apply Keeps.refl | apply State.ringCount_keeps | apply State.takeRequest_keeps | intro _
    | apply Keeps.ite | dsimp only | split

theorem State.copyPkt_keeps [Kept R] [KRegs R] [KFrc R] [KLat R] [KMem R] [KBs R] [KStaged R] [KLed R] [KChan R] [KBank R]
    [KSrc R] [KAe R] [KPort R] [KIsl R] [KClk R] [KSea R] [KUnit R] [KSt R] [KAlm R] [KRing R] [KRt R] {s x : State} (hk :
    R s x) {inp} {p} {cyc} :
    R s (State.copyPkt x inp p cyc) := by
  unfold State.copyPkt
  with_reducible repeat' first
    | exact hk | apply Keeps.refl | apply State.actEnum_keeps | apply State.ringCount_keeps
    | apply State.takeRequest_keeps | apply State.forward_keeps | refine Keeps.fst ?_ (by assumption) | intro _
    | apply Keeps.ite | dsimp only | split

theorem State.arrive_keeps [Kept R] [KRegs R] [KFrc R] [KLat R] [KMem R] [KBs R] [KStaged R] [KLed R] [KChan R] [KBank R]
    [KSrc R] [KAe R] [KPort R] [KIsl R] [KClk R] [KSea R] [KUnit R] [KSt R] [KAlm R] [KRing R] [KRt R] {s x : State} (hk :
    R s x) {inp} {p} {cyc} :
    R s (State.arrive x inp p cyc) := by
  unfold State.arrive
  with_reducible repeat' first
    | exact hk | apply Keeps.refl | apply State.ringCount_keeps | apply State.forward_keeps | apply State.cond_keeps
    | apply State.consume_keeps | apply State.raiseF_keeps | apply State.copyPkt_keeps | intro _ | apply Keeps.ite
    | dsimp only | split

theorem State.sendPacket_keeps [Kept R] [KRing R] [KRt R] {s x : State} (hk : R s x) {h} : R s (State.sendPacket x h) := by
  unfold State.sendPacket
  with_reducible repeat' first
    | exact hk | apply Keeps.refl | apply State.setOut_keeps | apply State.updRt_keeps | apply State.updRing_keeps
    | apply State.emit_keeps | exact fun _ => Router.wf_of rfl | intro _ | apply Keeps.ite | dsimp only | split

theorem State.setFresh_keeps [Kept R] [KRing R] {s x : State} (hk :
    R s x) {inp} {fresh} {ready} :
    R s (State.setFresh x inp fresh ready) := by
  unfold State.setFresh
  with_reducible repeat' first
    | exact hk | apply Keeps.refl | apply State.updRing_keeps | intro _ | apply Keeps.ite | dsimp only | split

theorem State.showInput_keeps [Kept R] [KRegs R] {s x : State} (hk : R s x) {inp} : R s (State.showInput x inp) := by
  unfold State.showInput
  with_reducible repeat' first
    | exact hk | apply Keeps.refl | apply State.fbit_keeps | intro _ | apply Keeps.ite | dsimp only | split

theorem State.aliveIn_keeps [Kept R] [KRegs R] [KRing R] {s x : State} (hk :
    R s x) {inp} {ready} :
    R s (State.aliveIn x inp ready) := by
  unfold State.aliveIn
  with_reducible repeat' first
    | exact hk | apply Keeps.refl | apply State.showInput_keeps | apply State.setFresh_keeps | intro _ | apply Keeps.ite
    | dsimp only | split

theorem State.inputDown_keeps [Kept R] [KRegs R] [KRing R] {s x : State} (hk :
    R s x) {inp} :
    R s (State.inputDown x inp) := by
  unfold State.inputDown
  with_reducible repeat' first
    | exact hk | apply Keeps.refl | apply State.showInput_keeps | apply State.fset_keeps | apply State.setFresh_keeps
    | apply State.raiseF_keeps | intro _ | apply Keeps.ite | dsimp only | split

theorem State.unwrapSide_keeps [Kept R] [KRegs R] {s x : State} (hk : R s x) {inp} : R s (State.unwrapSide x inp) := by
  unfold State.unwrapSide
  with_reducible repeat' first
    | exact hk | apply Keeps.refl | apply State.fset_keeps | apply State.cond_keeps | intro _ | apply Keeps.ite
    | dsimp only | split

theorem execRead_keeps [Kept R] [KRegs R] [KFrc R] [KLat R] [KMem R] [KBs R] [KStaged R] [KLed R] [KChan R] [KBank R] [KSrc
    R] [KAe R] [KPort R] [KIsl R] [KClk R] [KSea R] [KUnit R] [KSt R] [KAlm R] [KRing R] [KRt R] {s : State} {inp} {p} {cyc}
    :
    KeepsOut R s (execRead inp p cyc s) := by
  unfold execRead
  with_reducible repeat' first
    | apply KeepsOut.ok | apply KeepsOut.next | apply Keeps.refl | apply State.arrive_keeps | intro _ | apply Keeps.ite
    | dsimp only | split

theorem execWrite_keeps [Kept R] [KRegs R] [KFrc R] [KLat R] [KMem R] [KBs R] [KStaged R] [KLed R] [KChan R] [KBank R] [KSrc
    R] [KAe R] [KPort R] [KIsl R] [KClk R] [KSea R] [KUnit R] [KSt R] [KAlm R] [KRing R] [KRt R] {s : State} {inp} {p} {cyc}
    :
    KeepsOut R s (execWrite inp p cyc s) := by
  unfold execWrite
  with_reducible repeat' first
    | apply KeepsOut.ok | apply KeepsOut.next | apply Keeps.refl | apply State.arrive_keeps | intro _ | apply Keeps.ite
    | dsimp only | split

theorem execWriteNr_keeps [Kept R] [KRegs R] [KFrc R] [KLat R] [KMem R] [KBs R] [KStaged R] [KLed R] [KChan R] [KBank R]
    [KSrc R] [KAe R] [KPort R] [KIsl R] [KClk R] [KSea R] [KUnit R] [KSt R] [KAlm R] [KRing R] [KRt R] {s : State} {inp} {p}
    {cyc} :
    KeepsOut R s (execWriteNr inp p cyc s) := by
  unfold execWriteNr
  with_reducible repeat' first
    | apply KeepsOut.ok | apply KeepsOut.next | apply Keeps.refl | apply State.arrive_keeps | intro _ | apply Keeps.ite
    | dsimp only | split

theorem execCommand_keeps [Kept R] [KRegs R] [KFrc R] [KLat R] [KMem R] [KBs R] [KStaged R] [KLed R] [KChan R] [KBank R]
    [KSrc R] [KAe R] [KPort R] [KIsl R] [KClk R] [KSea R] [KUnit R] [KSt R] [KAlm R] [KRing R] [KRt R] {s : State} {inp} {p}
    {cyc} :
    KeepsOut R s (execCommand inp p cyc s) := by
  unfold execCommand
  with_reducible repeat' first
    | apply KeepsOut.ok | apply KeepsOut.next | apply Keeps.refl | apply State.arrive_keeps | intro _ | apply Keeps.ite
    | dsimp only | split

theorem execEnum_keeps [Kept R] [KRegs R] [KFrc R] [KLat R] [KMem R] [KBs R] [KStaged R] [KLed R] [KChan R] [KBank R] [KSrc
    R] [KAe R] [KPort R] [KIsl R] [KClk R] [KSea R] [KUnit R] [KSt R] [KAlm R] [KRing R] [KRt R] {s : State} {inp} {p} :
    KeepsOut R s (execEnum inp p s) := by
  unfold execEnum
  with_reducible repeat' first
    | apply KeepsOut.ok | apply KeepsOut.next | apply Keeps.refl | apply State.arrive_keeps | intro _ | apply Keeps.ite
    | dsimp only | split

theorem execTransitPacket_keeps [Kept R] [KRegs R] [KFrc R] [KLat R] [KMem R] [KBs R] [KStaged R] [KLed R] [KChan R] [KBank
    R] [KSrc R] [KAe R] [KPort R] [KIsl R] [KClk R] [KSea R] [KUnit R] [KSt R] [KAlm R] [KRing R] [KRt R] {s : State} {inp}
    {p} :
    KeepsOut R s (execTransitPacket inp p s) := by
  unfold execTransitPacket
  with_reducible repeat' first
    | apply KeepsOut.ok | apply KeepsOut.next | apply Keeps.refl | apply State.arrive_keeps | intro _ | apply Keeps.ite
    | dsimp only | split

theorem execPacketSend_keeps [Kept R] [KRing R] [KRt R] {s : State} {h} : KeepsOut R s (execPacketSend h s) := by
  unfold execPacketSend
  with_reducible repeat' first
    | apply KeepsOut.ok | apply KeepsOut.next | apply Keeps.refl | apply State.sendPacket_keeps | intro _
    | apply Keeps.ite | dsimp only | split

theorem execTimedWriteDue_keeps [Kept R] [KRegs R] [KFrc R] [KMem R] [KBs R] [KStaged R] [KLed R] [KChan R] [KBank R] [KSrc
    R] [KAe R] [KPort R] [KIsl R] [KClk R] [KSea R] [KUnit R] [KAlm R] [KRing R] [KRt R] {s : State} {at_} :
    KeepsOut R s (execTimedWriteDue at_ s) := by
  unfold execTimedWriteDue
  with_reducible repeat' first
    | apply KeepsOut.ok | apply KeepsOut.next | apply Keeps.refl | apply State.timedDue_keeps | intro _ | apply Keeps.ite
    | dsimp only | split

theorem execAlive_keeps [Kept R] [KRegs R] [KRing R] {s : State} {inp} {ready} {x2} {x3} :
    KeepsOut R s (execAlive inp ready x2 x3 s) := by
  unfold execAlive
  with_reducible repeat' first
    | apply KeepsOut.ok | apply KeepsOut.next | apply Keeps.refl | apply State.aliveIn_keeps | intro _ | apply Keeps.ite
    | dsimp only | split

theorem execAliveSend_keeps [Kept R] [KRing R] {s : State} : KeepsOut R s (execAliveSend s) := by
  unfold execAliveSend
  with_reducible repeat' first
    | apply KeepsOut.ok | apply KeepsOut.next | apply Keeps.refl | apply State.updRing_keeps | intro _ | apply Keeps.ite
    | dsimp only | split

theorem execWordAlignment_keeps [Kept R] [KRegs R] {s : State} {inp} : KeepsOut R s (execWordAlignment inp s) := by
  unfold execWordAlignment
  with_reducible repeat' first
    | apply KeepsOut.ok | apply KeepsOut.next | apply Keeps.refl | apply State.showInput_keeps | apply State.fset_keeps
    | intro _ | apply Keeps.ite | dsimp only | split

theorem execAlignmentLoss_keeps [Kept R] [KRegs R] {s : State} {inp} : KeepsOut R s (execAlignmentLoss inp s) := by
  unfold execAlignmentLoss
  with_reducible repeat' first
    | apply KeepsOut.ok | apply KeepsOut.next | apply Keeps.refl | apply State.showInput_keeps | apply State.fset_keeps
    | apply State.ringCount_keeps | intro _ | apply Keeps.ite | dsimp only | split

theorem execInputDown_keeps [Kept R] [KRegs R] [KRing R] {s : State} {inp} : KeepsOut R s (execInputDown inp s) := by
  unfold execInputDown
  with_reducible repeat' first
    | apply KeepsOut.ok | apply KeepsOut.next | apply Keeps.refl | apply State.inputDown_keeps | intro _ | apply Keeps.ite
    | dsimp only | split

theorem execUnwrap_keeps [Kept R] [KRegs R] {s : State} {inp} : KeepsOut R s (execUnwrap inp s) := by
  unfold execUnwrap
  with_reducible repeat' first
    | apply KeepsOut.ok | apply KeepsOut.next | apply Keeps.refl | apply State.unwrapSide_keeps | intro _
    | apply Keeps.ite | dsimp only | split

theorem execStoreWindowRead_keeps [Kept R] [KRegs R] [KFrc R] [KLat R] [KMem R] [KBs R] [KStaged R] [KLed R] [KChan R]
    [KBank R] [KSrc R] [KAe R] [KPort R] [KIsl R] [KClk R] [KSea R] [KUnit R] [KAlm R] [KRing R] [KRt R] {s : State} {h} {i}
    :
    KeepsOut R s (execStoreWindowRead h i s) := by
  unfold execStoreWindowRead
  with_reducible repeat' first
    | apply KeepsOut.ok | apply KeepsOut.next | apply Keeps.refl | apply State.serve_keeps | apply State.wordDone_keeps
    | apply State.updRing_keeps | intro _ | apply Keeps.ite | dsimp only | split

theorem execStoreWindowWrite_keeps [Kept R] [KRegs R] [KFrc R] [KLat R] [KMem R] [KBs R] [KStaged R] [KLed R] [KChan R]
    [KBank R] [KSrc R] [KAe R] [KPort R] [KIsl R] [KClk R] [KSea R] [KUnit R] [KAlm R] [KRing R] [KRt R] {s : State} {i}
    {val} :
    KeepsOut R s (execStoreWindowWrite i val s) := by
  unfold execStoreWindowWrite
  with_reducible repeat' first
    | apply KeepsOut.ok | apply KeepsOut.next | apply Keeps.refl | apply State.serve_keeps | apply State.wordDone_keeps
    | apply State.storeWrite_keeps | apply State.updRing_keeps | refine Keeps.fst ?_ (by assumption) | intro _
    | apply Keeps.ite | dsimp only | split

end Sys2Proof.Machine
end

