-- ==== Sys2Proof/Laws/KeepsBoundary.lean ====
section
/-! SUPPORT. `Keeps` of the operations of Machine/Boundary.lean. -/

namespace Sys2Proof.Machine

variable {R : State → State → Prop}

theorem State.takeDue_keeps [Kept R] [KStaged R] {s x : State} (hk :
    R s x) {p} {f : State → Staged → State} (hf : ∀ t y, R t (f t y)) :
    R s (State.takeDue x p f) := by
  unfold State.takeDue
  with_reducible repeat' first
    | exact hk | apply Keeps.refl | apply State.updStaged_keeps | apply Keeps.foldl | apply Keeps.foldlP | intro _
    | apply Keeps.ite | dsimp only | split | refine Keeps.trans ?_ (hf _ _)

theorem State.dropDue_keeps [Kept R] [KStaged R] {s x : State} (hk : R s x) {p} : R s (State.dropDue x p) := by
  unfold State.dropDue
  with_reducible repeat' first
    | exact hk | apply Keeps.refl | apply State.updStaged_keeps | intro _ | apply Keeps.ite | dsimp only | split

theorem State.clockStep_keeps [Kept R] [KRegs R] [KStaged R] [KLed R] [KClk R] [KSea R] [KUnit R] [KRing R] [KRt R] {s x :
    State} (hk :
    R s x) :
    R s (State.clockStep x) := by
  unfold State.clockStep
  with_reducible repeat' first
    | exact hk | apply Keeps.refl | apply State.updSea_keeps | apply State.updLed_keeps | apply State.seasonWait_keeps
    | apply State.updUnit_keeps | apply State.updRt_keeps | apply State.countHeld_keeps | apply State.updClk_keeps
    | apply State.updRing_keeps | apply Keeps.foldl | apply Keeps.foldlP | exact fun _ => Router.wf_of rfl
    | exact fun _ => rfl | exact fun _ => UnitSt.rail_st .. | intro _ | apply Keeps.ite | dsimp only | split

theorem State.aeEndTick_keeps [Kept R] [KRegs R] [KMem R] [KAe R] [KRt R] [KFree R] {s x : State} (hk :
    R s x) {inp} :
    R s (State.aeEndTick x inp) := by
  unfold State.aeEndTick
  with_reducible repeat' first
    | exact hk | apply Keeps.refl | apply State.upTo_keeps | apply State.aeEndOne_keeps | intro _ | apply Keeps.ite
    | dsimp only | split

theorem State.clearsDue_keeps [Kept R] [KRegs R] [KStaged R] [KChan R] {s x : State} (hk :
    R s x) :
    R s (State.clearsDue x) := by
  unfold State.clearsDue
  with_reducible repeat' first
    | exact hk | apply Keeps.refl | apply State.noSetBits_keeps | apply State.w1c_keeps | apply State.takeDue_keeps
    | apply State.clearFaults_keeps | apply State.setDrive_keeps | intro _ | apply Keeps.ite | dsimp only | split

theorem State.stagesDue_keeps [Kept R] [KRegs R] [KFrc R] [KMem R] [KStaged R] [KLed R] [KChan R] [KBank R] [KPmc R] [KSrc
    R] [KAe R] [KPort R] [KSyn R] [KIsl R] [KSea R] [KUnit R] [KCal R] [KAlm R] [KRt R] [KRf R] [KFree R] [KTarget R] {s x :
    State} (hk :
    R s x) :
    R s (State.stagesDue x) := by
  unfold State.stagesDue
  with_reducible repeat' first
    | exact hk | apply Keeps.refl | apply State.seasonAt_keeps | apply State.deepDown_keeps | apply State.takeDue_keeps
    | apply State.updUnit_keeps | apply State.reloadOver_keeps | apply State.raiseF_keeps | exact fun _ => rfl
    | exact fun _ => UnitSt.rail_st .. | intro _ | apply Keeps.ite | dsimp only | split

theorem State.forceWord_keeps [Kept R] [KFrc R] {s x : State} (hk : R s x) {a} {v} : R s (State.forceWord x a v) := by
  unfold State.forceWord
  with_reducible repeat' first
    | exact hk | apply Keeps.refl | apply State.setEff_keeps | intro _ | apply Keeps.ite | dsimp only | split

theorem State.forceBankReg_keeps [Kept R] [KRegs R] [KFrc R] [KMem R] [KStaged R] [KLed R] [KSrc R] [KAe R] [KRt R] {s x :
    State} (hk :
    R s x) {a} {b} {o} {v} :
    R s (State.forceBankReg x a b o v) := by
  unfold State.forceBankReg
  with_reducible repeat' first
    | exact hk | apply Keeps.refl | apply State.applyResp_keeps | apply State.applySrcCode_keeps
    | apply State.applyAeCtl_keeps | apply State.applySrcCtl_keeps | apply State.applyAeOfs_keeps
    | apply State.applyVecPeriod_keeps | apply State.forceWord_keeps | intro _ | apply Keeps.ite | dsimp only | split

theorem State.forceChanReg_keeps [Kept R] [KRegs R] [KFrc R] [KLed R] [KChan R] [KPmc R] [KAe R] [KIsl R] [KSea R] [KFree R]
    {s x : State} (hk :
    R s x) {mons} {a} {c} {o} {v} :
    R s (State.forceChanReg x mons a c o v) := by
  unfold State.forceChanReg
  with_reducible repeat' first
    | exact hk | apply Keeps.refl | apply State.applyPmuCtl_keeps | apply State.applyVigil_keeps
    | apply State.applyThreshold_keeps | apply State.refreshTest_keeps | apply State.applyFilter_keeps
    | apply State.forceWord_keeps | apply State.setEff_keeps | intro _ | apply Keeps.ite | dsimp only | split

theorem State.forceRf_keeps [Kept R] [KRegs R] [KFrc R] [KLed R] [KPort R] [KSyn R] {s x : State} (hk :
    R s x) {a} {o} {v} :
    R s (State.forceRf x a o v) := by
  unfold State.forceRf
  with_reducible repeat' first
    | exact hk | apply Keeps.refl | apply State.applyRxCtl_keeps | apply State.synFreq_keeps | apply State.synSelect_keeps
    | apply State.forceWord_keeps | apply State.setEff_keeps | intro _ | apply Keeps.ite | dsimp only | split

theorem State.force_keeps [Kept R] [KRegs R] [KFrc R] [KMem R] [KStaged R] [KLed R] [KChan R] [KPmc R] [KSrc R] [KAe R]
    [KPort R] [KSyn R] [KIsl R] [KSea R] [KRt R] [KFree R] {s x : State} (hk :
    R s x) {mons} {a} {v} :
    R s (State.force x mons a v) := by
  unfold State.force
  with_reducible repeat' first
    | exact hk | apply Keeps.refl | apply State.forceRf_keeps | apply State.applyRouter_keeps
    | apply State.forceChanReg_keeps | apply State.forceBankReg_keeps | apply State.forceWord_keeps | intro _
    | apply Keeps.ite | dsimp only | split

theorem State.forcesDue_keeps [Kept R] [KRegs R] [KFrc R] [KMem R] [KStaged R] [KLed R] [KChan R] [KPmc R] [KSrc R] [KAe R]
    [KPort R] [KSyn R] [KIsl R] [KSea R] [KRt R] [KFree R] {s x : State} (hk :
    R s x) {mons} :
    R s (State.forcesDue x mons) := by
  unfold State.forcesDue
  with_reducible repeat' first
    | exact hk | apply Keeps.refl | apply State.force_keeps | apply State.takeDue_keeps | intro _ | apply Keeps.ite
    | dsimp only | split

theorem State.haltsDue_keeps [Kept R] [KRegs R] [KFrc R] [KMem R] [KStaged R] [KLed R] [KChan R] [KBank R] [KPmc R] [KSrc R]
    [KAe R] [KIsl R] [KSea R] [KUnit R] [KRt R] [KFree R] {s x : State} (hk :
    R s x) :
    R s (State.haltsDue x) := by
  unfold State.haltsDue
  with_reducible repeat' first
    | exact hk | apply Keeps.refl | apply State.abortNow_keeps | apply State.errHaltNow_keeps | apply State.errDue_keeps
    | apply State.takeDue_keeps | apply State.dropDue_keeps | apply State.dieFaultNow_keeps | apply State.upTo_keeps
    | intro _ | apply Keeps.ite | dsimp only | split

theorem State.modesDue_keeps [Kept R] [KRegs R] [KFrc R] [KMem R] [KStaged R] [KLed R] [KChan R] [KBank R] [KPmc R] [KSrc R]
    [KAe R] [KIsl R] [KSea R] [KUnit R] [KRt R] [KFree R] {s x : State} (hk :
    R s x) {mons} :
    R s (State.modesDue x mons) := by
  unfold State.modesDue
  with_reducible repeat' first
    | exact hk | apply Keeps.refl | apply State.applyMode_keeps | apply State.takeDue_keeps | apply State.applyBank_keeps
    | apply State.updCh_keeps | apply State.pllIdle_keeps | apply State.upTo_keeps | intro _ | apply Keeps.ite
    | dsimp only | split

theorem State.seqDue_keeps [Kept R] [KRegs R] [KFrc R] [KStaged R] [KLed R] [KBank R] [KPmc R] [KRt R] {s x : State} (hk :
    R s x) :
    R s (State.seqDue x) := by
  unfold State.seqDue
  with_reducible repeat' first
    | exact hk | apply Keeps.refl | apply State.takeDue_keeps | apply State.seqStopNow_keeps | apply State.dropDue_keeps
    | apply State.seqGoNow_keeps | intro _ | apply Keeps.ite | dsimp only | split

theorem State.admitsDue_keeps [Kept R] [KRegs R] [KFrc R] [KStaged R] [KLed R] [KChan R] [KPmc R] [KSrc R] [KAe R] [KPort R]
    [KSyn R] [KUnit R] [KCal R] [KRt R] {s x : State} (hk :
    R s x) :
    R s (State.admitsDue x) := by
  unfold State.admitsDue
  with_reducible repeat' first
    | exact hk | apply Keeps.refl | apply State.calAbort_keeps | apply State.txCut_keeps | apply State.takeDue_keeps
    | apply State.srcAdmitted_keeps | apply State.txStop_keeps | apply State.aeAdmitted_keeps | apply State.cond_keeps
    | apply State.synFree_keeps | apply State.pmcBegin_keeps | apply State.calAdmitted_keeps | apply State.txDrop_keeps
    | apply State.rxStart_keeps | apply State.updPt_keeps | intro _ | apply Keeps.ite | dsimp only | split

theorem State.goStop_keeps [Kept R] {s x : State} (hk :
    R s x) {go} {stop} {goNow : State → State} (hgoNow : ∀ t, R t (goNow t)) {stopNow : State → State} (hstopNow : ∀ t, R t
    (stopNow t)) :
    R s (State.goStop x go stop goNow stopNow) := by
  unfold State.goStop
  with_reducible repeat' first
    | exact hk | apply Keeps.refl | intro _ | apply Keeps.ite | dsimp only | split | refine Keeps.trans ?_ (hgoNow _)
    | refine Keeps.trans ?_ (hstopNow _)

theorem State.commandsDue_keeps [Kept R] [KRegs R] [KMem R] [KStaged R] [KLed R] [KChan R] [KPmc R] [KSrc R] [KAe R] [KPort
    R] [KSyn R] [KCal R] [KRt R] {s x : State} (hk :
    R s x) :
    R s (State.commandsDue x) := by
  unfold State.commandsDue
  with_reducible repeat' first
    | exact hk | apply Keeps.refl | apply State.synCalGo_keeps | apply State.aePop_keeps | apply State.calStopNow_keeps
    | apply State.pmcGo_keeps | apply State.aeGoNow_keeps | apply State.takeDue_keeps | apply State.pmcStop_keeps
    | apply State.dropDue_keeps | apply State.goStop_keeps | apply State.calGoNow_keeps | apply State.playGo_keeps
    | apply State.synCalBegin_keeps | apply State.aeStopNow_keeps | apply State.playStop_keeps | intro _ | apply Keeps.ite
    | dsimp only | split

theorem State.setFlags_keeps [Kept R] [KFrc R] {s x : State} (hk :
    R s x) {b} {setM} {clrM} :
    R s (State.setFlags x b setM clrM) := by
  unfold State.setFlags
  with_reducible repeat' first
    | exact hk | apply Keeps.refl | apply State.setEff_keeps | intro _ | apply Keeps.ite | dsimp only | split

theorem State.flagsDue_keeps [Kept R] [KFrc R] [KStaged R] {s x : State} (hk : R s x) : R s (State.flagsDue x) := by
  unfold State.flagsDue
  with_reducible repeat' first
    | exact hk | apply Keeps.refl | apply State.takeDue_keeps | apply State.setFlags_keeps | apply State.forceWord_keeps
    | apply Keeps.foldl | apply Keeps.foldlP | intro _ | apply Keeps.ite | dsimp only | split

theorem State.routerDue_keeps [Kept R] [KRegs R] [KFrc R] [KMem R] [KStaged R] [KLed R] [KChan R] [KBank R] [KPmc R] [KSrc
    R] [KAe R] [KPort R] [KSyn R] [KIsl R] [KSea R] [KUnit R] [KCal R] [KAlm R] [KRing R] [KRt R] [KRf R] [KFree R] {s x :
    State} (hk :
    R s x) :
    R s (State.routerDue x) := by
  unfold State.routerDue
  with_reducible repeat' first
    | exact hk | apply Keeps.refl | apply State.aeTrigger_keeps | apply State.goAll_keeps | apply State.takeDue_keeps
    | apply State.raise_keeps | apply State.inc_keeps | apply State.reloadAt_keeps | apply State.updRt_keeps
    | apply State.toC9_keeps | apply State.notice_keeps | exact fun _ => Router.wf_of rfl | intro _ | apply Keeps.ite
    | dsimp only | split

theorem State.applyDue_keeps [Kept R] [KRegs R] [KFrc R] [KMem R] [KStaged R] [KLed R] [KChan R] [KBank R] [KPmc R] [KSrc R]
    [KAe R] [KPort R] [KSyn R] [KIsl R] [KSea R] [KUnit R] [KCal R] [KAlm R] [KRing R] [KRt R] [KRf R] [KFree R] [KTarget R]
    {s x : State} (hk :
    R s x) {mons} :
    R s (State.applyDue x mons) := by
  unfold State.applyDue
  with_reducible repeat' first
    | exact hk | apply Keeps.refl | apply State.seqDue_keeps | apply State.modesDue_keeps | apply State.admitsDue_keeps
    | apply State.flagsDue_keeps | apply State.forcesDue_keeps | apply State.commandsDue_keeps
    | apply State.stagesDue_keeps | apply State.routerDue_keeps | apply State.haltsDue_keeps | apply State.clearsDue_keeps
    | intro _ | apply Keeps.ite | dsimp only | split

theorem State.missTick_keeps [Kept R] [KRegs R] [KChan R] [KBank R] {s x : State} (hk :
    R s x) {b} :
    R s (State.missTick x b) := by
  unfold State.missTick
  with_reducible repeat' first
    | exact hk | apply Keeps.refl | apply State.handEnd_keeps | apply State.pinsSafe_keeps | apply State.updBk_keeps
    | apply State.raiseF_keeps | apply State.bankFault_keeps | intro _ | apply Keeps.ite | dsimp only | split

theorem State.driverLimits_keeps [Kept R] [KRegs R] [KChan R] {s x : State} (hk :
    R s x) {l} :
    R s (State.driverLimits x l) := by
  unfold State.driverLimits
  with_reducible repeat' first
    | exact hk | apply Keeps.refl | apply State.each_keeps | apply State.updCh_keeps | apply State.cond_keeps
    | apply State.raiseF_keeps | intro _ | apply Keeps.ite | dsimp only | split

theorem State.chanTick_keeps [Kept R] [KRegs R] [KBs R] [KLed R] [KChan R] [KPmc R] [KAe R] [KIsl R] [KSea R] [KRt R] [KFree
    R] {s x : State} (hk :
    R s x) {inp} :
    R s (State.chanTick x inp) := by
  unfold State.chanTick
  with_reducible repeat' first
    | exact hk | apply Keeps.refl | apply State.leaveVigil_keeps | apply State.each_keeps | apply State.cond_keeps
    | apply State.vigilSample_keeps | apply State.pmuTick_keeps | apply Keeps.foldl | apply Keeps.foldlP | intro _
    | apply Keeps.ite | dsimp only | split

theorem State.bankTick_keeps [Kept R] [KRegs R] [KFrc R] [KMem R] [KStaged R] [KLed R] [KChan R] [KBank R] [KPmc R] [KSrc R]
    [KAe R] [KIsl R] [KSea R] [KUnit R] [KRt R] [KFree R] {s x : State} (hk :
    R s x) :
    R s (State.bankTick x) := by
  unfold State.bankTick
  with_reducible repeat' first
    | exact hk | apply Keeps.refl | apply State.aeTick_keeps | apply State.missTick_keeps | apply State.pmcTick_keeps
    | apply State.each_keeps | apply State.seqCheck_keeps | apply State.srcTick_keeps | apply State.lockEntry_keeps
    | apply State.pllEntry_keeps | apply State.upTo_keeps | intro _ | apply Keeps.ite | dsimp only | split

theorem State.refreshFlags_keeps [Kept R] [KRegs R] {s x : State} (hk : R s x) : R s (State.refreshFlags x) := by
  unfold State.refreshFlags
  with_reducible repeat' first
    | exact hk | apply Keeps.refl | apply State.fset_keeps | apply State.upTo_keeps | intro _ | apply Keeps.ite
    | dsimp only | split

theorem State.refreshReports_keeps [Kept R] [KRegs R] [KAe R] [KUnit R] [KRing R] [KRt R] {s x : State} (hk :
    R s x) :
    R s (State.refreshReports x) := by
  unfold State.refreshReports
  with_reducible repeat' first
    | exact hk | apply Keeps.refl | apply State.refreshFlags_keeps | apply State.refreshUnit_keeps
    | apply State.refreshChanInt_keeps | apply State.refreshLanes_keeps | apply State.refreshInfo_keeps
    | apply State.refreshInt_keeps | intro _ | apply Keeps.ite | dsimp only | split

theorem State.boundary_keeps [Kept R] [KRegs R] [KFrc R] [KMem R] [KBs R] [KStaged R] [KLed R] [KChan R] [KBank R] [KPmc R]
    [KSrc R] [KAe R] [KPort R] [KSyn R] [KIsl R] [KClk R] [KSea R] [KUnit R] [KCal R] [KAlm R] [KRing R] [KRt R] [KRf R]
    [KFree R] [KTarget R] {s x : State} (hk :
    R s x) {inp} :
    R s (State.boundary x inp) := by
  unfold State.boundary
  with_reducible repeat' first
    | exact hk | apply Keeps.refl | apply State.rfTick_keeps | apply State.noSetBits_keeps
    | apply State.refreshReports_keeps | apply State.clockStep_keeps | apply State.updLed_keeps
    | apply State.chanTick_keeps | apply State.applyDue_keeps | apply State.seqTick_keeps | apply State.clampTick_keeps
    | apply State.calApply_keeps | apply State.aeEndTick_keeps | apply State.driverLimits_keeps
    | apply State.bankTick_keeps | apply State.calCheck_keeps | intro _ | apply Keeps.ite | dsimp only | split

theorem execTickBoundary_keeps [Kept R] [KRegs R] [KFrc R] [KMem R] [KBs R] [KStaged R] [KLed R] [KChan R] [KBank R] [KPmc
    R] [KSrc R] [KAe R] [KPort R] [KSyn R] [KIsl R] [KClk R] [KSea R] [KUnit R] [KCal R] [KAlm R] [KRing R] [KRt R] [KRf R]
    [KFree R] [KTarget R] {s : State} {inp} :
    KeepsOut R s (execTickBoundary inp s) := by
  unfold execTickBoundary
  with_reducible repeat' first
    | apply KeepsOut.ok | apply KeepsOut.next | apply Keeps.refl | apply State.boundary_keeps | intro _ | apply Keeps.ite
    | dsimp only | split

end Sys2Proof.Machine
end

