-- ==== Sys2Proof/Laws/KeepsWindow.lean ====
section
/-! SUPPORT. `Keeps` of the operations of Machine/Window.lean. -/

namespace Sys2Proof.Machine

variable {R : State → State → Prop}

theorem State.foreseen_keeps [Kept R] [KRegs R] [KFrc R] [KMem R] [KBs R] [KStaged R] [KLed R] [KChan R] [KBank R] [KPmc R]
    [KSrc R] [KAe R] [KPort R] [KSyn R] [KIsl R] [KClk R] [KSea R] [KUnit R] [KCal R] [KAlm R] [KRing R] [KRt R] [KRf R]
    [KFree R] [KTarget R] {s x : State} (hk :
    R s x) :
    R s (State.foreseen x) := by
  unfold State.foreseen
  with_reducible repeat' first
    | exact hk | apply Keeps.refl | apply State.rfTick_keeps | apply State.updLed_keeps | apply State.chanTick_keeps
    | apply State.applyDue_keeps | apply State.bankTick_keeps | apply State.updClk_keeps | intro _ | apply Keeps.ite
    | dsimp only | split

theorem State.phase1_keeps [Kept R] [KRegs R] [KStaged R] [KClk R] [KUnit R] [KRing R] {s x : State} (hk :
    R s x) {edge} :
    R s (State.phase1 x edge) := by
  unfold State.phase1
  with_reducible repeat' first
    | exact hk | apply Keeps.refl | apply State.recordFaults_keeps | apply State.setAddr_keeps
    | apply State.phaseMeasure_keeps | intro _ | apply Keeps.ite | dsimp only | split

theorem State.phase3_keeps [Kept R] [KRegs R] [KStaged R] [KLed R] [KPmc R] [KPort R] [KCal R] [KRing R] [KRt R] {s x :
    State} (hk :
    R s x) :
    R s (State.phase3 x) := by
  unfold State.phase3
  with_reducible repeat' first
    | exact hk | apply Keeps.refl | apply State.calRequest_keeps | apply State.storeAsk_keeps | apply State.calAsk_keeps
    | apply State.arbitrate_keeps | intro _ | apply Keeps.ite | dsimp only | split

theorem State.ledgerPhase_keeps [Kept R] [KRegs R] [KFrc R] [KMem R] [KBs R] [KStaged R] [KLed R] [KChan R] [KBank R] [KPmc
    R] [KSrc R] [KAe R] [KPort R] [KSyn R] [KIsl R] [KClk R] [KSea R] [KUnit R] [KCal R] [KAlm R] [KRing R] [KRt R] [KRf R]
    [KFree R] [KTarget R] {s x : State} (hk :
    R s x) :
    R s (State.ledgerPhase x) := by
  unfold State.ledgerPhase
  with_reducible repeat' first
    | exact hk | apply Keeps.refl | apply State.credit_keeps | apply State.phase4_keeps | apply State.wregAsk_keeps
    | apply State.foreseen_keeps | apply State.submitWaiting_keeps | apply State.upTo_keeps | intro _ | apply Keeps.ite
    | dsimp only | split

theorem State.countRefusals_keeps [Kept R] [KRegs R] [KLed R] {s x : State} (hk : R s x) : R s (State.countRefusals x) := by
  unfold State.countRefusals
  with_reducible repeat' first
    | exact hk | apply Keeps.refl | apply State.updLed_keeps | apply State.inc_keeps | intro _ | apply Keeps.ite
    | dsimp only | split

theorem State.phase5_keeps [Kept R] [KRegs R] [KLed R] [KChan R] [KAe R] [KIsl R] [KClk R] [KSea R] [KRt R] [KFree R] {s x :
    State} (hk :
    R s x) {evs} :
    R s (State.phase5 x evs) := by
  unfold State.phase5
  with_reducible repeat' first
    | exact hk | apply Keeps.refl | apply State.wakeLevel_keeps | apply State.updSea_keeps | apply State.countLosses_keeps
    | apply State.countRefusals_keeps | apply State.aeEvents_keeps | apply State.seasonLatch_keeps
    | apply State.latchEvents_keeps | apply State.cond_keeps | apply State.vigilEvents_keeps | intro _ | apply Keeps.ite
    | dsimp only | split

theorem State.phases_keeps [Kept R] [KRegs R] [KFrc R] [KMem R] [KBs R] [KStaged R] [KLed R] [KChan R] [KBank R] [KPmc R]
    [KSrc R] [KAe R] [KPort R] [KSyn R] [KIsl R] [KClk R] [KSea R] [KUnit R] [KCal R] [KAlm R] [KRing R] [KRt R] [KRf R]
    [KFree R] [KTarget R] {s x : State} (hk :
    R s x) {inp} :
    R s (State.phases x inp) := by
  unfold State.phases
  with_reducible repeat' first
    | exact hk | apply Keeps.refl | apply State.ledgerPhase_keeps | apply State.phase3_keeps | apply State.phase5_keeps
    | apply State.calPhase_keeps | apply State.routerPhase_keeps | apply State.rfWindow_keeps | intro _ | apply Keeps.ite
    | dsimp only | split

theorem State.window_keeps [Kept R] [KRegs R] [KFrc R] [KMem R] [KBs R] [KStaged R] [KLed R] [KChan R] [KBank R] [KPmc R]
    [KSrc R] [KAe R] [KPort R] [KSyn R] [KIsl R] [KClk R] [KSea R] [KUnit R] [KCal R] [KAlm R] [KRing R] [KRt R] [KRf R]
    [KFree R] [KTarget R] {s x : State} (hk :
    R s x) {inp} :
    R s (State.window x inp) := by
  unfold State.window
  with_reducible repeat' first
    | exact hk | apply Keeps.refl | apply State.phase1_keeps | apply State.cond_keeps | apply State.updRt_keeps
    | apply State.phases_keeps | exact fun _ => Router.wf_of rfl | intro _ | apply Keeps.ite | dsimp only | split

theorem execControlWindow_keeps [Kept R] [KRegs R] [KFrc R] [KMem R] [KBs R] [KStaged R] [KLed R] [KChan R] [KBank R] [KPmc
    R] [KSrc R] [KAe R] [KPort R] [KSyn R] [KIsl R] [KClk R] [KSea R] [KUnit R] [KCal R] [KAlm R] [KRing R] [KRt R] [KRf R]
    [KFree R] [KTarget R] {s : State} {inp} :
    KeepsOut R s (execControlWindow inp s) := by
  unfold execControlWindow
  with_reducible repeat' first
    | apply KeepsOut.ok | apply KeepsOut.next | apply Keeps.refl | apply State.window_keeps | intro _ | apply Keeps.ite
    | dsimp only | split

end Sys2Proof.Machine
end

