-- ==== Sys2Proof/Machine/Line.lean ====
section
/-! DEFINITION. The line of the Kelay ring (R385 to R388, R390): 40-bit symbols, the scrambler, the choice of BAL, word alignment, the
control symbols, and the symbols that a packet is sent as. A list of bits has the first bit sent at its head. -/

namespace Sys2Proof.Machine

/-! ### Scrambling (R386) -/

/-- The scrambler's sum x^39 + x^58: a bit with the 39th and the 58th line bit before it, the latest at the head of `h`. -/
def scrBit (h : List Bool) (b : Bool) : Bool := b != (h.getD 38 false != h.getD 57 false)

/-- The line bits that a scrambler remembers after one more. -/
def scrNext (h : List Bool) (c : Bool) : List Bool := (c :: h).take 58

/-- Word bits scrambled, with the line bits remembered after them. -/
def scramble : List Bool → List Bool → List Bool × List Bool
  | h, [] => (h, [])
  | h, b :: bs =>
    let c := scrBit h b
    let r := scramble (scrNext h c) bs
    (r.1, c :: r.2)

/-- Line bits descrambled, with the line bits remembered after them. -/
def descramble : List Bool → List Bool → List Bool × List Bool
  | h, [] => (h, [])
  | h, c :: cs =>
    let r := descramble (scrNext h c) cs
    (r.1, scrBit h c :: r.2)

/-! ### Symbols (R385) -/

/-- TYPE of a line symbol. -/
inductive SymType where
  | data
  | sop
  | eop
  | control
  deriving DecidableEq, Repr

/-- A symbol: its TYPE and its word. -/
structure Sym where
  type : SymType
  word : Word
  deriving DecidableEq, Repr

/-- Bits [39:38]. -/
def SymType.bits : SymType → List Bool
  | .data => [false, false]
  | .sop => [false, true]
  | .eop => [true, false]
  | .control => [true, true]

/-- TYPE read from bits [39:38]. -/
def symType (hi lo : Bool) : SymType :=
  if hi then (if lo then .control else .eop) else if lo then .sop else .data

/-- Thirty-six bits as a word. -/
def bitsWord (bs : List Bool) : Word := BitVec.ofNat 36 (bs.foldl (fun n b => n * 2 + bit01 b) 0)

/-- Ones less zeros. -/
def disparity (bs : List Bool) : Int := bs.foldl (fun n b => if b then n + 1 else n - 1) 0

/-! ### The sender -/

/-- What the sender of one lane keeps from symbol to symbol: the line bits scrambled last, the running disparity and the choice of BAL before. -/
structure LineTx where
  hist : List Bool
  disp : Int
  inv : Bool
  deriving DecidableEq, Repr

/-- Bits [39:2] of a symbol as they stand, and the scrambler after it: TYPE is not scrambled (R386). -/
def LineTx.body (t : LineTx) (y : Sym) : List Bool × List Bool :=
  let r := scramble t.hist (bitsDown y.word 36 0)
  (r.1, y.type.bits ++ r.2)

/-- BAL: whether bits [39:2] are sent inverted, the choice that brings the running disparity closer to zero, on a tie the one before. -/
def LineTx.choose (t : LineTx) (body : List Bool) : Bool :=
  let up := (t.disp + disparity body).natAbs
  let down := (t.disp - disparity body).natAbs
  if up < down then false else if down < up then true else t.inv

/-- A symbol sent: its 40 bits, bit 39 first, and the sender after it. -/
def LineTx.send (t : LineTx) (y : Sym) : LineTx × List Bool :=
  let b := t.body y
  let inv := t.choose b.2
  ({ hist := b.1, disp := if inv then t.disp - disparity b.2 else t.disp + disparity b.2, inv := inv },
    if inv then b.2.map (fun x => !x) ++ [false, true] else b.2 ++ [true, false])

/-! ### The receiver -/

/-- A symbol with BAL 0b00 or 0b11 is a code violation (R385), and so is a control symbol with code 0x3 to 0xF (R388). -/
def symViolates (y : Sym) : Bool := y.type == .control && decide (3 ≤ (Fld.mk 32 4).get y.word)

/-- The 40 bits of a symbol received (R386): the descrambler after it, and the symbol, which is none where BAL is a code
violation: its content is unknown, and the descrambler then takes the bits as they stand (DESIGN CHOICE, log entry 47). -/
def lineReceive (h : List Bool) (bits : List Bool) : List Bool × Option Sym :=
  let inv := !bits.getD 38 false && bits.getD 39 false
  let ok := bits.getD 38 false != bits.getD 39 false
  let body := if inv then (bits.take 38).map (fun x => !x) else bits.take 38
  let r := descramble h (body.drop 2)
  (r.1, if ok then some ⟨symType (body.getD 0 false) (body.getD 1 false), bitsWord r.2⟩ else none)

/-- A symbol received is a code violation. -/
def isViolation : Option Sym → Bool
  | none => true
  | some y => symViolates y

/-- Word alignment (R387): aligned or not, the symbols without a violation in a row at this bit offset, and which of the last 64
symbols were code violations, the latest first. -/
structure LineAlign where
  aligned : Bool
  good : Nat
  last : List Bool
  deriving DecidableEq, Repr

/-- One more symbol at the receiver's bit offset: 64 good ones in a row align it, and the fourth violation within 64 symbols
loses the alignment. -/
def LineAlign.next (a : LineAlign) (viol : Bool) : LineAlign :=
  let last := (viol :: a.last).take 64
  if a.aligned then
    if viol && decide (4 ≤ last.count true) then { aligned := false, good := 0, last := [] } else { a with last := last }
  else if viol then { aligned := false, good := 0, last := [] }
  else if a.good + 1 = 64 then { aligned := true, good := 64, last := [] }
  else { aligned := false, good := a.good + 1, last := [] }

/-! ### Control symbols (R388) -/

/-- What a control symbol says. -/
inductive Control where
  | idle
  | marker (offset count : Nat)
  | alive (ready wrapped : Bool) (sender : Nat)
  deriving DecidableEq, Repr

/-- The word of a control symbol. -/
def Control.word : Control → Word
  | .idle => 0
  | .marker offset count => BitVec.ofNat 36 (1 * 2 ^ 32 + offset % 2 ^ 14 * 2 ^ 16 + count % 2 ^ 16)
  | .alive ready wrapped sender =>
    BitVec.ofNat 36 (2 * 2 ^ 32 + bit01 ready * 2 ^ 15 + bit01 wrapped * 2 ^ 14 + sender % 2 ^ 6)

/-- A control word read; the reserved codes are treated as IDLE. -/
def controlOf (w : Word) : Control :=
  let code := (Fld.mk 32 4).get w
  if code = 1 then .marker ((Fld.mk 16 14).get w) ((Fld.mk 0 16).get w)
  else if code = 2 then .alive ((Fld.mk 15 1).get w == 1) ((Fld.mk 14 1).get w == 1) ((Fld.mk 0 6).get w)
  else .idle

/-- The symbol of a control word. -/
def Control.sym (c : Control) : Sym := ⟨.control, c.word⟩

/-- ALIVE as this unit sends it (R388, R405): READY, WRAPPED and its address. -/
def State.aliveSym (s : State) : Sym :=
  (Control.alive s.ring.ready s.wrapped s.ringAddr).sym

/-- MARKER as this unit sends it on each ring (R389), with the time from its tick instant to the marker's first bit in fine units. -/
def markerSym (offset count : Nat) : Sym := (Control.marker offset count).sym

/-! ### Packets as symbols (R390, R391) -/

/-- H1 with its TTL. -/
def pktH1Ttl (p : Pkt) : Word := BitVec.ofNat 36 (p.ttl % 2 ^ 7 * 2 ^ 29 + sideBit p.ring * 2 ^ 28 + p.addr % 2 ^ 28)

/-- The EOP word. -/
def pktEop (p : Pkt) : Word := BitVec.ofNat 36 (bit01 p.bad * 2 ^ 35 + p.status % 2 ^ 4 * 2 ^ 16 + p.crc % 2 ^ 16)

/-- The symbols of a packet, and the one IDLE that its sender lets follow (R391). -/
def pktSyms (p : Pkt) : List Sym :=
  ⟨.sop, pktH0 p⟩ :: ⟨.data, pktH1Ttl p⟩ :: (p.payload.map (fun w => Sym.mk .data w) ++ [⟨.eop, pktEop p⟩, Control.idle.sym])

/-- The packet that its words spell, `viol` where one of its symbols was a code violation. -/
def pktOfWords (h0 h1 : Word) (payload : List Word) (eop : Word) (viol : Bool) : Pkt :=
  { ptype := (Fld.mk 32 4).get h0, dst := (Fld.mk 26 6).get h0, dsth := (Fld.mk 24 2).get h0,
    src := (Fld.mk 18 6).get h0, srch := (Fld.mk 16 2).get h0, tag := (Fld.mk 8 8).get h0,
    timed := h0.getLsbD 7, ttl := (Fld.mk 29 7).get h1, ring := if h1.getLsbD 28 then .b else .a,
    addr := (Fld.mk 0 28).get h1, payload := payload, bad := eop.getLsbD 35,
    status := (Fld.mk 16 4).get eop, crc := (Fld.mk 0 16).get eop, viol := viol }

/-- What stands between SOP and EOP: control symbols are taken out of the stream (R388), and a code violation is DATA with
unknown content, here 0: the packet that holds it is bad whatever it reads as (R387). -/
def pktBody : List (Option Sym) → Option (List Word × Bool × Word)
  | [] => none
  | none :: rest => (pktBody rest).map (fun r => (0 :: r.1, true, r.2.2))
  | some y :: rest =>
    match y.type with
    | .control => (pktBody rest).map (fun r => (r.1, r.2.1 || symViolates y, r.2.2))
    | .data => (pktBody rest).map (fun r => (y.word :: r.1, r.2))
    | .eop => some ([], false, y.word)
    | .sop => none

/-- The packet that a run of symbols from its SOP on holds, none where it does not end or has no second header word. -/
def pktOfSyms : List (Option Sym) → Option Pkt
  | some ⟨.sop, h0⟩ :: rest =>
    match pktBody rest with
    | some (h1 :: payload, viol, eop) => some (pktOfWords h0 h1 payload eop viol)
    | _ => none
  | _ => none

end Sys2Proof.Machine
end

