-- ==== Sys2Proof/Laws/Line.lean ====
section
/-! SUPPORT. The line of the ring: descrambling undoes scrambling, and what a symbol sent is received as. -/

namespace Sys2Proof.Machine

theorem scrBit_scrBit (h : List Bool) (b : Bool) : scrBit h (scrBit h b) = b := by
  unfold scrBit
  cases b <;> cases h.getD 38 false <;> cases h.getD 57 false <;> rfl

/-- A descrambler that remembers the line bits the scrambler remembers gives back every word bit (R386). -/
theorem descramble_scramble (h bs : List Bool) : descramble h (scramble h bs).2 = ((scramble h bs).1, bs) := by
  induction bs generalizing h with
  | nil => rfl
  | cons b bs ih => simp [scramble, descramble, ih, scrBit_scrBit]

theorem descramble_hist (h cs : List Bool) (hh : h.length ≤ 58) : (descramble h cs).1 = (cs.reverse ++ h).take 58 := by
  induction cs generalizing h with
  | nil => simp [descramble, List.take_of_length_le hh]
  | cons c cs ih =>
    simp only [descramble]
    rw [ih _ (by simp only [scrNext, List.length_take]; omega)]
    simp only [scrNext, List.reverse_cons, List.append_assoc, List.singleton_append]
    rw [List.take_append, List.take_append, List.take_take, Nat.min_eq_left (by omega)]

/-- The scrambler synchronises itself: after 58 line bits a descrambler remembers the same, whatever it held before. -/
theorem descramble_selfSync (h h' cs : List Bool) (hh : h.length ≤ 58) (hh' : h'.length ≤ 58) (hc : 58 ≤ cs.length) :
    (descramble h cs).1 = (descramble h' cs).1 := by
  rw [descramble_hist h cs hh, descramble_hist h' cs hh', List.take_append_of_le_length (by simpa using hc),
    List.take_append_of_le_length (by simpa using hc)]

theorem length_scramble (h bs : List Bool) : (scramble h bs).2.length = bs.length := by
  induction bs generalizing h with
  | nil => rfl
  | cons b bs ih => simp [scramble, ih]

theorem length_body (t : LineTx) (y : Sym) : (t.body y).2.length = 38 := by
  cases ht : y.type <;> simp [LineTx.body, SymType.bits, length_scramble, bitsDown, ht]

/-- A symbol sent has 40 bits. -/
theorem length_send (t : LineTx) (y : Sym) : (t.send y).2.length = 40 := by
  simp only [LineTx.send]
  split <;> simp [length_body]

theorem symType_bits (y : SymType) : symType (y.bits.getD 0 false) (y.bits.getD 1 false) = y := by cases y <;> rfl

theorem testBit_bits (r : List Bool) (i : Nat) :
    (r.reverse.foldl (fun n b => n * 2 + bit01 b) 0).testBit i = r[i]?.getD false := by
  induction r generalizing i with
  | nil => simp
  | cons b r ih =>
    rw [List.reverse_cons, List.foldl_append]
    cases i with
    | zero => cases b <;> simp [bit01]
    | succ i =>
      rw [Nat.testBit_succ]
      have h : ([b].foldl (fun n b => n * 2 + bit01 b) (r.reverse.foldl (fun n b => n * 2 + bit01 b) 0)) / 2
          = r.reverse.foldl (fun n b => n * 2 + bit01 b) 0 := by
        cases b <;> simp [bit01] <;> omega
      rw [h, ih]; simp

/-- A word is what its 36 bits spell. -/
theorem bitsWord_bitsDown (w : Word) : bitsWord (bitsDown w 36 0) = w := by
  apply BitVec.eq_of_getLsbD_eq
  intro i hi
  have hr : bitsDown w 36 0 = ((List.range 36).map (fun i => w.getLsbD i)).reverse := by simp [bitsDown, List.range_succ]
  simp only [bitsWord, BitVec.getLsbD_ofNat, hi, decide_true, Bool.true_and, hr, testBit_bits]
  simp [hi]

theorem lineReceive_asIs (h b : List Bool) (hb : b.length = 38) : lineReceive h (b ++ [true, false])
    = ((descramble h (b.drop 2)).1, some ⟨symType (b.getD 0 false) (b.getD 1 false), bitsWord (descramble h (b.drop 2)).2⟩) := by
  have ht : (b ++ [true, false]).take 38 = b := by rw [← hb]; exact List.take_left
  have h38 : (b ++ [true, false]).getD 38 false = true := by simp [List.getD, hb]
  have h39 : (b ++ [true, false]).getD 39 false = false := by simp [List.getD, hb]
  simp only [lineReceive, ht, h38, h39]
  rfl

theorem lineReceive_inverted (h b : List Bool) (hb : b.length = 38) : lineReceive h (b.map (fun x => !x) ++ [false, true])
    = ((descramble h (b.drop 2)).1, some ⟨symType (b.getD 0 false) (b.getD 1 false), bitsWord (descramble h (b.drop 2)).2⟩) := by
  have hl : (b.map (fun x => !x)).length = 38 := by simpa using hb
  have ht : (b.map (fun x => !x) ++ [false, true]).take 38 = b.map (fun x => !x) := by rw [← hl]; exact List.take_left
  have hm : (b.map (fun x => !x)).map (fun x => !x) = b := by simp [Function.comp_def]
  have h38 : (b.map (fun x => !x) ++ [false, true]).getD 38 false = false := by simp [List.getD, hb]
  have h39 : (b.map (fun x => !x) ++ [false, true]).getD 39 false = true := by simp [List.getD, hb]
  simp only [lineReceive, ht, h38, h39, hm]
  rfl

/-- A symbol sent is received as it was, by a receiver that remembers the line bits the sender remembers (R385, R386). -/
theorem lineReceive_send (t : LineTx) (y : Sym) : lineReceive t.hist (t.send y).2 = ((t.send y).1.hist, some y) := by
  have hb := length_body t y
  have hd : (t.body y).2.drop 2 = (scramble t.hist (bitsDown y.word 36 0)).2 := by
    cases ht : y.type <;> simp [LineTx.body, SymType.bits, ht]
  have h0 : symType ((t.body y).2.getD 0 false) ((t.body y).2.getD 1 false) = y.type := by
    cases ht : y.type <;> simp [LineTx.body, SymType.bits, ht, symType]
  have hr : descramble t.hist ((t.body y).2.drop 2) = ((t.body y).1, bitsDown y.word 36 0) := by
    rw [hd, descramble_scramble]; rfl
  have hy : (Sym.mk (symType ((t.body y).2.getD 0 false) ((t.body y).2.getD 1 false)) (bitsWord (bitsDown y.word 36 0))) = y := by
    rw [h0, bitsWord_bitsDown]
  simp only [LineTx.send]
  split
  · rw [lineReceive_inverted t.hist _ hb, hr, hy]
  · rw [lineReceive_asIs t.hist _ hb, hr, hy]

end Sys2Proof.Machine
end

