-- ==== Sys2Proof/Laws/Sound.lean ====
section
/-! SUPPORT. The relations in which operations stay: `Sound`, that every operation keeps, and for each part of the state that it
is the same, which every operation keeps that does not change the part. -/

namespace Sys2Proof.Machine

/-- The queue is as it was, the counter of the free values has not gone back, and the tables keep their canonical form. -/
def Sound (s t : State) : Prop := t.pending = s.pending ∧ s.free ≤ t.free ∧ (s.wf = true → t.wf = true)

theorem Sound.refl (s : State) : Sound s s := ⟨rfl, Nat.le_refl _, id⟩

theorem Sound.trans (s t u : State) (h : Sound s t) (k : Sound t u) : Sound s u :=
  ⟨k.1.trans h.1, Nat.le_trans h.2.1 k.2.1, fun w => k.2.2 (h.2.2 w)⟩

/-- A step that changes no counter and no queue is sound when it keeps the form. -/
theorem Sound.of {s t : State} (h1 : t.pending = s.pending) (h2 : t.free = s.free) (h : s.wf = true → t.wf = true) :
    Sound s t := ⟨h1, Nat.le_of_eq h2.symm, h⟩

theorem Sound.wr (s : State) (a : Nat) (v : Word) : Sound s (s.wr a v) := .of rfl rfl fun h => by
  rw [State.wf_iff] at *
  exact ⟨⟨Tab.wf_set _ _ _ _ h.1.1, h.1.2⟩, h.2⟩

theorem Sound.raise (s : State) (a : Nat) (m : Word) : Sound s (s.raise a m) :=
  Sound.trans _ (s.wr a (s.rd a ||| m)) _ (Sound.wr _ _ _) <| .of rfl rfl fun h => by
    rw [State.wf_iff] at *
    exact ⟨⟨h.1.1, h.1.2.1, Tab.wf_set _ _ _ _ h.1.2.2.1, h.1.2.2.2⟩, h.2⟩

theorem Sound.latch (s : State) (h : Side) (a : Nat) (v : Word) : Sound s (s.latch h a v) := by
  cases h <;> refine .of rfl rfl fun h => ?_ <;> rw [State.wf_iff] at *
  · exact ⟨⟨h.1.1, h.1.2.1, h.1.2.2.1, Tab.wf_set _ _ _ _ h.1.2.2.2.1, h.1.2.2.2.2⟩, h.2⟩
  · exact ⟨⟨h.1.1, h.1.2.1, h.1.2.2.1, h.1.2.2.2.1, Tab.wf_set _ _ _ _ h.1.2.2.2.2⟩, h.2⟩

theorem Sound.targetReset (s : State) (t : Nat) : Sound s (s.targetReset t) := .of rfl rfl fun h => by
  rw [State.wf_iff] at *; unfold State.targetReset; dsimp only
  exact ⟨⟨Tab.wf_drop _ _ _ h.1.1, Tab.wf_drop _ _ _ h.1.2.1, h.1.2.2.1, Tab.wf_drop _ _ _ h.1.2.2.2.1,
    Tab.wf_drop _ _ _ h.1.2.2.2.2⟩, ⟨Tab.wf_drop _ _ _ h.2.1.1, h.2.1.2⟩, h.2.2⟩

theorem Sound.vaonCleared (s : State) : Sound s s.vaonCleared := .of rfl rfl fun h => by
  rw [State.wf_iff] at *; unfold State.vaonCleared; dsimp only
  exact ⟨⟨Tab.wf_drop _ _ _ h.1.1, Tab.wf_drop _ _ _ h.1.2.1, h.1.2.2⟩, h.2⟩

theorem Sound.coreCleared (s : State) : Sound s s.coreCleared := .of rfl rfl fun h => by
  rw [State.wf_iff, Alm.wf_iff] at *; unfold State.coreCleared; dsimp only
  exact ⟨⟨Tab.wf_drop _ _ _ h.1.1, Tab.wf_drop _ _ _ h.1.2.1, rfl, rfl, rfl⟩,
    ⟨Tab.wf_drop _ _ _ h.2.1.1, h.2.1.2⟩, ⟨rfl, rfl, rfl, rfl, rfl, rfl, rfl⟩, ⟨h.2.2.2.1.1, rfl, rfl⟩, rfl, rfl⟩

theorem KeptAll.sound : KeptAll Sound where
  refl := Sound.refl
  trans := Sound.trans
  wr := Sound.wr
  setEff s a v := .of rfl rfl fun h => by
    rw [State.wf_iff] at *
    exact ⟨⟨h.1.1, Tab.wf_set _ _ _ _ h.1.2.1, h.1.2.2⟩, h.2⟩
  raise := Sound.raise
  noSetBits s := .of rfl rfl fun h => by
    rw [State.wf_iff] at *
    exact ⟨⟨h.1.1, h.1.2.1, rfl, h.1.2.2.2⟩, h.2⟩
  latch := Sound.latch
  updCh s c f := .of rfl rfl fun h => by
    rw [State.wf_iff] at *; obtain ⟨h1, h2, ⟨h3, h4⟩, h5⟩ := h
    exact ⟨h1, h2, ⟨Tab.wf_upd _ _ _ _ h3, h4⟩, h5⟩
  updBk s b f := .of rfl rfl fun h => by
    rw [State.wf_iff] at *; obtain ⟨h1, h2, ⟨h3, h4, h5⟩, h6⟩ := h
    exact ⟨h1, h2, ⟨h3, Tab.wf_upd _ _ _ _ h4, h5⟩, h6⟩
  updPm s n f := .of rfl rfl fun h => by
    rw [State.wf_iff] at *; obtain ⟨h1, h2, ⟨h3, h4, h5, h6⟩, h7⟩ := h
    exact ⟨h1, h2, ⟨h3, h4, Tab.wf_upd _ _ _ _ h5, h6⟩, h7⟩
  updSr s n f := .of rfl rfl fun h => by
    rw [State.wf_iff] at *; obtain ⟨h1, h2, ⟨h3, h4, h5, h6, h7⟩, h8⟩ := h
    exact ⟨h1, h2, ⟨h3, h4, h5, Tab.wf_upd _ _ _ _ h6, h7⟩, h8⟩
  updEn s e f := .of rfl rfl fun h => by
    rw [State.wf_iff] at *; obtain ⟨h1, h2, ⟨h3, h4, h5, h6, h7, h8⟩, h9⟩ := h
    exact ⟨h1, h2, ⟨h3, h4, h5, h6, Tab.wf_upd _ _ _ _ h7, h8⟩, h9⟩
  updPt s p f := .of rfl rfl fun h => by
    rw [State.wf_iff] at *; obtain ⟨h1, h2, ⟨h3, h4, h5, h6, h7, h8, h9⟩, h10⟩ := h
    exact ⟨h1, h2, ⟨h3, h4, h5, h6, h7, Tab.wf_upd _ _ _ _ h8, h9⟩, h10⟩
  updSy s y f := .of rfl rfl fun h => by
    rw [State.wf_iff] at *; obtain ⟨h1, h2, ⟨h3, h4, h5, h6, h7, h8, h9⟩, h10⟩ := h
    exact ⟨h1, h2, ⟨h3, h4, h5, h6, h7, h8, Tab.wf_upd _ _ _ _ h9⟩, h10⟩
  updAlm s f h := .of rfl rfl fun w => by
    rw [State.wf_iff] at *
    exact ⟨w.1, w.2.1, w.2.2.1, h.wf _ w.2.2.2.1, w.2.2.2.2⟩
  updCal s f h := .of rfl rfl fun w => by
    rw [State.wf_iff] at *
    exact ⟨w.1, w.2.1, w.2.2.1, w.2.2.2.1, h _ w.2.2.2.2.1, w.2.2.2.2.2⟩
  updRt s f h := .of rfl rfl fun w => by
    rw [State.wf_iff] at *
    exact ⟨w.1, w.2.1, w.2.2.1, w.2.2.2.1, w.2.2.2.2.1, h _ w.2.2.2.2.2⟩
  updClk _ _ := .of rfl rfl id
  updSea _ _ := .of rfl rfl id
  updUnit _ _ _ := .of rfl rfl id
  setSt _ _ := .of rfl rfl id
  updRing _ _ := .of rfl rfl id
  updIsl _ _ := .of rfl rfl id
  updLed _ _ := .of rfl rfl id
  updStaged _ _ := .of rfl rfl id
  setRfReload _ _ := .of rfl rfl id
  event _ _ _ _ _ _ := .of rfl rfl id
  freshN _ _ := ⟨rfl, Nat.le_add_right _ _, id⟩
  vaonCleared := Sound.vaonCleared
  memWr s a v := .of rfl rfl fun h => by
    rw [State.wf_iff] at *
    exact ⟨h.1, ⟨Tab.wf_set _ _ _ _ h.2.1.1, h.2.1.2⟩, h.2.2⟩
  memDrop s p := .of rfl rfl fun h => by
    rw [State.wf_iff] at *
    exact ⟨h.1, ⟨Tab.wf_drop _ _ _ h.2.1.1, h.2.1.2⟩, h.2.2⟩
  bsPut s i v := .of rfl rfl fun h => by
    rw [State.wf_iff] at *
    exact ⟨h.1, ⟨h.2.1.1, Tab.wf_set _ _ _ _ h.2.1.2⟩, h.2.2⟩
  bsRefill s f := .of rfl rfl fun h => by
    rw [State.wf_iff] at *
    exact ⟨h.1, ⟨h.2.1.1, rfl⟩, h.2.2⟩
  fPut s a v := .of rfl rfl fun w => by
    rw [State.wf_iff, Alm.wf_iff] at *
    exact ⟨w.1, w.2.1, w.2.2.1, ⟨Tab.wf_set _ _ _ _ w.2.2.2.1.1, w.2.2.2.1.2⟩, w.2.2.2.2⟩
  targetReset := Sound.targetReset
  coreCleared := Sound.coreCleared

/-! ### The parts of the state -/

theorem Part.kept (p : Part) : Kept p.same where
  refl s := by cases p <;> first | exact rfl | exact ⟨rfl, rfl⟩
  trans s t u h k := by
    cases p
    case alm =>
      have e : ({ u.alm with flash := s.alm.flash } : Alm) = { ({ u.alm with flash := t.alm.flash } : Alm) with
          flash := s.alm.flash } := rfl
      have k' : ({ u.alm with flash := t.alm.flash } : Alm) = t.alm := k
      exact (e.trans (by rw [k'])).trans h
    all_goals first
      | exact Eq.trans k h
      | exact ⟨Eq.trans k.1 h.1, Eq.trans k.2 h.2⟩

theorem Part.kRegs {p : Part} (h : p ≠ .regs) : KRegs p.same where
  wr := by intros; cases p <;> first | exact absurd rfl h | rfl | exact ⟨rfl, rfl⟩
  raise := by intros; cases p <;> first | exact absurd rfl h | rfl | exact ⟨rfl, rfl⟩
  noSetBits := by intros; cases p <;> first | exact absurd rfl h | rfl | exact ⟨rfl, rfl⟩

theorem Part.kFrc {p : Part} (h : p ≠ .frc) : KFrc p.same where
  setEff := by intros; cases p <;> first | exact absurd rfl h | rfl | exact ⟨rfl, rfl⟩

theorem Part.kLat {p : Part} (h : p ≠ .lat) : KLat p.same where
  latch s d a v := by cases p <;> first | exact absurd rfl h | (cases d <;> first | rfl | exact ⟨rfl, rfl⟩)

theorem Part.kMem {p : Part} (h : p ≠ .mem) : KMem p.same where
  memWr := by intros; cases p <;> first | exact absurd rfl h | rfl | exact ⟨rfl, rfl⟩
  memDrop := by intros; cases p <;> first | exact absurd rfl h | rfl | exact ⟨rfl, rfl⟩

theorem Part.kBs {p : Part} (h : p ≠ .store) : KBs p.same where
  bsPut := by intros; cases p <;> first | exact absurd rfl h | rfl | exact ⟨rfl, rfl⟩
  bsRefill := by intros; cases p <;> first | exact absurd rfl h | rfl | exact ⟨rfl, rfl⟩

theorem Part.kFlash {p : Part} (h : p ≠ .flash) : KFlash p.same where
  fPut := by intros; cases p <;> first | exact absurd rfl h | rfl | exact ⟨rfl, rfl⟩

theorem Part.kStaged {p : Part} (h : p ≠ .staged) : KStaged p.same where
  updStaged := by intros; cases p <;> first | exact absurd rfl h | rfl | exact ⟨rfl, rfl⟩

theorem Part.kLed {p : Part} (h : p ≠ .led) : KLed p.same where
  updLed := by intros; cases p <;> first | exact absurd rfl h | rfl | exact ⟨rfl, rfl⟩

theorem Part.kChan {p : Part} (h : p ≠ .chan) : KChan p.same where
  updCh := by intros; cases p <;> first | exact absurd rfl h | rfl | exact ⟨rfl, rfl⟩

theorem Part.kBank {p : Part} (h : p ≠ .bank) : KBank p.same where
  updBk := by intros; cases p <;> first | exact absurd rfl h | rfl | exact ⟨rfl, rfl⟩

theorem Part.kPmc {p : Part} (h : p ≠ .pmc) : KPmc p.same where
  updPm := by intros; cases p <;> first | exact absurd rfl h | rfl | exact ⟨rfl, rfl⟩

theorem Part.kSrc {p : Part} (h : p ≠ .src) : KSrc p.same where
  updSr := by intros; cases p <;> first | exact absurd rfl h | rfl | exact ⟨rfl, rfl⟩

theorem Part.kAe {p : Part} (h : p ≠ .ae) : KAe p.same where
  updEn := by intros; cases p <;> first | exact absurd rfl h | rfl | exact ⟨rfl, rfl⟩

theorem Part.kPort {p : Part} (h : p ≠ .port) : KPort p.same where
  updPt := by intros; cases p <;> first | exact absurd rfl h | rfl | exact ⟨rfl, rfl⟩

theorem Part.kSyn {p : Part} (h : p ≠ .syn) : KSyn p.same where
  updSy := by intros; cases p <;> first | exact absurd rfl h | rfl | exact ⟨rfl, rfl⟩

theorem Part.kIsl {p : Part} (h : p ≠ .isl) : KIsl p.same where
  updIsl := by intros; cases p <;> first | exact absurd rfl h | rfl | exact ⟨rfl, rfl⟩

theorem Part.kClk {p : Part} (h : p ≠ .clk) : KClk p.same where
  updClk := by intros; cases p <;> first | exact absurd rfl h | rfl | exact ⟨rfl, rfl⟩

theorem Part.kSea {p : Part} (h : p ≠ .sea) : KSea p.same where
  updSea := by intros; cases p <;> first | exact absurd rfl h | rfl | exact ⟨rfl, rfl⟩

theorem Part.kUnit {p : Part} (h : p ≠ .unit) : KUnit p.same where
  updUnit s f k := by cases p <;> first | exact absurd rfl h | exact k _ | rfl | exact ⟨rfl, rfl⟩

theorem Part.kSt {p : Part} (h : p ≠ .unit) (h1 : p ≠ .unitState) : KSt p.same where
  setSt := by intros; cases p <;> first | exact absurd rfl h | exact absurd rfl h1 | rfl | exact ⟨rfl, rfl⟩

theorem Part.kCal {p : Part} (h : p ≠ .cal) : KCal p.same where
  updCal := by intros; cases p <;> first | exact absurd rfl h | rfl | exact ⟨rfl, rfl⟩

theorem Part.kAlm {p : Part} (h : p ≠ .alm) : KAlm p.same where
  updAlm s f k := by cases p <;> first | exact absurd rfl h | exact k.flash _ | rfl | exact ⟨rfl, rfl⟩

theorem Part.kRing {p : Part} (h : p ≠ .ring) : KRing p.same where
  updRing := by intros; cases p <;> first | exact absurd rfl h | rfl | exact ⟨rfl, rfl⟩

theorem Part.kRt {p : Part} (h : p ≠ .rt) : KRt p.same where
  updRt := by intros; cases p <;> first | exact absurd rfl h | rfl | exact ⟨rfl, rfl⟩
  event := by intros; cases p <;> first | exact absurd rfl h | rfl | exact ⟨rfl, rfl⟩

theorem Part.kRf {p : Part} (h : p ≠ .rfReload) : KRf p.same where
  setRfReload := by intros; cases p <;> first | exact absurd rfl h | rfl | exact ⟨rfl, rfl⟩

theorem Part.kFree {p : Part} (h : p ≠ .free) : KFree p.same where
  freshN := by intros; cases p <;> first | exact absurd rfl h | rfl | exact ⟨rfl, rfl⟩

theorem Part.kTarget {p : Part} (h : p ≠ .regs) (h1 : p ≠ .frc) (h2 : p ≠ .mem) (h3 : p ≠ .lat) : KTarget p.same where
  targetReset := by intros; cases p <;> first | exact absurd rfl h | exact absurd rfl h1 | exact absurd rfl h2 | exact absurd rfl h3 | rfl | exact ⟨rfl, rfl⟩

theorem Part.kVaon {p : Part} (h : p ≠ .regs) (h1 : p ≠ .frc) (h2 : p ≠ .isl) : KVaon p.same where
  vaonCleared := by intros; cases p <;> first | exact absurd rfl h | exact absurd rfl h1 | exact absurd rfl h2 | rfl | exact ⟨rfl, rfl⟩

theorem Part.kCore {p : Part} (h : p = .store ∨ p = .flash ∨ p = .free) : KCore p.same where
  coreCleared s := by rcases h with h | h | h <;> subst h <;> first | rfl | exact ⟨rfl, rfl⟩

/-- Memories that are the same read the same. -/
theorem MemKept.of {s t : State} (h1 : Part.mem.same s t) (h2 : Part.store.same s t) (h3 : Part.flash.same s t) : MemKept s t := by
  refine ⟨fun a => ?_, fun i => ?_, fun a => ?_⟩
  · unfold State.memRd; rw [show t.mem = s.mem from h1]
  · unfold State.bsRd; rw [h2.1, h2.2]
  · unfold State.fByte; rw [show t.alm.flash = s.alm.flash from h3]

end Sys2Proof.Machine
end

