-- ==== Sys2Proof/WellFormed.lean ====
section
/-! DEFINITION. Which commands the hardware can receive: the operands that are numbers or lists lie in the ranges that the
spec gives what they stand for. -/

namespace Sys2Proof.WellFormed

/-- CORE cycles of the longest tick that a leap can produce (R44, R60): 275. -/
def cycle (c : Nat) : Bool := decide (c < 275)

/-- Fine units of the longest tick (R60): 153,600 and five steps of 3,072. -/
def fine (f : Nat) : Bool := decide (f < 153600 + 5 * 3072)

/-- An instant within a tick. -/
def instant (i : Instant) : Bool := fine i.fine

/-- A tick count (R56). -/
def count48 (n : Nat) : Bool := decide (n < 2 ^ 48)

/-- AT, a tick count modulo 2^36 (R275, R396). -/
def count36 (n : Nat) : Bool := decide (n < 2 ^ 36)

/-- A pin level in µV that a probe can present: within ±100 V. -/
def level (v : Int) : Bool := decide (-100000000 ≤ v) && decide (v ≤ 100000000)

/-- A temperature in 1/16 °C as a 12-bit field holds it (R431). -/
def temp (t : Int) : Bool := decide (-2048 ≤ t) && decide (t < 2048)

/-- A writer names a rule, a bank or a target of the unit (R1, R372, R427). -/
def writer : Writer → Bool
  | .router n => decide (n < 64)
  | .seq b => decide (b < 12)
  | .loader t => decide (t < 14)
  | _ => true

/-- A register write. -/
def wr (w : Wr) : Bool := writer w.who && cycle w.cyc

/-- One application of a line: its start, and at most one strobe for a channel (R132). -/
def vec (v : Vec) : Bool :=
  fine v.start && decide (v.obs.length ≤ 64) && (v.obs.map (·.ch.val)).eraseDups.length == v.obs.length
    && v.obs.all (fun o => o.levels.all level)

/-- A ring packet: each header field in its width, at most 33 payload words (R390, R392). -/
def pkt (p : Pkt) : Bool :=
  decide (p.ptype < 16) && decide (p.dst < 64) && decide (p.dsth < 4) && decide (p.src < 64) && decide (p.srch < 4)
    && decide (p.tag < 256) && decide (p.ttl < 128) && decide (p.addr < 2 ^ 28) && decide (p.payload.length ≤ 33)
    && decide (p.status < 16) && decide (p.crc < 2 ^ 16)

/-- A detector reading (R307). -/
def reading (r : RfReading) : Bool := decide (r.fwd < 256) && decide (r.rev < 512)

/-- Levels of the samples of one tick (R60, R233): at most one for each 512 fine units of the longest. -/
def samples (c : Samples) : Bool := decide (c.volts.length ≤ 330) && c.volts.all level

/-- A sum of up to 2^20 signed samples of 20 bits (R191, R199). -/
def sum (x : Int) : Bool := decide (-(2 ^ 39) ≤ x) && decide (x < 2 ^ 39)

/-- A value in 1/256 LSB fits the 24 bits of an entry (R317, R345). -/
def entry (v : Int) : Bool := decide (-(2 ^ 31) ≤ v) && decide (v < 2 ^ 31)

/-- What a pass measures (R318, R345). -/
def pass (p : CalPass) : Bool := (p.slot ++ p.common).all entry

/-- Indexes of segments and attempts that an image can have (R361, R369). -/
def flash (f : FlashIn) : Bool := f.failed.all (fun p => decide (p.1 < 2 * 2 ^ 16) && decide (p.2 ≤ 3))

/-- The command is one that the hardware can receive. -/
def instr : Instr → Bool
  | .startUp temps trained f => temps.all temp && temps.length == 8 && trained.length == 7 && flash f
  | .firstTickAlignment n => count48 n
  | .tickBoundary inp => inp.samples.all samples
  | .controlWindow inp => inp.rf.all reading
  | .powerCapWrite w => wr w
  | .powerDieCapWrite _ w => wr w
  | .tickFrame ws => ws.length == 64
  | .leapJump w => wr w
  | .adopt w => wr w
  | .epactWrite w => wr w
  | .marker _ n arrival offset => decide (n < 2 ^ 16) && fine (arrival / 16) && decide (offset ≤ 9830)
  | .tickCountLoRead _ c => cycle c
  | .seasonBoundaryRequest who c => writer who && cycle c
  | .temperatureSample _ t => temp t
  | .chModeWrite _ w => wr w
  | .drvFaultClear _ c => cycle c
  | .rawCrossing _ v f _ => level v && fine f
  | .filteredTransition _ k _ => fine (384 * k)
  | .deepVigilRequest c => cycle c
  | .wakingAlignment n => count48 n
  | .next _ v => vec v
  | .rept _ vs => vs.all vec && decide (0 < vs.length)
  | .jump _ v => vec v
  | .lset _ v => vec v
  | .loop _ v => vec v
  | .call _ v => vec v
  | .ret _ v => vec v
  | .wflag _ v => vec v
  | .wtick _ v => vec v
  | .season _ v => vec v
  | .mloop _ v => vec v
  | .hand _ v => vec v
  | .wreg _ v => vec v
  | .halt _ v => vec v
  | .seqGo _ c f a => decide (c ≤ 2) && decide (f < 16) && decide (a < 2 ^ 18)
  | .bankModeRequest _ w => wr w
  | .vecPeriodWrite _ w => wr w
  | .busCycle _ f _ => fine f
  | .dataHoldEnd _ f => fine f
  | .pmuCtlWrite _ w => wr w
  | .clampEntry _ i => instant i
  | .pmcGo _ _ who => writer who
  | .pmcResult _ _ x _ => sum x
  | .sourceEnable _ _ who => writer who
  | .sourceLimit _ _ i => instant i
  | .aeEnable _ _ who => writer who
  | .triggerTransition _ _ _ i v => instant i && level v
  | .ruleWrite _ _ w => wr w
  | .timedCommandDue _ n => count36 n
  | .intStatusClear _ c => cycle c
  | .rfTxGo _ who => writer who
  | .synFreqChange _ hz => decide (hz < 2 ^ 33)
  | .synLockGained _ i => instant i
  | .synLockLost _ i => instant i
  | .synCalComplete _ i => instant i
  | .rxEnable _ who => writer who
  | .calPassDone rs => rs.all (fun r => pass r.p1 && pass r.p2)
  | .reloadStart f => flash f
  | .read _ p c => pkt p && cycle c
  | .write _ p c => pkt p && cycle c
  | .writeNr _ p c => pkt p && cycle c
  | .command _ p c => pkt p && cycle c
  | .enum _ p => pkt p
  | .transitPacket _ p => pkt p
  | .timedWriteDue n => count36 n
  | .alive _ _ _ sender => decide (sender < 64)
  | .vigilMatch _ _ c => cycle c
  | .vigilClockEdge _ c _ => cycle c
  | .registerWrite a w => decide (a < 2 ^ 28) && wr w
  | .vaonRise | .resetNLow | .enumerationWaitTimeout | .freeRunStart | .supplyGood _ | .mainSupplyFall _ | .dieRailFall _
  | .dieRailRetrain _ | .watchdog | .corePllLossOfLock | .convPllLossOfLock _ | .convPllLock _ | .flitRetry _ | .linkFault _
  | .linkRetrainSuccess _ | .linkRetrainSet _ | .heldBackEnqueue | .ledgerRequestAged _ | .tickLost | .leapSchedule
  | .leapTick | .epactSlewEnd | .epactStart | .epactMeasurementEnd | .seasonInterval | .traceabilityRecordWrite _
  | .seasonsCounterWrite _ | .poweredHoursIncrement | .driverFault _ | .chLatchWrite _ _ | .chEdgeLoRead _ _
  | .chEdgeStatRead _ _ | .deepMatchToCore _ | .c9TransferDone _ | .wakeStatusClear _ | .enelleMatch _ _
  | .deepPendingEntry | .deepReadyEntry | .wakeFromDeep | .wakingFrameTimeout | .xt32Failure | .vectorMemoryWrite _ _ _ _
  | .wtickExpiry _ | .wregCommit _ | .illegalOp _ | .seqStop _ | .seqAbort _ | .sequencerStart _
  | .responderRamWrite _ _ _ | .respHitsRead _ | .respErrsRead _ | .respFirstmissRead _ | .pmcStop _ _ | .chPmuResRead _ _
  | .pmcStatRead _ _ | .sourceRangeChange _ _ _ _ | .sourcePlayGo _ _ | .sourcePlayStop _ _ | .playbackStart _ _
  | .playbackEnd _ _ | .sourceFault _ _ | .sourceFaultClear _ _ | .aeGo _ _ | .aeStop _ _ | .aeForce _ _ | .recordComplete _ _ | .segmentRearm _ _
  | .recordPop _ _ | .aeStatusRead _ _ | .routerTimer _ | .rtStatusWakeClear | .rtStatusRead | .arbitrationRequestAged _
  | .rfTxStop _ | .transmitStart _ | .transmitEnd _ | .rxIntervalEnd _ _ | .transmitTimeout _ | .coexWaitExpiry _ | .rfreqTailEnd | .rfSynSelect _ _ | .synCalGo _ _
  | .synAutoCal _ | .synCalFail _ | .calGo | .calStop | .calGroupHold | .calCommit _ | .calCommitComplete _ | .tslotInvalidation
  | .storeWindowRead _ _ | .storeWindowWrite _ _ | .reloadRequest _ | .reloadEnd | .nvmRead | .nvmProgram | .nvmErase
  | .nvmVerify | .nvmActivate _ | .nvmCancel | .nvmOperationComplete _ | .nvmDataAccess _ | .nvmAddrWrite _ | .slotActivation
  | .actseqProgram | .packetSend _ | .aliveSend | .wordAlignment _ | .alignmentLoss _ | .inputDown _ | .unwrap _
  | .dieLinkStatusRead | .tickStatusRead | .tickBudgetRead | .ringErrRead _ | .chVigilTsLoRead _ _ | .faultStatusClear _
 | .oscillatorRestart | .enelleWakeEvent _ _ => true

end Sys2Proof.WellFormed
end

