-- ==== Sys2Proof/Tests/Slice0.lean ====
section
/-! SUPPORT. The model's own tests: ill-formed commands that WellFormed refuses, one step of single commands with results worked out
from the spec, and for each obligation with hypotheses a concrete state and operands that meet them. -/

namespace Sys2Proof.Tests

open Sys2Proof Sys2Proof.Machine

set_option Elab.async false

/-! ### Ill-formed commands, one for each check -/

/-- A write by host A at cycle 0. -/
def byHost (v : Word) : Wr := ⟨.host .a, v, 0⟩

/-- A READ of one word of address `a`, from host A on ring A to unit 5. -/
def pktRead (a : Nat) : Pkt :=
  pktSeal { ptype := 1, dst := 5, dsth := 0, src := 0, srch := 1, tag := 7, timed := false, ttl := 100, ring := .a, addr := a
            payload := [1], bad := false, status := 0, crc := 0, viol := false }

theorem test_wf_cycle : WellFormed.instr (.drvFaultClear 0 274) = true ∧ WellFormed.instr (.drvFaultClear 0 275) = false := by decide

theorem test_wf_instant :
    WellFormed.instr (.clampEntry 0 ⟨168959, false⟩) = true ∧ WellFormed.instr (.clampEntry 0 ⟨168960, false⟩) = false := by decide

theorem test_wf_counts :
    WellFormed.instr (.firstTickAlignment (2 ^ 48)) = false ∧ WellFormed.instr (.wakingAlignment (2 ^ 48)) = false
      ∧ WellFormed.instr (.timedCommandDue 0 (2 ^ 36)) = false ∧ WellFormed.instr (.timedWriteDue (2 ^ 36)) = false := by decide

theorem test_wf_temperature :
    WellFormed.instr (.temperatureSample 0 2048) = false ∧ WellFormed.instr (.temperatureSample 0 (-2049)) = false := by decide

theorem test_wf_writer :
    WellFormed.instr (.chModeWrite 0 ⟨.router 64, 0, 0⟩) = false ∧ WellFormed.instr (.aeEnable 0 0 (.seq 12)) = false
      ∧ WellFormed.instr (.pmcGo 0 0 (.loader 14)) = false ∧ WellFormed.instr (.adopt ⟨.responder, 0, 275⟩) = false := by decide

theorem test_wf_vector :
    WellFormed.instr (.next 0 ⟨168960, []⟩) = false ∧ WellFormed.instr (.halt 0 ⟨0, [⟨1, []⟩, ⟨1, []⟩]⟩) = false
      ∧ WellFormed.instr (.halt 0 ⟨0, [⟨1, [100000001]⟩]⟩) = false
      ∧ WellFormed.instr (.rept 0 []) = false := by decide

theorem test_wf_packet :
    WellFormed.instr (.read .a (pktRead 0) 0) = true ∧ WellFormed.instr (.read .a { pktRead 0 with ptype := 16 } 0) = false
      ∧ WellFormed.instr (.write .a { pktRead 0 with dst := 64 } 0) = false ∧ WellFormed.instr (.writeNr .a { pktRead 0 with dsth := 4 } 0) = false
      ∧ WellFormed.instr (.command .a { pktRead 0 with src := 64 } 0) = false ∧ WellFormed.instr (.enum .a { pktRead 0 with srch := 4 }) = false
      ∧ WellFormed.instr (.transitPacket .a { pktRead 0 with tag := 256 }) = false
      ∧ WellFormed.instr (.read .a { pktRead 0 with ttl := 128 } 0) = false ∧ WellFormed.instr (.read .a { pktRead 0 with addr := 2 ^ 28 } 0) = false
      ∧ WellFormed.instr (.read .a { pktRead 0 with payload := List.replicate 34 0 } 0) = false
      ∧ WellFormed.instr (.read .a { pktRead 0 with status := 16 } 0) = false ∧ WellFormed.instr (.read .a { pktRead 0 with crc := 2 ^ 16 } 0) = false
      ∧ WellFormed.instr (.read .a (pktRead 0) 275) = false := by decide +kernel

theorem test_wf_inputs :
    WellFormed.instr (.controlWindow ⟨[⟨0, 256, 0⟩], none⟩) = false ∧ WellFormed.instr (.controlWindow ⟨[⟨0, 0, 512⟩], none⟩) = false
      ∧ WellFormed.instr (.tickBoundary ⟨false, [], [], [⟨0, List.replicate 331 0⟩], []⟩) = false
      ∧ WellFormed.instr (.pmcResult 0 0 (2 ^ 39) false) = false ∧ WellFormed.instr (.pmcResult 0 0 (-(2 ^ 39) - 1) false) = false
      ∧ WellFormed.instr (.calPassDone [⟨⟨[], [2 ^ 31], [], []⟩, ⟨[], [], [], []⟩⟩]) = false ∧ WellFormed.instr (.reloadStart ⟨true, true, [(2 ^ 17, 1)]⟩) = false
      ∧ WellFormed.instr (.reloadStart ⟨true, true, [(0, 4)]⟩) = false := by decide +kernel

theorem test_wf_ranges :
    WellFormed.instr (.startUp [] (List.replicate 7 true) ⟨true, true, []⟩) = false
      ∧ WellFormed.instr (.startUp (List.replicate 8 0) [] ⟨true, true, []⟩) = false ∧ WellFormed.instr (.tickFrame []) = false
      ∧ WellFormed.instr (.marker .a 0 0 9831) = false ∧ WellFormed.instr (.marker .b (2 ^ 16) 0 0) = false ∧ WellFormed.instr (.seqGo 0 3 0 0) = false ∧ WellFormed.instr (.seqGo 0 0 16 0) = false
      ∧ WellFormed.instr (.seqGo 0 0 0 (2 ^ 18)) = false ∧ WellFormed.instr (.busCycle 0 168960 false) = false
      ∧ WellFormed.instr (.triggerTransition 0 0 0 ⟨0, true⟩ 100000001) = false
      ∧ WellFormed.instr (.rawCrossing 0 (-100000001) 0 false) = false ∧ WellFormed.instr (.filteredTransition 0 440 false) = false ∧ WellFormed.instr (.synFreqChange 0 (2 ^ 33)) = false
      ∧ WellFormed.instr (.alive .a true false 64) = false ∧ WellFormed.instr (.registerWrite (2 ^ 28) (byHost 0)) = false := by decide +kernel

/-- The state after a command. -/
def after (c : Instr) (s : State) : State :=
  match exec c s with
  | .next t => t
  | _ => s

/-- A unit in RUNNING at tick 100, with its supplies good. -/
def up : State :=
  { State.reset with
    unit := { st := .running, vddc := true, vddio := true, vdda := true, vaon := true, vrf := true, vbak := true, vpos := 63, vneg := 63
              ringOut := true, pllOn := 127 }
    clk := { running := true, count := 100, seq := 100 } }

/-- The unit with ring address 5, READY sent. -/
def ringUp : State := (up.wr A.UNIT_ADDR 0x45).updRing (fun r => { r with ready := true })

/-- The widths of a frame whose sync tick has count `n`. -/
def frameOf (n : Nat) : List (Option Nat) :=
  some 15 :: (List.range 63).map (fun i => some (if i < 48 ∧ n.testBit i then 10 else 5))

/-- Leap ticks are enabled, and the phase error has been at the threshold for 64 ticks. -/
def leapReady : State := (up.fset A.LEAP_CTL F.LEAP_CTL.EN 1).updClk (fun c => { c with persist := 64 })

/-- A word of LEAP_CTL with some bits set beside the reset values of MAX and THRESH. -/
def leapWord (fs : List Fld) : Word := fs.foldl (fun w f => f.put w 1) (resetWord A.LEAP_CTL)

/-- The unit in DEEP_READY. -/
def deep : State := up.updUnit (fun u => { u with st := .deepReady })

/-- The unit in a step of start-up. -/
def starting (n : Nat) : State := (up.updUnit (fun u => { u with st := .starting })).fset A.ALMANAC_STATUS F.ALMANAC_STATUS.STEP n

/-- The unit in DEEP_PENDING with everything done. -/
def pendingDone : State := up.updUnit (fun u => { u with st := .deepPending })

/-- A request that waits in the ledger's queue. -/
def waiting (id age : Nat) (slot : Slot) : Req :=
  { id, key := .bank 3, cls := .host, idx := 0, who := .host .a, effs := [.bank 3 1], frm := 0, age, slot }

/-- A request that waits for the arbiter. -/
def asking (id age : Nat) : Arb := { id, res := .store, cls := .host, idx := 0, frm := 0, who := .host .a, tag := 0, age }

/-- Bank 0, the router and the RF registers under a reload. -/
def reloading : State := ((up.updBk 0 (fun k => { k with reload := true })).updRt (fun r => { r with reload := true })).setRfReload true

/-- Channel 5 with two captured edges. -/
def twoEdges : State := up.updCh 5 (fun h => { h with edges := [⟨3, up.tickStamp⟩, ⟨0, up.tickStamp⟩] })

/-- Timer 0 counts multiples of 50 of the tick count, timer 1 five ticks at a time from tick 90. -/
def timersOn : State :=
  ((up.setEff (A.RT_TMR 0) (F.RT_TMR.EN.put (F.RT_TMR.ABS.put (F.RT_TMR.PERIOD.put 0 50) 1) 1)).setEff (A.RT_TMR 1)
    (F.RT_TMR.EN.put (F.RT_TMR.PERIOD.put 0 5) 1)).updRt (fun r => { r with tmr := [(1, 90)], cmds := [(15, 100)] })

/-- A season is under way, 1,000 ticks long, with an interval of 1,000. -/
def inSeason : State :=
  (up.updSea (fun k => { k with open_ := true, len := 1000, recs := [(98, List.replicate 16 5)], seasonDue := true })).setEff A.SEASON_CTL
    (F.SEASON_CTL.INTERVAL.put 0 1000)

/-- Bank 0 is ACTIVE. -/
def active0 : State := up.fset (A.BANK_STATUS 0) F.BANK_STATUS.STATE bankActive

/-- The shared queue is full. -/
def queueFull : State := active0.updLed (fun l => { l with queue := (List.range Config.ledgerShared).map (fun i => waiting i 0 .shared) })

/-- A host's write of CH_MODE of channel 5 for PATTERN, of a range with FORCE, of a vector period and of bank 0 for SAFE. -/
def modeWord : Word := F.CH_MODE.FUNC.put 0 fnPattern

/-- Channel 5 in PATTERN with its comparator active, and its edge capture on for raw edges. -/
def chan5 : State :=
  ((((up.fset (A.CH_STATUS 5) F.CH_STATUS.FUNC_EFF fnPattern).fset (A.CH_STATUS 5) F.CH_STATUS.STATE 0).updCh 5 (fun h => { h with active := true, pmuOn := true })).setEff
    (A.CH_EDGE_CTL 5) (F.CH_EDGE_CTL.EN.put (F.CH_EDGE_CTL.SRC.put 0 1) 15))

/-- A vigil channel with 31 chips of zeros behind it, and code 0. -/
def vigil (fn : Nat) : State :=
  (up.fset (A.CH_STATUS 767) F.CH_STATUS.FUNC_EFF fn).updCh 767 (fun h => { h with
    sampler := true, chips := List.replicate 31 false, deepMatch := [up.tickStamp] })

/-- Values on their way to the island, and an Enelle result on its way back. -/
def crossing : State :=
  up.updIsl (fun i => { i with c9 := [.ctl 5, .code false 1, .code true 2, .wake true, .sampler 5 true 1 2], enelle := [(true, true)]
                               ctl := F.WAKE_CTL.BCAST_EN.put (F.WAKE_CTL.UNIT_EN.put 0 1) 1 })

/-- Bank 3 runs its sequencer at line 7, which has the opcode, SEL and ARG given. -/
def seqAt (op sel arg : Nat) : State :=
  ((((up.fset (A.BANK_STATUS 3) F.BANK_STATUS.STATE bankActive).fset (A.BANK_STATUS 3) F.BANK_STATUS.SEQ sqRunning).memWr (A.VMEM 3 7 7)
    (BitVec.ofNat 36 (op * 2 ^ 31 + sel * 2 ^ 28 + arg * 2 ^ 4))).updBk 3 (fun k => { k with line := 7, stack := [9] }))

/-- What `LineAt` says of line 7 of bank 3 and a vector at the start of the tick, as a Bool. -/
def lineIs (op : Nat) (s : State) : Bool :=
  let u := s.bankAdvance 3 (s.instant 0)
  u.lineAt 3 0 == some 7 && u.lineOp 3 7 == op && u.fetchOk 3 7 && u.lineFault 3 7 == none

theorem line_at {op : Nat} {s : State} (h : lineIs op s = true) : LineAt 3 op 7 0 s (s.bankAdvance 3 (s.instant 0)) := by
  simp only [lineIs, Bool.and_eq_true, beq_iff_eq] at h
  exact ⟨rfl, h.1.1.1, h.1.1.2, h.1.2, h.2⟩

/-- A wait of the sequencer of bank 3. -/
def waits (w : Wait) (ready : Bool) : State := (seqAt 0 0 0).updBk 3 (fun k => { k with wait := w, wregReady := ready })

/-- A match loop of bank 3 whose first pin is judged LOW, with its channel in PATTERN. -/
def matchLoop : State := ((seqAt 0xa 3 5).memWr (A.VMEM 3 7 0) 4).fset (A.CH_STATUS 192) F.CH_STATUS.FUNC_EFF fnPattern

/-- Bank 3 with its sequencer in a state. -/
def seqIn (st : Nat) : State :=
  (up.fset (A.BANK_STATUS 3) F.BANK_STATUS.STATE bankActive).fset (A.BANK_STATUS 3) F.BANK_STATUS.SEQ st

/-- Bank 3 in handover, with its strobe pin in PATTERN and entry 0 of its table valid. -/
def handed (entry : Word) : State :=
  ((up.updBk 3 (fun k => { k with hand := true, respCtl := F.RESP_CTL.EN.mask, respDrive := some (1, 1, false) })).fset (A.CH_STATUS 192)
    F.CH_STATUS.FUNC_EFF fnPattern).memWr (A.RESP_RAM 3 0) entry

/-- Bank 0 is ACTIVE with a converter enabled, and its converter has a result due. -/
def pmcDone : State :=
  (active0.setEff (A.PMC_CTL 0) (F.PMC_CTL.EN.put 0 1)).updPm 0 (fun k => { k with
    done := [⟨5, 90, false, false, 0, true, 0, 100⟩] })

/-- Source 1 of bank 0 in a state, with its waveform in a state. -/
def source (st play : Nat) : State :=
  (active0.fset (A.SRC_STATUS 0 1) F.SRC_STATUS.STATE st).fset (A.SRC_STATUS 0 1) F.SRC_STATUS.PLAY play

/-- Acquisition engine 1 of bank 0 in a state, with a record of one post-trigger word. -/
def engine (st : Nat) : State :=
  (((active0.fset (A.AE_STATUS 0 1) F.AE_STATUS.STATE st).setEff (A.AE_POST 0 1) (F.AE_POST.POST.put 0 1)).setEff (A.AE_PRE 0 1) 0).setEff
    (A.AE_TRIG 0 1) F.AE_TRIG.LVL_EN.mask

/-- One record in the FIFO of engine 1 of bank 0. -/
def oneRec (st : Nat) : State := (engine st).updEn 1 (fun k => { k with recs := [⟨0, [1, 2], 90, 1, 0, 0, 1, 0⟩] })

/-- The unit with the RF die's link up and all its rails, port 3 in a transmit state and free of UNCAL. -/
def port3 (st : Nat) : State :=
  (((up.updUnit (fun u => { u with st := .running })).fset A.DIE_LINK_STATUS (F.DIE_LINK_STATUS.LINK_UP.bit 6) 1).fset
    (A.RF_STATUS 3) F.RF_STATUS.UNCAL 0).fset (A.RF_STATUS 3) F.RF_STATUS.TX st

/-- Port 3 with a command word of its transmit, which started or was issued at tick 90. -/
def cmd3 (st : Nat) (w : Word) : State :=
  ((port3 st).updPt 3 (fun k => { k with cmd := w, started := 90, issue := 90, coexAt := 90 })).setEff A.COEX_CTL
    (F.COEX_CTL.MODE.put (F.COEX_CTL.WAIT.put 0 10) 1)

/-- Synthesiser 1 with some status bits, and its calibration valid or not. -/
def synth (fs : List Fld) (valid : Nat) : State :=
  fs.foldl (fun s f => s.fset (A.SYN_STATUS 1) f 1) ((port3 txIdle).fset (A.SYN_CAL 1) F.SYN_CAL.VALID valid)

/-- Port 3 receives at 10 kHz, on a locked synthesiser, with its detector armed or not. -/
def receives (armed : Bool) : State :=
  ((((port3 txIdle).setEff (A.RF_RXCTL 3) (F.RF_RXCTL.RBW.put 0 3)).fset (A.RF_STATUS 3) F.RF_STATUS.RX_EFF 1).fset (A.SYN_STATUS 0) F.SYN_STATUS.LOCK 1).updPt 3 (fun k => { k with rxArmed := armed, rxSince := some 0 })

/-- A calibration run in progress, with some of its fields set. -/
def calRun (f : Cal → Cal) : State := (up.fset A.CAL_STATUS F.CAL_STATUS.BUSY 1).updCal f

/-- The last element, with its slot and common entries, accepted in a run whose commit is due. -/
def committing : State :=
  calRun (fun c => { c with commit := 1, slot := 3
                            accepted := [⟨919, List.replicate (elemSlots 919) 1, List.replicate (elemCommons 919) (-1), false⟩] })

/-- The bytes of a number, least significant first. -/
def bytes (n v : Nat) : List Nat := (List.range n).map (fun i => v / 256 ^ i % 256)

/-- The CRC of a list of bytes. -/
def crcList (l : List Nat) : Nat := crcOf (fun i => l.getD i 0) l.length

/-- Bytes in the flash from an address on. -/
def flashAt (a : Nat) (l : List Nat) (s : State) : State := (l.zipIdx).foldl (fun s p => s.fPut (a + p.2) (BitVec.ofNat 8 p.1)) s

/-- The payload of a segment: a WRITE of one word at the last address of the vector memory of bank 3, and END. -/
def payload (w : Nat) : List Nat :=
  bytes 9 (A.VMEM 3 262143 7 + 2 ^ 36 * 1) ++ bytes 9 (w + 2 ^ 36 * 2 ^ 35)

/-- A segment of bank 3. -/
def segment (w : Nat) : List Nat :=
  let head := [2, 3, 0, 0] ++ bytes 4 18 ++ bytes 4 (crcList (payload w)) ++ List.replicate 16 0
  head ++ bytes 4 (crcList head) ++ payload w

/-- A slot header for one segment, with an activation sequence. -/
def slotHeader (seq : Nat) : List Nat :=
  let head (q : Nat) := bytes 4 0x4d41584c ++ bytes 2 1 ++ bytes 2 1 ++ bytes 4 114 ++ bytes 4 q ++ List.replicate 44 0
  head seq ++ bytes 4 (crcList (head (2 ^ 32 - 1)))

/-- Slot A is in force with a segment of bank 3 and activation sequence 6. -/
def flashed : State :=
  ((flashAt 0 (slotHeader 6 ++ segment 77) up).fset A.ALMANAC_STATUS F.ALMANAC_STATUS.NONE 0).fset A.ALMANAC_STATUS F.ALMANAC_STATUS.SLOT 0

/-- A reload of a target waits. -/
def queued (tg : Nat) : State := flashed.updAlm (fun k => { k with queue := [(99, tg)] })

/-- `NVM_ADDR` holds an address. -/
def nvmAddr (a : Nat) : State := flashed.fset A.NVM_ADDR F.NVM_ADDR.ADDR a

/-- A packet from host A to unit 5. -/
def hostPkt (ptype addr : Nat) (timed : Bool) (ws : List Word) : Pkt :=
  pktSeal { pktRead addr with ptype := ptype, timed := timed, payload := ws }

/-- A whole request that `ringUp` takes, as a Bool. -/
def takes (p : Pkt) : Bool :=
  ringUp.unit.ringOut && p.ttl != 0 && ringUp.assigned && p.dsth == 0 && p.dst == ringUp.ringAddr && p.srch != 0
    && !p.viol && !p.bad && !pktBad p && !pktMalformed p

theorem takes_takes (p : Pkt) (h : takes p = true) : Takes ringUp p := by
  simp only [takes, Bool.and_eq_true, Bool.not_eq_true', bne_iff_ne, beq_iff_eq] at h
  exact ⟨h.1.1.1.1.1.1.1.1.1, h.1.1.1.1.1.1.1.1.2, h.1.1.1.1.1.1.1.2, h.1.1.1.1.1.1.2, h.1.1.1.1.1.2,
    fun h0 => absurd h0 h.1.1.1.1.2, h.1.1.1.2, h.1.1.2, h.1.2, h.2⟩

/-- The queue of host A is full. -/
def requestsFull : State := ringUp.updRing (fun r => { r with rqA := List.replicate Config.requestDepth (pktRead 0) })

/-- A held timed write, due in this window. -/
def heldWrite (addr : Nat) : State := ringUp.updRing (fun r => { r with timed := [⟨101, addr, [100], .a, [], []⟩] })

/-- The store is ready, and host A has the store port for its request. -/
def atPort (p : Pkt) : State :=
  (ringUp.fset A.BS_STATUS F.BS_STATUS.READY 1).updRing (fun r => { r with rqA := [p], port := some .a })

/-- A packet from host A on its way to unit 6, and one that this unit sent. -/
def passing (ttl : Nat) : Pkt := pktSeal { pktRead 0 with dst := 6, ttl := ttl }

/-- A packet of this unit that has gone around. -/
def around (dsth : Nat) : Pkt := pktSeal { pktRead 0 with src := 5, srch := 0, dsth := dsth, dst := 0 }

/-- An ENUM of host A. -/
def enumPkt (w : Word) : Pkt := pktSeal { pktRead 0 with ptype := ptEnum, dst := 63, payload := [w] }

/-- The unit with a note for each host, as a NOTICE. -/
def noted : State := ringUp.updRt (fun r => { r with notes := [⟨false, 9, up.tickStamp, 0, true, false⟩] })

/-! ### What the obligations assume, at concrete states -/

theorem witness_StepRunsTheFrontCommand : State.reset.pending = [] := rfl

theorem witness_ResetLeavesResetValues :
    0 < 0x4000000 ∧ 0x3ffffff < 0x4000000 ∧ 0 < 12 ∧ 11 < 12 ∧ 767 < 768 ∧ State.reset.bankState 11 = bankOff := by decide +kernel

theorem witness_EveryStepKeepsTheTablesCanonical : State.reset.wf = true ∧ up.wf = true := by decide +kernel

theorem witness_CommandsChangeOnlyWhatTheyTouch :
    (∃ t, exec .tickStatusRead up = .next t) ∧ Part.mem ∉ touches .tickStatusRead ∧ Part.store ∉ touches .tickStatusRead
      ∧ Part.flash ∉ touches .tickStatusRead :=
  ⟨⟨_, rfl⟩, by decide⟩

theorem witness_TickFramesAndLostTicks :
    frameCount [none] = none ∧ frameCount (frameOf 36) = some 36 ∧ frameCount (frameOf (2 ^ 48 - 1)) = some (2 ^ 48 - 1)
      ∧ up.clk.running = true ∧ up.clk.count < 2 ^ 48 ∧ up.clk.count = (36 + 64) % 2 ^ 48 ∧ up.clk.count ≠ (2 ^ 48 - 1 + 64) % 2 ^ 48
      ∧ 4 ≤ (up.updClk (fun c => { c with missing := 4 })).clk.missing := by decide +kernel

/-- The unit with leaps enabled and a phase error, in the midst of a jump or not. -/
def leaping (phase jump : Int) (from_ : Nat) : State :=
  leapReady.updClk (fun c => { c with phase := phase, jump := jump, jumpFrom := from_ })

theorem witness_LeapTicksAreScheduledAndTaken :
    (64 ≤ leapReady.clk.persist ∧ leapReady.fon A.LEAP_CTL F.LEAP_CTL.EN = true ∧ leapReady.clk.leapDue = none ∧ leapReady.clk.jump = 0
        ∧ (leapReady.updClk (fun c => { c with lastLeap := some 90 })).clk.lastLeap = some 90)
      ∧ (leapReady.canLeap = true ∧ (leapReady.updClk (fun c => { c with leapDue := some 100 })).clk.leapDue = some 100
        ∧ 100 ≤ leapReady.now)
      ∧ ((leaping 0 5 100).canLeap = true ∧ (leaping 0 5 100).clk.jump ≠ 0 ∧ (leaping 0 5 100).clk.jumpFrom ≤ (leaping 0 5 100).now
        ∧ (leaping 0 5 100).clk.jump = clampInt (-5) 5 5 ∧ (leaping 0 (-6) 100).clk.jump ≠ clampInt (-5) 5 (-6))
      ∧ (up.fset A.LEAP_CTL F.LEAP_CTL.EN 0).fon A.LEAP_CTL F.LEAP_CTL.EN = false
      ∧ (leapReady.updClk (fun c => { c with lastLeap := some 100 })).clk.lastLeap = some leapReady.now := by decide +kernel

theorem witness_LeapControlWrites :
    accepts A.LEAP_CTL 0 = false
      ∧ (accepts A.LEAP_CTL (leapWord [F.LEAP_CTL.ADOPT]) = true ∧ F.LEAP_CTL.ADOPT.on (leapWord [F.LEAP_CTL.ADOPT]) = true
        ∧ F.LEAP_CTL.JUMP.on (leapWord [F.LEAP_CTL.ADOPT]) = false)
      ∧ (accepts A.LEAP_CTL (F.LEAP_CTL.EN.put (leapWord []) 0) = true ∧ F.LEAP_CTL.EN.on (F.LEAP_CTL.EN.put (leapWord []) 0) = false)
      ∧ (accepts A.LEAP_CTL (leapWord [F.LEAP_CTL.EN, F.LEAP_CTL.JUMP]) = true
        ∧ F.LEAP_CTL.JUMP.on (leapWord [F.LEAP_CTL.EN, F.LEAP_CTL.JUMP]) = true
        ∧ F.LEAP_CTL.EN.on (leapWord [F.LEAP_CTL.EN, F.LEAP_CTL.JUMP]) = true)
      ∧ (leaping 1536 0 0).clk.jump = 0 ∧ wholeSteps (leaping 1536 0 0).clk.phase ≠ 0
      ∧ wholeSteps (leaping 1535 0 0).clk.phase = 0 := by decide +kernel

/-- A measurement of the epact is under way, with some markers counted on ring A and one on ring B. -/
def measuring (n : Nat) : State := (up.fset A.EPACT_CTL F.EPACT_CTL.BUSY 1).updClk (fun c => { c with cntA := n, cntB := 1 })

theorem witness_EpactCommands :
    (accepts A.EPACT 3072 = true ∧ accepts A.EPACT 1 = true ∧ up.clk.running = true
        ∧ Int.tmod (twos 25 (F.EPACT.EPACT.get 1) - up.clk.epact) 3072 ≠ 0)
      ∧ up.fon A.EPACT_CTL F.EPACT_CTL.BUSY = false
      ∧ ((measuring 3584).fon A.EPACT_CTL F.EPACT_CTL.BUSY = true ∧ (measuring 3584).clk.measLeft = 0
        ∧ decide (3584 ≤ (measuring 3584).clk.cntA) = true ∧ decide (3584 ≤ (measuring 3583).clk.cntA) = false
        ∧ (measuring 0).clk.cntA = 0 ∧ (measuring 3584).clk.cntA ≠ 0 ∧ (measuring 0).clk.cntB ≠ 0) := by decide +kernel

theorem witness_CoreResets :
    exec .resetNLow up = .next (after .resetNLow up) ∧ up.unit.st ≠ .deepReady ∧ deep.unit.st = .deepReady ∧ up.alm.op = none
      ∧ (regInfo A.WAKE_CODE).ev = .vaon ∧ (regInfo A.POWER_CAP).ev ≠ .vaon ∧ (regInfo A.POWER_CAP).ev ≠ .fuses
      ∧ (regInfo 0).ev = .fuses :=
  ⟨rfl, by decide +kernel⟩

theorem witness_Supplies :
    (Rail.vddio ∈ [Rail.vddc, .vddio, .vdda] ∧ up.unit.railGood .vddio = true ∧ up.unit.vaon = true ∧ up.unit.st ≠ .deepReady)
      ∧ (deep.unit.railGood .vddc = true ∧ deep.unit.vaon = true ∧ deep.unit.st = .deepReady)
      ∧ (up.unit.vaon = true ∧ up.unit.vbak = true) ∧ State.reset.unit.railGood .vddc = false
      ∧ State.reset.unit.vrf = false ∧ up.unit.vrf = true
      ∧ (railDie (.vpos 5) = some 5 ∧ up.unit.railGood (.vpos 5) = true ∧ dieOfBank (bankOf 767) = 5 ∧ dieOfBank (bankOf 0) ≠ 5)
      ∧ (railDie .vrf = some 6 ∧ up.unit.railGood .vrf = true)
      ∧ (deep.unit.railGood (.vneg 0) = true ∧ railDie (.vneg 0) = some 0)
      ∧ railDie .vbak = none ∧ (up.dieRails 5 = true ∧ up.linkUp 5 = false) ∧ State.reset.dieRails 6 = false
      ∧ (up.fset A.DIE_LINK_STATUS (F.DIE_LINK_STATUS.LINK_UP.bit 6) 1).linkUp 6 = true := by decide +kernel

/-- The RF die has its CONV PLL locked and its link up, and has had some retries in the tick. -/
def linked (n : Nat) : State :=
  ((up.fset A.CLK_STATUS (F.CLK_STATUS.CONV_LOCK.bit 6) 1).fset A.DIE_LINK_STATUS (F.DIE_LINK_STATUS.LINK_UP.bit 6) 1).updUnit
    (fun u => { u with retries := u.retries.set 6 n })

theorem witness_DieClocksAndLinks :
    ((linked 0).unit.pllOn.testBit 6 = true ∧ (linked 0).pllLocked 6 = true) ∧ up.pllLocked 6 = false
      ∧ (up.unit.pllOn.testBit 6 = true ∧ up.unit.vrf = true) ∧ State.reset.unit.pllOn.testBit 0 = false
      ∧ ((linked 3).unit.retries.getD 6 0 < 4 ∧ 4 ≤ (linked 4).unit.retries.getD 6 0 ∧ (linked 4).linkUp 6 = true)
      ∧ ((up.updUnit (fun u => { u with retrain := 64 })).unit.retrain.testBit 6 = true ∧ up.unit.retrain.testBit 6 = false)
      ∧ (up.unit.st = .running ∧ up.linkUp 6 = false ∧ up.dieRails 6 = true) ∧ deep.unit.st ≠ .running := by decide +kernel

theorem witness_StartUpSteps :
    ((starting 0).unit.st = .starting ∧ (starting 0).step_ = 0 ∧ (starting 0).mainGood = true
        ∧ ((starting 0).updUnit (fun u => { u with causes := 24 })).unit.causes.testBit 3 = true
        ∧ (∀ d, d < 3 → ((starting 0).updUnit (fun u => { u with causes := 24 })).unit.causes.testBit d = false)
        ∧ ([true, false] : List Bool).getD 0 false = true ∧ ([true, false] : List Bool).getD 6 false = false ∧ up.unit.vrf = true)
      ∧ State.reset.mainGood = false ∧ up.unit.st ≠ .starting
      ∧ ((starting 6).unit.st = .starting ∧ (starting 6).step_ = 6 ∧ (starting 6).clk.running = true
        ∧ ((starting 6).updClk (fun c => { c with running := false })).clk.running = false) ∧ (starting 5).step_ ≠ 6 := by decide +kernel

/-- The unit in WAKING with no CONV PLL to relock. -/
def waking : State := up.updUnit (fun u => { u with st := .waking, pllOn := 0 })

theorem witness_TheTickStarts :
    ((starting 7).unit.st = .starting ∧ (starting 7).step_ = 7 ∧ ((starting 7).updClk (fun c => { c with running := false })).clk.running = false)
      ∧ ((starting 1).step_ ≠ 0 ∧ (starting 1).step_ ≠ 7) ∧ (starting 0).step_ = 0 ∧ (starting 7).clk.running = true
      ∧ (waking.unit.st = .waking ∧ waking.relocked = true) ∧ up.relocked = false := by decide +kernel

theorem witness_DeepVigil :
    (up.unit.st = .running ∧ deep.unit.st ≠ .running)
      ∧ ((up.updUnit (fun u => { u with deepReq := true })).unit.deepReq = true ∧ up.bankReloads = false)
      ∧ up.unit.deepReq = false ∧ (pendingDone.unit.st = .deepPending ∧ DeepQuiet pendingDone)
      ∧ (deep.unit.st = .deepReady ∧ deep.unit.vddcFell = false ∧ deep.unit.otherFell = false
        ∧ (deep.updIsl (fun i => { i with wakeN := true })).isl.wakeN = true)
      ∧ ((deep.updUnit (fun u => { u with vddcFell := true })).unit.vddcFell = true ∧ deep.mainGood = true ∧ deep.unit.vpos = 63
        ∧ deep.unit.vneg = 63 ∧ (deep.updUnit (fun u => { u with otherFell := true })).unit.otherFell = true)
      ∧ (deep.updUnit (fun u => { u with vpos := 62, otherFell := true })).unit.vpos ≠ 63 ∧ deep.isl.wakeN = false :=
  ⟨by decide +kernel, by decide +kernel, by decide +kernel,
    ⟨by decide +kernel, fun x h => absurd h List.not_mem_nil, by decide +kernel, by decide +kernel, by decide +kernel, by decide +kernel,
      .inl (by decide +kernel), by decide +kernel⟩, by decide +kernel⟩

/-- A value of POWER_CAP that is due at the next boundary. -/
def capDue (who : Writer) : State := up.updStaged (fun _ => [⟨100, who, .force A.POWER_CAP 50, false⟩])

theorem witness_BoundaryBeginsTheTick :
    up.clk.running = true ∧ State.reset.clk.running = false
      ∧ ((capDue (.host .a)).staged = [⟨100, .host .a, .force A.POWER_CAP 50, false⟩] ∧ 100 ≤ up.now
        ∧ A.POWER_CAP ∈ [A.POWER_CAP, A.POWER_DIE_CAP 0, A.POWER_DIE_CAP 1]) := by decide +kernel

theorem witness_WindowTakesTheEventsOfTheTickBefore :
    up.clk.running = true ∧ State.reset.clk.running = false ∧ up.fon A.TICK_STATUS F.TICK_STATUS.FREE = false
      ∧ (up.fset A.TICK_STATUS F.TICK_STATUS.FREE 1).fon A.TICK_STATUS F.TICK_STATUS.FREE = true
      ∧ ((starting 1).clk.running = true ∧ (starting 1).coreRuns = false)
      ∧ phaseFar (up.phaseError 0) up.thresh = false := by decide +kernel

/-- A request that is held back, and two that wait for 64 and 63 ticks. -/
def queueAged : State := up.updLed (fun l => { l with queue := [waiting 1 0 .held, waiting 2 64 .shared, waiting 3 63 .shared] })

theorem witness_RequestsAgeAndTakeEntries :
    queueAged.led.queue.filter (fun q => q.slot == .held) = [waiting 1 0 .held]
      ∧ up.led.queue.filter (fun q => q.slot == .held) = []
      ∧ (waiting 2 64 .shared ∈ queueAged.led.queue ∧ (waiting 2 64 .shared).id = 2 ∧ 64 ≤ (waiting 2 64 .shared).age)
      ∧ (waiting 3 63 .shared ∈ queueAged.led.queue ∧ (waiting 3 63 .shared).age < 64)
      ∧ asking 2 64 ∈ (up.updRt (fun r => { r with arbs := [asking 2 64, asking 3 63] })).rt.arbs ∧ 64 ≤ (asking 2 64).age
      ∧ (asking 3 63).age < 64 := by decide +kernel

theorem prevails_up (a : Nat) (w : Wr) : Prevails a w up := fun _ h => absurd h List.not_mem_nil

theorem witness_DelayedWritesReadBackAndWait :
    (accepts A.POWER_CAP 100 = true ∧ Prevails A.POWER_CAP (byHost 100) up
        ∧ (capDue (.router 0)).outranked A.POWER_CAP 100 (.host .a) = true
        ∧ accepts (A.POWER_DIE_CAP 1) (F.POWER_DIE_CAP.CAP_LO.put 0 1023) = false)
      ∧ (up.rt.reload = false ∧ accepts (A.RULE_SRC 63 + 3) 0 = true ∧ Prevails (A.RULE_SRC 63 + 3) (byHost 0) up
        ∧ reloading.rt.reload = true)
      ∧ (7 ∈ [1, 2, 3, 4, 5, 6, 7] ∧ (up.bk (bankOf 767)).reload = false ∧ accepts (A.CH_MODE 767 + 7) 0 = true
        ∧ Prevails (A.CH_MODE 767 + 7) (byHost 0) up ∧ (reloading.bk (bankOf 0)).reload = true)
      ∧ placeOf 0x80000 = .none ∧ placeOf (A.CAPT 23 1048575) = .capt 23 1048575 :=
  ⟨⟨by decide +kernel, prevails_up _ _, by decide +kernel⟩, ⟨by decide +kernel, by decide +kernel, prevails_up _ _, by decide +kernel⟩,
    ⟨by decide +kernel, by decide +kernel, by decide +kernel, prevails_up _ _, by decide +kernel⟩, by decide +kernel⟩

theorem witness_ClearsAndRequestsWait :
    (up.bk (bankOf 767)).reload = false ∧ (reloading.bk (bankOf 63)).reload = true := by decide +kernel

theorem witness_ReadsClear :
    up.ring.timed = [] ∧ A.DIE_LINK_STATUS ∈ [A.DIE_LINK_STATUS, A.TICK_STATUS, A.TICK_BUDGET, A.RING_ERR_A, A.RING_ERR_B, A.RT_STATUS]
      ∧ A.RT_STATUS ∈ [A.DIE_LINK_STATUS, A.TICK_STATUS, A.TICK_BUDGET, A.RING_ERR_A, A.RING_ERR_B, A.RT_STATUS] := by decide +kernel

theorem witness_ReadsLatchTheSecondWord :
    ((twoEdges.ch 5).edges = [⟨3, up.tickStamp⟩, ⟨0, up.tickStamp⟩] ∧ 3 < 4 ∧ [(⟨0, up.tickStamp⟩ : Edge)].length < 32)
      ∧ (up.ch 5).edges = [] ∧ Side.b ≠ Side.a := by decide +kernel

theorem witness_TimersAndTimedCommands :
    (F.RT_TMR.EN.on (timersOn.eff (A.RT_TMR 0)) = true ∧ F.RT_TMR.PERIOD.get (timersOn.eff (A.RT_TMR 0)) = 50 ∧ timersOn.rt.reload = false
        ∧ F.RT_TMR.ABS.on (timersOn.eff (A.RT_TMR 0)) = true ∧ 50 ∣ timersOn.clk.count ∧ ¬ 50 ∣ timersOn.clk.count + 1)
      ∧ (F.RT_TMR.EN.on (timersOn.eff (A.RT_TMR 1)) = true ∧ F.RT_TMR.ABS.on (timersOn.eff (A.RT_TMR 1)) = false
        ∧ timersOn.now = Tab.get (fun _ => 0) timersOn.rt.tmr 1 + 2 * F.RT_TMR.PERIOD.get (timersOn.eff (A.RT_TMR 1)))
      ∧ F.RT_TMR.EN.on (timersOn.eff (A.RT_TMR 2)) = false ∧ reloading.rt.reload = true
      ∧ ((15, 100) ∈ timersOn.rt.cmds ∧ 100 = timersOn.clk.count % 2 ^ 36) ∧ (14, 100) ∉ timersOn.rt.cmds := by decide +kernel

/-- The writable bits of a register that a word keeps, as an AT value. -/
def forced (a : Nat) (v : Word) : Eff := .force a (v &&& (regInfo a).rw)

theorem witness_SeasonsAndCounters :
    (inSeason.sea.open_ = true ∧ inSeason.clk.running = true ∧ inSeason.eget A.SEASON_CTL F.SEASON_CTL.INTERVAL = 1000
        ∧ 1000 ≤ inSeason.sea.len ∧ inSeason.sea.due = 0 ∧ (inSeason.updSea (fun k => { k with due := 4 })).sea.due ≠ 0)
      ∧ (up.sea.open_ = false ∧ (inSeason.updSea (fun k => { k with len := 999 })).sea.len < inSeason.eget A.SEASON_CTL F.SEASON_CTL.INTERVAL)
      ∧ (inSeason.sea.recs = [(98, List.replicate 16 5)] ∧ 98 ≤ inSeason.now ∧ (List.replicate 16 (5 : Word)).length = 16
        ∧ inSeason.bsFailed = false ∧ (inSeason.fset A.BS_STATUS F.BS_STATUS.FAILED 1).bsFailed = true)
      ∧ (up.sea.recs = [] ∧ (inSeason.updSea (fun k => { k with recs := [(101, [])] })).now < 101)
      ∧ (inSeason.sea.seasonDue = true ∧ inSeason.sea.seasonFrom ≤ inSeason.now ∧ up.sea.seasonDue = false
        ∧ inSeason.now < (inSeason.updSea (fun k => { k with seasonFrom := 101 })).sea.seasonFrom)
      ∧ hourTicks ≤ (up.updUnit (fun u => { u with runTicks := hourTicks })).unit.runTicks
      ∧ (up.updUnit (fun u => { u with runTicks := hourTicks - 1 })).unit.runTicks < hourTicks := by decide +kernel

/-- The slots of a change are taken out of the store, at a cycle of the sequence. -/
def tslot (pos : Nat) : State := up.updCal (fun c => { c with tslotDue := 8, tslotPos := pos })

theorem witness_SamplesAndSlots :
    (up.coreRuns = true ∧ State.reset.coreRuns = false ∧ inSeason.sea.open_ = true
        ∧ ((inSeason.updClk (fun c => { c with count := 0 })).sampleTick = true ∨ inSeason.sampleTick = true))
      ∧ ((tslot 0).cal.tslotDue ≠ 0 ∧ (tslot 0).cal.commit ≠ 2 ∧ (tslot 0).bsFailed = false ∧ (tslot 0).cal.tslotAt ≤ (tslot 0).now
        ∧ (tslot 0).cal.tslotPos = 0)
      ∧ (1 ≤ (tslot 58).cal.tslotPos ∧ (tslot 58).cal.tslotPos ≤ tslotCycles ∧ 919 / 16 = (tslot 58).cal.tslotPos - 1)
      ∧ tslotCycles < (tslot 59).cal.tslotPos ∧ up.cal.tslotDue = 0 := by decide +kernel

/-- Words of BANK_MODE and of CH_PMU_CTL that ask for ACTIVE and for a forced current. -/
def activeWord : Word := F.BANK_MODE.REQ.put 0 bankActive

theorem witness_WritesThatAskTheLedger :
    ((reloading.bk (bankOf 5)).reload = true ∧ (up.bk (bankOf 5)).reload = false ∧ accepts (A.CH_MODE 5) modeWord = true
        ∧ ((up.updCh 5 (fun h => { h with held := true })).ch 5).held = true ∧ (up.ch 5).held = false
        ∧ up.queueFull .host (.reg (A.CH_MODE 5)) [forced (A.CH_MODE 5) modeWord] = false
        ∧ queueFull.queueFull .host (.reg (A.CH_MODE 5)) [forced (A.CH_MODE 5) modeWord] = true
        ∧ 0 < active0.chargeOf [forced (A.CH_MODE 5) modeWord] ∧ up.chargeOf [forced (A.CH_MODE 5) 0] = 0 ∧ up.staged = [])
      ∧ (accepts (A.CH_PMU_CTL 5) 0 = true ∧ up.queueFull .host (.reg (A.CH_PMU_CTL 5)) [forced (A.CH_PMU_CTL 5) 0] = false)
      ∧ (accepts (A.VEC_PERIOD 11) (resetWord (A.VEC_PERIOD 11)) = true ∧ accepts (A.VEC_PERIOD 11) 0 = false ∧ (up.bk 11).reload = false
        ∧ up.queueFull .host (.reg (A.VEC_PERIOD 11)) [forced (A.VEC_PERIOD 11) (resetWord (A.VEC_PERIOD 11))] = false)
      ∧ (accepts (A.BANK_MODE 0) activeWord = true ∧ up.outranked (A.BANK_MODE 0) (up.dueAt 0) (.host .a) = false
        ∧ up.activeBarred 0 = true ∧ (F.BANK_MODE.REQ.get activeWord = bankActive) ∧ ¬(bankSafe = bankActive)
        ∧ up.queueFull .host (.bank 0) [.bank 0 bankSafe] = false) := by decide +kernel

theorem witness_WritesThatAskTheLedger_writer : ∀ n, (byHost 0).who ≠ .router n := nofun

theorem witness_DriversAndClamps :
    (chan5.funcEff 5 = fnPattern ∧ 16 ≤ ((chan5.updCh 5 (fun h => { h with limTicks := 16 })).ch 5).limTicks
        ∧ chan5.fon (A.CH_STATUS 5) F.CH_STATUS.DRV_FAULT = false)
      ∧ (up.funcEff 5 ≠ fnPattern ∧ up.funcEff 5 ≠ fnStatic) ∧ ((chan5.updCh 5 (fun h => { h with limTicks := 15 })).ch 5).limTicks < 16
      ∧ ((chan5.ch 5).pmuOn = true ∧ chan5.fon (A.CH_PMU_STATUS 5) F.CH_PMU_STATUS.CLAMP = false) ∧ (up.ch 5).pmuOn = false := by
  decide +kernel

/-- Channel 5 with its comparator's outputs, its input 1,000,000 microvolts below them, and its filter taking one decision of one. -/
def compared (rawH rawL : Bool) : State :=
  ((chan5.setEff (A.CH_FILTER 5) (F.CH_FILTER.N.put (F.CH_FILTER.M.put 0 1) 1)).updCh 5 (fun h => { h with
    rawH := rawH, rawL := rawL, level := -100000000 })).updClk (fun c => { c with start := 200000 })

/-- The outputs of channel 5 at an input level. -/
def outputs (s : State) (level : Int) : Bool × Bool :=
  s.cmpNext 5 false ((s.ch 5).rawH, (s.ch 5).rawL) (s.cmpInput 5 level)

theorem witness_ComparatorEvents :
    (((compared false true).bankAdvance 0 ((compared false true).instant 0)).ch 5).active = true
      ∧ (outputs (compared false true) (-100000000) = (false, true) ∧ outputs (compared true true) (-100000000) = (false, true)
        ∧ outputs (compared false false) (-100000000) = (false, true) ∧ outputs (compared false true) 100000000 = (true, false))
      ∧ ((compared false true).live 5 = true ∧ (compared false true).rearming 5 200000 true = false
        ∧ (compared false true).captures 5 1 (edgeKind true true) = true ∧ ((compared false true).ch 5).edges.length + 2 ≤ Config.edgeDepth
        ∧ ((compared false true).setEff (A.CH_EDGE_CTL 5) 0).captures 5 1 (edgeKind true true) = false
        ∧ ((compared false true).updCh 5 (fun h => { h with stampedH := some 200000 })).rearming 5 200000 true = true
        ∧ ((compared false true).fset (A.CH_STATUS 5) F.CH_STATUS.INBAND_START 1).live 5 = false)
      ∧ ((compared false true).fon (A.CH_STATUS 5) F.CH_STATUS.TEST = false
        ∧ aboveCode 100000000 (F.CH_CMPH.CODE.get ((compared false true).eff (A.CH_CMPH 5))) ((compared false true).cmpHalf 5) = true
        ∧ belowCode (-100000000) (F.CH_CMPL.CODE.get ((compared false true).eff (A.CH_CMPL 5))) (-(compared false true).cmpHalf 5) = true)
      ∧ ((compared true false).accepted 5 ((compared true false).instant 0) = some 2
        ∧ transitionEdges ((compared true false).fget (A.CH_STATUS 5) F.CH_STATUS.STATE) 2 ≠ []
        ∧ ((compared true false).fset (A.CH_STATUS 5) F.CH_STATUS.INBAND_START 1).fon (A.CH_STATUS 5) F.CH_STATUS.INBAND_START = true
        ∧ ((compared true false).fset (A.CH_STATUS 5) F.CH_STATUS.TEST 1).live 5 = false)
      ∧ up.accepted 5 0 = none ∧ (up.ch 5).active = false := by decide +kernel

theorem witness_ChannelLatches :
    ((up.bk (bankOf 5)).reload = false ∧ up.eon (A.CH_MODE 5) F.CH_MODE.LATCH_CLR = false
        ∧ (up.fset (A.CH_LATCH 5) F.CH_LATCH.FAIL 1).fon (A.CH_LATCH 5) F.CH_LATCH.FAIL = true
        ∧ (after (.chLatchWrite 5 F.CH_LATCH.FAIL.mask) (up.fset (A.CH_LATCH 5) F.CH_LATCH.FAIL 1)).fon (A.CH_LATCH 5) F.CH_LATCH.FAIL = false)
      ∧ (up.setEff (A.CH_MODE 5) F.CH_MODE.LATCH_CLR.mask).eon (A.CH_MODE 5) F.CH_MODE.LATCH_CLR = true
      ∧ (reloading.bk (bankOf 5)).reload = true ∧ 767 < 768 ∧ latchOfKind 0 = some F.CH_LATCH.FAIL ∧ latchOfKind 8 = some F.CH_LATCH.DRV
      ∧ (up.ch 5).latchWrAt ≠ up.now := by decide +kernel

/-- The history of channel 767 after a sample. -/
def sampled (s : State) (level : Int) : List Bool :=
  ((s.aboveLight 767 level != s.eon (A.CH_VIGIL_CTL 767) F.CH_VIGIL_CTL.INV) :: (s.ch 767).chips).take 32

theorem witness_VigilMatches :
    ((vigil fnLight).funcEff 767 = fnLight ∧ (vigil fnLight).coreRuns = true ∧ (sampled (vigil fnLight) (-3000000)).length = 32
        ∧ chipErrors (sampled (vigil fnLight) (-3000000)) ((vigil fnLight).eget (A.CH_VIGIL_CODE 767) F.CH_VIGIL_CODE.CODE)
          ≤ (vigil fnLight).eget (A.CH_VIGIL_CTL 767) F.CH_VIGIL_CTL.MAXERR
        ∧ (vigil fnLight).eget (A.CH_VIGIL_CTL 767) F.CH_VIGIL_CTL.MAXERR
          < chipErrors (sampled (vigil fnLight) 9000000) ((vigil fnLight).eget (A.CH_VIGIL_CODE 767) F.CH_VIGIL_CODE.CODE)
        ∧ (sampled up 0).length < 32)
      ∧ ((vigil fnDeep).funcEff 767 = fnDeep ∧ ((vigil fnDeep).ch 767).sampler = true ∧ (vigil fnDeep).unit.vaon = true
        ∧ (vigil fnDeep).unit.vdda = true
        ∧ chipErrors ((((vigil fnDeep).aboveDeep 767 0 != F.CH_VIGIL_CTL.INV.on ((vigil fnDeep).ch 767).sCtl) :: ((vigil fnDeep).ch 767).chips).take 32)
            (F.CH_VIGIL_CODE.CODE.get ((vigil fnDeep).ch 767).sCode) ≤ F.CH_VIGIL_CTL.MAXERR.get ((vigil fnDeep).ch 767).sCtl
        ∧ (vigil fnDeep).fon A.WAKE_STATUS (F.WAKE_STATUS.BANK.bit (bankOf 767)) = false
        ∧ ((vigil fnDeep).fset A.WAKE_STATUS (F.WAKE_STATUS.BANK.bit (bankOf 767)) 1).fon A.WAKE_STATUS (F.WAKE_STATUS.BANK.bit (bankOf 767)) = true)
      ∧ (up.funcEff 767 ≠ fnLight ∧ up.funcEff 767 ≠ fnDeep)
      ∧ ((vigil fnDeep).ch 767).deepMatch = [up.tickStamp] ∧ (up.ch 767).deepMatch = [] := by decide +kernel

/-- Only one value crosses to the island. -/
def crosses (x : C9) : State := up.updIsl (fun i => { i with c9 := [x] })

theorem witness_IslandCrossings :
    (crossing.isl.c9 = .ctl 5 :: crossing.isl.c9.drop 1 ∧ (crosses (.code false 1)).isl.c9 = [.code false 1]
        ∧ (crosses (.code true 2)).isl.c9 = [.code true 2] ∧ (crosses (.wake true)).isl.c9 = [.wake true]
        ∧ (crosses (.latch 11 0)).isl.c9 = [.latch 11 0] ∧ 11 < 12 ∧ (crosses (.sampler 5 true 1 2)).isl.c9 = [.sampler 5 true 1 2]
        ∧ (crosses (.clear 0x3fff)).isl.c9 = [.clear 0x3fff] ∧ (0x3fff : Word).getLsbD 12 = true ∧ (0x3fff : Word).getLsbD 13 = true
        ∧ up.isl.causes.testBit 12 = false ∧ (0x3fff : Word).getLsbD 11 = true ∧ up.isl.causes.testBit 11 = false
        ∧ ((up.latched F.CH_ROUTE.WAKE_EN).map bankOf).contains 11 = false
        ∧ ((crosses (.sampler 767 true 1 2)).fset (A.CH_STATUS 767) F.CH_STATUS.FUNC_EFF fnDeep).funcEff 767 = fnDeep)
      ∧ (crossing.isl.c9[4]? = some (.sampler 5 true 1 2) ∧ crossing.isl.c9.length ≤ 5)
      ∧ (F.WAKE_CTL.UNIT_EN.on crossing.isl.ctl = true ∧ F.WAKE_CTL.BCAST_EN.on crossing.isl.ctl = true
        ∧ crossing.fon A.WAKE_STATUS F.WAKE_STATUS.EUNIT = false ∧ crossing.fon A.WAKE_STATUS F.WAKE_STATUS.EBCAST = false
        ∧ (crossing.fset A.WAKE_STATUS F.WAKE_STATUS.EUNIT 1).fon A.WAKE_STATUS F.WAKE_STATUS.EUNIT = true)
      ∧ F.WAKE_CTL.UNIT_EN.on up.isl.ctl = false ∧ F.WAKE_CTL.BCAST_EN.on up.isl.ctl = false
      ∧ crossing.isl.enelle = [(true, true)] ∧ up.isl.enelle = [] := by decide +kernel

theorem witness_TheVigilClock :
    (up.funcEff 767 ≠ fnDeep ∧ (up.isl.time + 1) % 2 ^ 36 % 2 ^ F.CH_VIGIL_CTL.K.get (F.CH_VIGIL_CTL.K.put 0 1) ≠ 0 ∧ up.enelleOn = false)
      ∧ (up.unit.st = .running ∧ (up.fset A.CLK_STATUS F.CLK_STATUS.XT32_OK 1).fon A.CLK_STATUS F.CLK_STATUS.XT32_OK = true)
      ∧ up.fon A.CLK_STATUS F.CLK_STATUS.XT32_OK = false := by decide +kernel

theorem witness_BankMemoryWrites :
    ((up.bk 3).reload = false ∧ up.seqState 3 ∉ [sqArmed, sqRunning, sqWaiting])
      ∧ ((seqAt 0 0 0).seqState 3 ∈ [sqArmed, sqRunning, sqWaiting] ∧ ((seqAt 0 0 0).bk 3).reload = false)
      ∧ (reloading.bk 0).reload = true := by decide +kernel

/-- A strobe of pin 0 of bank 3, judged LOW or captured, at the start of the tick. -/
def strobeOf (code : Nat) : Strobe := { ch := 0, at_ := 0, code := code, line := 7 }

theorem witness_FlowLines :
    lineIs 0x0 (seqAt 0x0 0 0) = true ∧ lineIs 0x2 (seqAt 0x2 0 262143) = true ∧ lineIs 0x3 (seqAt 0x3 3 16777215) = true
      ∧ lineIs 0x4 (seqAt 0x4 3 5) = true ∧ lineIs 0x5 (seqAt 0x5 0 262143) = true ∧ lineIs 0x6 (seqAt 0x6 0 0) = true
      ∧ (seqAt 0x4 3 5).loopCnt 3 ((seqAt 0x4 3 5).lineSel 3 7) ≤ 1
      ∧ 1 < ((seqAt 0x4 3 5).fset (A.SEQ_CNT 3 3) F.SEQ_CNT.COUNT 2).loopCnt 3 ((seqAt 0x4 3 5).lineSel 3 7)
      ∧ ((strobeOf 4).test = none ∧ (strobeOf 4).ch < 64 ∧ matchLoop.funcEff (64 * 3 + (strobeOf 4).ch) = fnPattern
        ∧ matchLoop.suppressed (64 * 3 + 0) = false ∧ codeJudged 4 = true ∧ codeJudged 0xc = false
        ∧ codePass 6 (matchLoop.strobeState (64 * 3 + 0) (strobeOf 6)) = true
        ∧ codePass 5 (matchLoop.strobeState (64 * 3 + 0) (strobeOf 5)) = false) := by decide +kernel

theorem witness_FlowLines_lineAt :
    LineAt 3 0x0 7 0 (seqAt 0x0 0 0) ((seqAt 0x0 0 0).bankAdvance 3 ((seqAt 0x0 0 0).instant 0)) := line_at (by decide +kernel)

/-- Bank 3 with an error halt to take, after a vector that has ended or not. -/
def erring (endAt : Nat) : State :=
  ((seqAt 0 0 0).updBk 3 (fun k => { k with err := some 1, endAt := endAt })).updClk (fun c => { c with start := 5 })

theorem witness_RepeatsAndLineFaults :
    (lineIs 0x1 (seqAt 0x1 0 3) = true
        ∧ ((seqAt 0x1 0 3).bk 3).rep + ([(⟨1, []⟩ : Vec), ⟨2, []⟩].length + 1) = (seqAt 0x1 0 3).lineArg 3 7
        ∧ ((seqAt 0x1 0 3).bk 3).rep + (([] : List Vec).length + 1) < (seqAt 0x1 0 3).lineArg 3 7
        ∧ (seqAt 0x1 0 3).lineArg 3 7 < ((seqAt 0x1 0 3).bk 3).rep + ([(⟨1, []⟩ : Vec), ⟨2, []⟩, ⟨3, []⟩].length + 1))
      ∧ ((seqAt 0x0 0 1).lineAt 3 0 = some 7 ∧ (seqAt 0x0 0 1).fetchOk 3 7 = true ∧ (seqAt 0x0 0 1).lineFault 3 7 = some 2
        ∧ (Instr.next 3 ⟨0, []⟩, (seqAt 0x0 0 1).lineOp 3 7) ∈ lineCmds 3 ⟨0, []⟩)
      ∧ up.lineAt 3 0 = none
      ∧ (max ((seqAt 0xe 0 0).bk 3).endAt (seqAt 0xe 0 0).clk.start < (seqAt 0xe 0 0).tickEnd
        ∧ (seqAt 0xe 0 0).lineAt 3 0 = some 7 ∧ 0xe ≤ (seqAt 0xe 0 0).lineOp 3 7 ∧ (seqAt 0xd 0 0).lineOp 3 7 < 0xe)
      ∧ (((erring 5).bk 3).err = some 1 ∧ 1 ∉ [0, 10] ∧ (erring 5).clk.start ≤ ((erring 5).bk 3).endAt
        ∧ ((erring 4).bk 3).endAt < (erring 4).clk.start) := by decide +kernel

theorem witness_WaitingLines :
    (lineIs 0x7 (seqAt 0x7 0 0x3f) = true ∧ lineIs 0xb (seqAt 0xb 0 0x3f) = true
        ∧ (seqAt 0x7 0 0x3f).flagOn 3 ((seqAt 0x7 0 0x3f).lineArg 3 7 % 16) ≠ ((seqAt 0x7 0 0x3f).lineArg 3 7).testBit 4
        ∧ (seqAt 0x7 0 0x2f).flagOn 3 ((seqAt 0x7 0 0x2f).lineArg 3 7 % 16) = ((seqAt 0x7 0 0x2f).lineArg 3 7).testBit 4
        ∧ ((seqAt 0xb 0 0x3f).bk 3).wait ≠ .hand ∧ ((waits .hand false).bk 3).wait = .hand)
      ∧ lineIs 0x8 (seqAt 0x8 0 16777215) = true ∧ ((waits (.ticks 100 none) false).bk 3).wait = .ticks 100 none
      ∧ (((waits (.ticks 9 (some 100)) false).bk 3).wait = .ticks 9 (some (waits (.ticks 9 (some 100)) false).now)
        ∧ (waits (.ticks 9 (some 100)) false).seqLive 3 = true ∧ ((waits (.ticks 9 (some 100)) false).bk 3).err = none)
      ∧ up.seqLive 3 = false ∧ lineIs 0x9 (seqAt 0x9 0 0) = true ∧ lineIs 0xd (seqAt 0xd 0 0) = true
      ∧ (((waits .halt false).bk 3).wait = .halt ∧ 0 ≤ ((waits .halt false).bk 3).endAt ∧ ((waits .halt false).bk 3).endAt < 1) := by
  decide +kernel

theorem witness_MatchLoopsAndRegisterLines :
    (lineIs 0xa (seqAt 0xa 3 5) = true ∧ lineIs 0xa matchLoop = true ∧ (matchLoop.bk 3).matched = none
        ∧ (lineChans 3 matchLoop).filter (fun i => codeJudged (matchLoop.pinCode 3 7 i)) = [0]
        ∧ (lineChans 3 (seqAt 0xa 3 5)).filter (fun i => codeJudged ((seqAt 0xa 3 5).pinCode 3 7 i)) = []
        ∧ ((matchLoop.updBk 3 (fun k => { k with matched := some (7, 9) })).bk 3).matched = some (7, 9))
      ∧ (matchLoop.loopCnt 3 (matchLoop.lineSel 3 7) ≤ 1
        ∧ 1 < (matchLoop.fset (A.SEQ_CNT 3 3) F.SEQ_CNT.COUNT 2).loopCnt 3 (matchLoop.lineSel 3 7)
        ∧ (⟨0, 7, 0, true, 9⟩ : Rep).failed = true ∧ (⟨0, 7, 0, false, 9⟩ : Rep).failed = false)
      ∧ lineIs 0xc (seqAt 0xc 0 0) = true
      ∧ (((waits (.wreg (some 100)) true).bk 3).wait = .wreg (some 100) ∧ ((waits (.wreg (some 100)) true).bk 3).wregReady = true
        ∧ 100 ≤ (waits (.wreg (some 100)) true).now)
      ∧ (((waits (.wreg (some 100)) false).bk 3).wregReady = false ∧ (waits (.wreg (some 101)) true).now < 101) := by decide +kernel

theorem witness_SequencerControl :
    ((seqIn sqIdle).seqState 3 ∉ [sqArmed, sqRunning, sqWaiting]
        ∧ ((((seqIn sqIdle).wr (A.SEQ_AT 3) 101).rd (A.SEQ_AT 3)).toNat + 2 ^ 36 - (seqIn sqIdle).clk.count % 2 ^ 36) % 2 ^ 36 < 2
        ∧ ¬ ((((seqIn sqIdle).wr (A.SEQ_AT 3) 102).rd (A.SEQ_AT 3)).toNat + 2 ^ 36 - (seqIn sqIdle).clk.count % 2 ^ 36) % 2 ^ 36 < 2
        ∧ 2 ^ 35 ≤ ((((seqIn sqIdle).wr (A.SEQ_AT 3) 99).rd (A.SEQ_AT 3)).toNat + 2 ^ 36 - (seqIn sqIdle).clk.count % 2 ^ 36) % 2 ^ 36)
      ∧ ((seqIn sqArmed).seqState 3 ∈ [sqArmed, sqRunning, sqWaiting] ∧ (seqIn sqArmed).seqState 3 = sqArmed)
      ∧ ((seqAt 0 0 0).seqLive 3 = true ∧ ((seqAt 0 0 0).bk 3).err = none ∧ (seqAt 0 0 0).nextLine 3 = some 7
        ∧ (seqAt 0 0 0).lineFault 3 7 = none ∧ (seqAt 0 0 1).nextLine 3 = some 7 ∧ (seqAt 0 0 1).lineFault 3 7 = some 2)
      ∧ ((seqIn sqIdle).seqState 3 ≠ sqArmed ∧ (seqIn sqIdle).seqLive 3 = false)
      ∧ ((seqIn sqArmed).led.queue = [] ∧ (seqIn sqArmed).bankState 3 = bankActive ∧ (seqIn sqArmed).edgesValid 3 = true
        ∧ (seqIn sqArmed).startOk 3 = true) := by decide +kernel

/-- Bank 3 in handover with its strobe pin at channel 192, whose H has risen or fallen at an instant of the current tick. -/
def strobed (entry : Word) (rise : Bool) (last : Option Nat) : State :=
  (((handed entry).updBk 3 (fun k => { k with lastCycle := last })).updCh 192 (fun h => { h with
    pts := [⟨5000, rise, false, 0⟩, ⟨0, !rise, false, 0⟩], hAt := 4000 }))

/-- What `StrobeEdge` says of the edge of `strobed`, as a Bool. -/
def strobeIs (u : State) : Bool :=
  F.RESP_CTL.EN.on (u.bk 3).respCtl && (u.bk 3).cut == false && decide ((u.bk 3).handFrom + handGap ≤ 5000) && (u.bk 3).hand
    && u.funcEff (64 * 3 + F.RESP_PINS.STB.get (u.bk 3).respPins) == fnPattern
    && edgeAt 5000 (!F.RESP_CTL.STB_EDGE.on (u.bk 3).respCtl) (u.ch (64 * 3 + F.RESP_PINS.STB.get (u.bk 3).respPins)).pts
    && (u.bk 3).lastEdge == none

theorem strobe_edge {u : State} (h : strobeIs u = true) : StrobeEdge 3 5000 u := by
  simp only [strobeIs, Bool.and_eq_true, beq_iff_eq, decide_eq_true_eq] at h
  obtain ⟨⟨⟨⟨⟨⟨h1, h2⟩, h3⟩, h4⟩, h5⟩, h6⟩, h7⟩ := h
  exact ⟨h1, h2, h3, .inl h4, h5, h6, fun e he => by rw [h7] at he; cases he⟩

theorem witness_ResponderCycles_edge :
    StrobeEdge 3 5000 ((strobed entTerm.mask true none).handDue 3 5000)
      ∧ StrobeEdge 3 5000 ((strobed entTerm.mask true (some 0)).handDue 3 5000)
      ∧ Qualified 3 5000 ((strobed entTerm.mask true none).handDue 3 5000) :=
  ⟨strobe_edge (by decide +kernel), strobe_edge (by decide +kernel), fun h => absurd h (by decide +kernel)⟩

theorem witness_ResponderCycles :
    5000 = (strobed 0 true none).clk.start + 5000
      ∧ (((strobed 0 true none).bk 3).lastCycle = none ∧ ((strobed 0 true (some 0)).bk 3).lastCycle = some 0 ∧ 5000 < 0 + 6144)
      ∧ (strobed entTerm.mask true none).respAddr 3 5000 = 0
      ∧ entValid.on ((strobed entTerm.mask true none).memRd (A.RESP_RAM 3 0)) = false
      ∧ (entValid.on ((strobed (entValid.mask ||| entTerm.mask) true none).memRd (A.RESP_RAM 3 0)) = true
        ∧ entTerm.on ((strobed (entValid.mask ||| entTerm.mask) true none).memRd (A.RESP_RAM 3 0)) = true
        ∧ ((0 / 4096) ^^^ F.RESP_WIN.MATCH.get ((strobed 0 true none).bk 3).respWin)
          &&& F.RESP_WIN.MASK.get ((strobed 0 true none).bk 3).respWin = 0)
      ∧ ((strobed 0 true none).bk 3).hand = true ∧ (strobed 0 true none).fon (A.RESP_FIRSTMISS 3) F.RESP_FIRSTMISS.VALID = false
      ∧ F.RESP_CTL.EN.on (up.bk 3).respCtl = false ∧ (up.bk 3).respDrive = none
      ∧ (((strobed 0 false none).bk 3).respDrive = some (1, 1, false)
        ∧ ((strobed 0 false none).pointAt 192 5000).h = F.RESP_CTL.STB_EDGE.on ((strobed 0 false none).bk 3).respCtl
        ∧ ((strobed 0 false none).ch 192).hAt + 128 * F.RESP_CTL.HOLD.get ((strobed 0 false none).bk 3).respCtl ≤ 5000
        ∧ 4000 < ((strobed 0 false none).ch 192).hAt + 128 * F.RESP_CTL.HOLD.get ((strobed 0 false none).bk 3).respCtl + 1) := by
  decide +kernel

theorem witness_ConverterCommands :
    ((pmcDone.bk 0).reload = false ∧ pmcDone.pmcUsable 0 0 = true ∧ pmcDone.pmcUsable 0 7 = false ∧ (reloading.bk 0).reload = true)
      ∧ ((pmcDone.pm (pmcOf 0 0)).done = [⟨5, 90, false, false, 0, true, 0, 100⟩] ∧ (100 : Nat) ≤ pmcDone.now
        ∧ pmcDone.pmcLower 0 0 5 = false)
      ∧ (((up.updPm 0 (fun k => { k with done := [⟨5, 90, true, false, 0, true, 0, 100⟩] })).pm (pmcOf 0 0)).done
          = [⟨5, 90, true, false, 0, true, 0, 100⟩])
      ∧ (up.pm (pmcOf 0 0)).done = [] ∧ pmcDone.now < 101
      ∧ (pmuBeyond 5 (pmcResult (2 ^ 35 - 1) 0) true (pmcDone.setEff (A.CH_PMU_CTL 5) F.CH_PMU_CTL.LIM_HI_EN.mask) = true
        ∧ pmuBeyond 5 (pmcResult (-(2 ^ 35)) 0) false (pmcDone.setEff (A.CH_PMU_CTL 5) F.CH_PMU_CTL.LIM_LO_EN.mask) = true) := by
  decide +kernel

/-- SRC_CTL and AE_CTL of source and engine 1 of bank 0 with EN set. -/
def srcWord (s : State) : Word := F.SRC_CTL.EN.put (s.rd (A.SRC_CTL 0 1)) 1
def aeEnWord (s : State) : Word := F.AE_CTL.EN.put (s.rd (A.AE_CTL 0 1)) 1

theorem witness_ElementEnables :
    ((active0.bk 0).reload = false ∧ (reloading.bk 0).reload = true ∧ accepts (A.SRC_CTL 0 1) (srcWord active0) = true
        ∧ active0.srcRises (elemOf 0 1) (srcWord active0 &&& (regInfo (A.SRC_CTL 0 1)).rw) = true ∧ active0.srcMayAsk (elemOf 0 1) = true
        ∧ up.srcMayAsk (elemOf 0 1) = false ∧ active0.queueFull .host (.src (elemOf 0 1)) [.srcOn (elemOf 0 1)] = false
        ∧ queueFull.queueFull .host (.src (elemOf 0 1)) [.srcOn (elemOf 0 1)] = true ∧ 0 < active0.chargeOf [.srcOn (elemOf 0 1)])
      ∧ (accepts (A.AE_CTL 0 1) (aeEnWord active0) = true
        ∧ active0.aeRises (elemOf 0 1) (aeEnWord active0 &&& (regInfo (A.AE_CTL 0 1)).rw) = true ∧ active0.aeBarred (elemOf 0 1) = false
        ∧ up.aeBarred (elemOf 0 1) = true ∧ F.AE_CTL.GO.on (aeEnWord active0) = false ∧ F.AE_CTL.STOP.on (aeEnWord active0) = false
        ∧ active0.queueFull .host (.ae (elemOf 0 1)) [.aeOn (elemOf 0 1)] = false
        ∧ queueFull.queueFull .host (.ae (elemOf 0 1)) [.aeOn (elemOf 0 1)] = true ∧ 0 < active0.chargeOf [.aeOn (elemOf 0 1)])
      ∧ active0.staged = [] := by decide +kernel

theorem witness_SourceRangeAndFault :
    ((source srDrive 2).fget (A.SRC_STATUS 0 1) F.SRC_STATUS.RANGE_EFF = 0
        ∧ (source srDrive 2).fon (A.SRC_STATUS 0 1) F.SRC_STATUS.LOAD_EFF = false ∧ (source srDrive 2).fget (A.SRC_STATUS 0 1) F.SRC_STATUS.PLAY = 2
        ∧ (source srDrive 0).fget (A.SRC_STATUS 0 1) F.SRC_STATUS.PLAY ≠ 2
        ∧ ((source srDrive 2).updSr 1 (fun k => { k with on := true })).srcState (elemOf 0 1) = srParked)
      ∧ ((source srDrive 2).fget (A.SRC_STATUS 0 1) F.SRC_STATUS.STATE = srDrive
        ∧ (source srParked 0).fget (A.SRC_STATUS 0 1) F.SRC_STATUS.STATE ≠ srDrive)
      ∧ ((source srDrive 2).eget (A.SRC_CTL 0 1) F.SRC_CTL.LIM < (((source srDrive 2).updSr 1 (fun k => { k with lim := 256 })).sr (elemOf 0 1)).lim
        ∧ ((source srDrive 2).bk 0).fault = none ∧ (((source srDrive 2).updBk 0 (fun k => { k with fault := some (0, 5) })).bk 0).fault = some (0, 5))
      ∧ ((source srDrive 2).sr (elemOf 0 1)).lim ≤ (source srDrive 2).eget (A.SRC_CTL 0 1) F.SRC_CTL.LIM
      ∧ ((active0.bk 0).reload = false ∧ Tab.get (fun _ => 0) (source srFault 0).setBits (A.SRC_STATUS 0 1) &&& F.SRC_STATUS.FAULT.mask = 0
        ∧ ((source srFault 0).setEff (A.SRC_CTL 0 1) F.SRC_CTL.EN.mask).eon (A.SRC_CTL 0 1) F.SRC_CTL.EN = true
        ∧ ((source srFault 0).sr (elemOf 0 1)).on = false ∧ (source srFault 0).srcBarred (elemOf 0 1) = false
        ∧ Tab.get (fun _ => 0) (Tab.set (fun _ => 0) [] (A.SRC_STATUS 0 1) F.SRC_STATUS.FAULT.mask) (A.SRC_STATUS 0 1)
          &&& F.SRC_STATUS.FAULT.mask ≠ (0 : Word)) := by decide +kernel

/-- Source 1 of bank 0 plays one pass of line 0 from an instant on, in a tick that starts at fine unit 200,000. -/
def playing (from_ : Nat) : State :=
  ((source srDrive 2).updSr 1 (fun k => { k with wave := some ⟨from_, 8, 0, 0, 1, []⟩ })).updClk (fun c => { c with start := 200000 })

theorem witness_SourcePlayback :
    ((source srDrive 0).fget (A.SRC_STATUS 0 1) F.SRC_STATUS.PLAY = 0 ∧ (source srDrive 1).fget (A.SRC_STATUS 0 1) F.SRC_STATUS.PLAY = 1
        ∧ F.SRC_PLAY.COND.get ((source srDrive 1).eff (A.SRC_PLAY 0 1)) = 0
        ∧ F.SRC_PLAY.COND.get (((source srDrive 1).setEff (A.SRC_PLAY 0 1) (F.SRC_PLAY.COND.put 0 1)).eff (A.SRC_PLAY 0 1)) ≠ 0
        ∧ (source srDrive 1).flagOn 0 0 = false)
      ∧ ((⟨46400, 8, 0, 0, 1, []⟩ : Wave).lines = [] ∧ (playing 46400).clk.start ≤ 204607
        ∧ 204607 < (playing 46400).clk.start + Config.tickFine ∧ 46400 + Config.tickFine ≤ 204607
        ∧ (204607 - (46400 + Config.tickFine)) / 256 < 1 * ((0 + 1 - 0) * 18))
      ∧ (((playing 195392).sr (elemOf 0 1)).wave = some ⟨195392, 8, 0, 0, 1, []⟩
        ∧ 195392 + Config.tickFine + 1 * ((0 + 1 - 0) * 18) * 256 ≤ (playing 195392).tickEnd
        ∧ (playing 195393).tickEnd < 195393 + Config.tickFine + 1 * ((0 + 1 - 0) * 18) * 256) := by decide +kernel

theorem witness_EngineControl :
    ((engine aeIdle).aeState (elemOf 0 1) = aeIdle ∧ F.AE_POST.POST.get ((engine aeIdle).eff (A.AE_POST 0 1)) ≠ 0
        ∧ aeNrec (aeAtGo (engine aeIdle) (elemOf 0 1)) * aeSegLen (aeAtGo (engine aeIdle) (elemOf 0 1)) ≤ 1048576)
      ∧ (F.AE_POST.POST.get (((engine aeDone).setEff (A.AE_POST 0 1) 0).eff (A.AE_POST 0 1)) = 0
        ∧ (engine aeDone).aeState (elemOf 0 1) = aeDone)
      ∧ ((engine aeFilling).aeState (elemOf 0 1) ≠ aeIdle ∧ (engine aeFilling).aeState (elemOf 0 1) ≠ aeDone)
      ∧ ((engine aeFilling).aeState (elemOf 0 1) ∈ [aeArmed, aeFilling, aeDead, aeWaitFree, aeDone]
        ∧ (engine aeFilling).aeState (elemOf 0 1) = aeFilling ∧ (engine aeArmed).aeState (elemOf 0 1) ≠ aeFilling)
      ∧ (engine aeIdle).aeState (elemOf 0 1) ∈ [aeOff, aeIdle, aeCal] := by decide +kernel

/-- Engine 1 of bank 0 with its settings, a transition of condition 1 to judge, and its dead time over. -/
def judging (st : Nat) (ctl : Word) : State :=
  (engine st).updEn 1 (fun k => { k with ctl := ctl, post := F.AE_POST.POST.put 0 1, trans := [(1, 0, true)] })

/-- An engine in repeating mode, which discards records for want of room or not. -/
def repeating (full : Nat) : Word := F.AE_CTL.FULL.put (F.AE_CTL.MODE.put 0 1) full

theorem witness_EngineRecords :
    ((engine aeArmed).eon (A.AE_TRIG 0 1) F.AE_TRIG.LVL_EN = true ∧ ((engine aeArmed).en (elemOf 0 1)).cond.getD 0 false = false
        ∧ ((engine aeArmed).en (elemOf 0 1)).trans = []
        ∧ ((engine aeArmed).updEn 1 (fun k => { k with level := 10000000 })).aeDetector 1 false = true
        ∧ (engine aeArmed).aeState 1 = aeArmed ∧ ((engine aeArmed).en 1).shot.armAt ≤ sampleFrom 0 ∧ sampleFrom 0 < (engine aeArmed).tickEnd)
      ∧ ((engine aeWaitFree).aeState 1 = aeWaitFree ∧ (engine aeDead).aeState 1 = aeDead ∧ sampleFrom 0 < aeArmAt ((engine aeDead).en 1))
      ∧ ((engine aeOff).aeState (elemOf 0 1) ∈ [aeOff, aeCal] ∧ ((engine aeOff).en (elemOf 0 1)).trans = [])
      ∧ (((judging aeArmed 0).en 1).trans = [(1, 0, true)] ∧ 0 ≤ (judging aeArmed 0).clk.start + 0 ∧ (judging aeArmed 0).aeState 1 = aeArmed
        ∧ (judging aeDead 0).aeState 1 = aeDead ∧ sampleFrom 0 < aeArmAt ((judging aeDead 0).en 1))
      ∧ ((judging aeFilling 0).aeState 1 = aeFilling ∧ aeEndAt ((judging aeFilling 0).en 1) ((judging aeFilling 0).en 1).shot < (judging aeFilling 0).tickEnd
        ∧ F.AE_CTL.MODE.on 0 = false ∧ F.AE_CTL.MODE.on (repeating 0) = true ∧ F.AE_CTL.FULL.on (repeating 0) = false
        ∧ F.AE_CTL.FULL.on (repeating 1) = true
        ∧ segHeld { (judging aeFilling (repeating 0)).en 1 with ended := ((judging aeFilling (repeating 0)).en 1).ended
            ++ [((judging aeFilling (repeating 0)).en 1).shot] } 0 = true
        ∧ segHeld ((judging aeFilling (repeating 0)).en 1) 1 = false)
      ∧ ((engine aeDead).aeState 1 = aeDead ∧ aeArmAt ((engine aeDead).en 1) < (engine aeDead).tickEnd)
      ∧ (((oneRec aeWaitFree).en 1).recs = [⟨0, [1, 2], 90, 1, 0, 0, 1, 0⟩] ∧ ([] : List Rec).length < 32
        ∧ (oneRec aeWaitFree).aeState 1 = aeWaitFree
        ∧ segHeld { (oneRec aeWaitFree).en 1 with recs := [] } ((oneRec aeWaitFree).fget (A.AE_STATUS 0 1) F.AE_STATUS.SEG) = false)
      ∧ ((engine aeDone).en (elemOf 0 1)).recs = [] ∧ F.AE_CTL.FMT.on ((engine aeDone).en 1).ctl = false := by decide +kernel

theorem witness_TransmitGoStopStart :
    ((port3 txIdle).txHeld 3 = false ∧ (port3 txIdle).staged = [] ∧ (port3 txIdle).portOff 3 = false ∧ 0 < (port3 txIdle).chargeOf [.txAdm 3])
      ∧ (State.reset.txHeld 3 = false ∧ State.reset.staged = [] ∧ State.reset.portOff 3 = true)
      ∧ ((port3 txWait).txHeld 3 = true ∧ (port3 txCoex).txHeld 3 = true ∧ (port3 txActive).txHeld 3 = true
        ∧ ((port3 txIdle).stageNext (.txDrop 3 4)).staged.map (·.eff) = [.txDrop 3 4])
      ∧ ((port3 txActive).txState 3 = txActive ∧ ((port3 txActive).pt 3).ended = false)
      ∧ ((port3 txWait).txState 3 = txWait ∧ (port3 txCoex).txState 3 = txCoex)
      ∧ (((port3 txActive).updPt 3 (fun k => { k with ended := true })).pt 3).ended = true
      ∧ (((port3 txCoex).updPt 3 (fun k => { k with startAt := some 100 })).pt 3).startAt = some (port3 txCoex).now
      ∧ ((port3 txWait).pt 3).startAt ≠ some (port3 txWait).now ∧ (port3 txActive).txState 3 ≠ txWait := by decide +kernel

/-- The command word of a transmit of `r` repetitions, and of one of `d` ticks. -/
def repsWord (r : Nat) : Word := F.RF_TXCMD.REPS.put (F.RF_TXCMD.MODE.put 0 1) r
def durWord (d : Nat) : Word := F.RF_TXCMD.DUR.put 0 d

/-- Port 3 with a transmit that started one fine unit into the tick, of one chip of `c` units. -/
def ook3 (w : Word) (c : Nat) : State :=
  (cmd3 txActive w).updPt 3 (fun k => { k with ook := F.RF_OOK.CHIP.put 0 c, startFine := 1 })

theorem witness_TransmitEnds :
    ((cmd3 txActive 0).txState 3 = txActive ∧ ((cmd3 txActive 0).pt 3).ended = false
        ∧ F.RF_TXCMD.MODE.get (repsWord 1) = 1 ∧ F.RF_TXCMD.REPS.get (repsWord 1) = 1 ∧ F.RF_OOK.CHIP.get ((ook3 (repsWord 1) 1199).pt 3).ook = 1199
        ∧ F.RF_OOK.LEN1.get ((ook3 (repsWord 1) 1199).pt 3).ook = 0 ∧ 1 + 1 * (0 + 1) * (1199 * 128) < (ook3 (repsWord 1) 1199).tickEnd
        ∧ (ook3 (repsWord 1) 1199).clk.start < 1 + 1 * (0 + 1) * (1199 * 128)
        ∧ (ook3 (repsWord 1) 1200).tickEnd ≤ 1 + 1 * (0 + 1) * (1200 * 128) ∧ F.RF_TXCMD.REPS.get (repsWord 0) = 0
        ∧ F.RF_TXCMD.MODE.get (durWord 10) = 0 ∧ F.RF_TXCMD.DUR.get (durWord 10) = 10
        ∧ ((cmd3 txActive (durWord 10)).pt 3).started + 10 ≤ (cmd3 txActive 0).now
        ∧ (cmd3 txActive 0).now < ((cmd3 txActive (durWord 11)).pt 3).started + F.RF_TXCMD.DUR.get (durWord 11)
        ∧ F.RF_TXCMD.DUR.get (durWord 0) = 0)
      ∧ ((cmd3 txWait 0).txState 3 = txWait ∧ ((cmd3 txWait 0).pt 3).ready = false
        ∧ 90 + ((cmd3 txWait 0).fset (A.RF_TX_TIMEOUT 3) F.RF_TX_TIMEOUT.TICKS 10).fget (A.RF_TX_TIMEOUT 3) F.RF_TX_TIMEOUT.TICKS ≤ 100
        ∧ 100 < 90 + ((cmd3 txWait 0).fset (A.RF_TX_TIMEOUT 3) F.RF_TX_TIMEOUT.TICKS 11).fget (A.RF_TX_TIMEOUT 3) F.RF_TX_TIMEOUT.TICKS)
      ∧ ((cmd3 txCoex 0).txState 3 = txCoex ∧ (cmd3 txCoex 0).eon A.COEX_CTL F.COEX_CTL.MODE = true
        ∧ ((cmd3 txCoex 0).pt 3).startAt ≠ some (cmd3 txCoex 0).now
        ∧ ((cmd3 txCoex 0).pt 3).coexAt + (cmd3 txCoex 0).eget A.COEX_CTL F.COEX_CTL.WAIT ≤ (cmd3 txCoex 0).now
        ∧ (port3 txCoex).eon A.COEX_CTL F.COEX_CTL.MODE = false)
      ∧ (((port3 txIdle).updUnit (fun u => { u with rfreq := true, tail := some 100 })).unit.tail = some 100
        ∧ (port3 txIdle).now < 101 ∧ (port3 txIdle).rfreqNeed = false ∧ up.unit.tail = none ∧ (port3 txCoex).rfreqNeed = true) := by
  decide +kernel

/-- The word of RF_CTL of port 3 that selects synthesiser 1. -/
def synWord (s : State) : Word := F.RF_CTL.SYN.put (s.rd (A.RF_CTL 3)) 1

/-- Port 3 with receive in force, whose synthesiser 0 is the only one that runs. -/
def onSyn0 : State := (receives true).fset (A.SYN_STATUS 0) F.SYN_STATUS.RUN 1

theorem witness_Synthesisers :
    ((port3 txIdle).rfReload = false ∧ reloading.rfReload = true ∧ (port3 txIdle).chargeOf [.force (A.RF_CTL 3) (synWord (port3 txIdle))] = 0
        ∧ (port3 txWait).chargeOf [.force (A.RF_CTL 3) (synWord (port3 txWait))] = 0
        ∧ (port3 txIdle).txHeld 3 = false ∧ (port3 txWait).txHeld 3 = true ∧ (port3 txWait).synOf 3 ≠ 1
        ∧ 0 < onSyn0.chargeOf [.force (A.RF_CTL 3) (synWord onSyn0)] ∧ accepts (A.RF_CTL 3) (synWord onSyn0) = true
        ∧ onSyn0.queueFull .host (.reg (A.RF_CTL 3)) [.force (A.RF_CTL 3) (onSyn0.overlay (A.RF_CTL 3) (synWord onSyn0))] = false)
      ∧ (onSyn0.updLed (fun l => { l with queue := queueFull.led.queue })).queueFull .host (.reg (A.RF_CTL 3))
          [.force (A.RF_CTL 3) (onSyn0.overlay (A.RF_CTL 3) (synWord onSyn0))] = true
      ∧ ((synth [F.SYN_STATUS.RUN] 1).fget (A.SYN_STATUS 1) F.SYN_STATUS.HOLDER = 0
        ∧ (synth [F.SYN_STATUS.RUN] 1).fon (A.SYN_STATUS 1) F.SYN_STATUS.CAL = false
        ∧ (synth [F.SYN_STATUS.RUN] 1).eget (A.SYN_FREQ 1) F.SYN_FREQ.FREQ ≠ 6000000000
        ∧ (synth [F.SYN_STATUS.RUN] 1).fon (A.SYN_STATUS 1) F.SYN_STATUS.RUN = true
        ∧ (synth [] 1).fon (A.SYN_STATUS 1) F.SYN_STATUS.RUN = false
        ∧ (synth [F.SYN_STATUS.RUN, F.SYN_STATUS.CAL] 1).fon (A.SYN_STATUS 1) F.SYN_STATUS.CAL = true
        ∧ (synth [F.SYN_STATUS.HOLDER] 1).fget (A.SYN_STATUS 1) F.SYN_STATUS.HOLDER ≠ 0)
      ∧ ((synth [F.SYN_STATUS.RUN] 1).fon (A.SYN_STATUS 1) F.SYN_STATUS.LOCK = false
        ∧ (synth [F.SYN_STATUS.RUN] 1).fon (A.SYN_CAL 1) F.SYN_CAL.VALID = true
        ∧ (synth [F.SYN_STATUS.RUN] 0).fon (A.SYN_CAL 1) F.SYN_CAL.VALID = false)
      ∧ (onSyn0.synOf 3 = 0 ∧ onSyn0.rxEff 3 = true ∧ onSyn0.txState 3 ≠ txActive ∧ onSyn0.portOff 3 = false
        ∧ ((onSyn0.updPt 3 (fun k => { k with rxSince := none })).pt 3).rxSince = none
        ∧ ((onSyn0.fset (A.SYN_STATUS 0) F.SYN_STATUS.LOCK 0).fset (A.SYN_CAL 0) F.SYN_CAL.VALID 1).fon (A.SYN_STATUS 0) F.SYN_STATUS.LOCK = false)
      ∧ ((synth [F.SYN_STATUS.LOCK] 1).fon (A.SYN_STATUS 1) F.SYN_STATUS.LOCK = true
        ∧ ((port3 txActive).setEff (A.RF_CTL 3) (F.RF_CTL.SYN.put 0 1)).synOf 3 = 1
        ∧ (port3 txActive).txState 3 = txActive ∧ ((port3 txActive).pt 3).ended = false) := by decide +kernel

theorem witness_SynthesiserCalibration :
    (((synth [F.SYN_STATUS.RUN] 0).fset (A.SYN_CAL 1) F.SYN_CAL.DUE 1).fon (A.SYN_CAL 1) F.SYN_CAL.DUE = true
        ∧ (synth [F.SYN_STATUS.RUN] 0).fon (A.SYN_STATUS 1) F.SYN_STATUS.RUN = true
        ∧ (synth [F.SYN_STATUS.RUN] 0).fon (A.SYN_STATUS 1) F.SYN_STATUS.CAL = false ∧ (synth [F.SYN_STATUS.RUN] 0).rt.grants = []
        ∧ (synth [F.SYN_STATUS.RUN] 0).rt.arbs = [])
      ∧ ((synth [F.SYN_STATUS.RUN] 0).fset (A.SYN_CAL 1) F.SYN_CAL.DUE 0).fon (A.SYN_CAL 1) F.SYN_CAL.DUE = false
      ∧ ((synth [F.SYN_STATUS.CAL] 0).fon (A.SYN_STATUS 1) F.SYN_STATUS.CAL = true
        ∧ (synth [F.SYN_STATUS.RUN, F.SYN_STATUS.CAL] 0).fon (A.SYN_STATUS 1) F.SYN_STATUS.RUN = true
        ∧ ((synth [F.SYN_STATUS.RUN, F.SYN_STATUS.CAL] 0).sy 1).freqTo = none) := by decide +kernel

/-- The word of RF_RXCTL of port 3 with EN set. -/
def rxWord (s : State) : Word := F.RF_RXCTL.EN.put (s.rd (A.RF_RXCTL 3)) 1

/-- Whether a write of it raises EN. -/
def rxRises (s : State) : Bool :=
  F.RF_RXCTL.EN.on (rxWord s &&& (regInfo (A.RF_RXCTL 3)).rw) && !F.RF_RXCTL.EN.on (s.effBefore (A.RF_RXCTL 3) (s.dueAt 0))
    && (!s.fon (A.RF_RXCTL 3) F.RF_RXCTL.EN || s.hasReq (.rx 3))

theorem witness_Receivers :
    ((port3 txIdle).rfReload = false ∧ reloading.rfReload = true ∧ accepts (A.RF_RXCTL 3) (rxWord (port3 txIdle)) = true
        ∧ rxRises (port3 txIdle) = true ∧ rxRises ((port3 txIdle).setEff (A.RF_RXCTL 3) F.RF_RXCTL.EN.mask) = false
        ∧ (port3 txIdle).queueFull .host (.rx 3) [.rxOn 3] = false ∧ queueFull.queueFull .host (.rx 3) [.rxOn 3] = true
        ∧ (port3 txIdle).rxHeld 3 = false ∧ (receives true).rxHeld 3 = true ∧ 0 < (port3 txIdle).chargeOf [.rxOn 3]
        ∧ (port3 txIdle).staged = [])
      ∧ ((receives true).rxEff 3 = true ∧ (receives true).rxNext 3 = some (0, 61440) ∧ (receives true).rxBlanked 3 = false
        ∧ ((receives true).pt 3).rxSince = some 0 ∧ 0 + (receives true).rxLen 3 ≤ 61440 ∧ 61440 < 1 + (receives true).rxLen 3
        ∧ ((receives true).pt 3).rxArmed = true ∧ ((receives false).pt 3).rxArmed = false
        ∧ (receives true).rxThresh 3 ≤ 160 ∧ -1920 < (receives true).rxThresh 3)
      ∧ ((receives true).fset (A.SYN_STATUS 0) F.SYN_STATUS.LOCK 0).rxBlanked 3 = true
      ∧ (port3 txIdle).rxEff 3 = false
      ∧ ((receives true).updPt 3 (fun k => { k with rxIdx := 2 })).rxNext 3 = none := by decide +kernel

/-- A group of a channel, an engine, a source and an RF port is admitted. -/
def admittedGroup : State := calRun (fun c => { c with stage := 3, asking := [767, 768, 815, 919] })

theorem witness_CalibrationRuns :
    up.calBusy = false ∧ (calRun id).calBusy = true ∧ (calRun id).cal.commit ≠ 2 ∧ (calRun (fun c => { c with commit := 2 })).cal.commit = 2
      ∧ (calRun (fun c => { c with held := [767], kept := [0] })).cal.held = [767]
      ∧ (admittedGroup.cal.stage = 3 ∧ up.cal.stage ≠ 3 ∧ 767 ∈ admittedGroup.cal.asking ∧ 768 ∈ admittedGroup.cal.asking
        ∧ 815 ∈ admittedGroup.cal.asking ∧ 919 ∈ admittedGroup.cal.asking) := by decide +kernel

/-- A pass whose figure is at its limit, and one whose figure is beyond it. -/
def quiet : CalPass := ⟨[.level 500], [], [], []⟩
def noisy : CalPass := ⟨[.level 501], [], [], []⟩

theorem witness_CalibrationDecides :
    ((calRun (fun c => { c with held := [5] })).cal.held ≠ [] ∧ (calRun (fun c => { c with held := [5] })).cal.groups = []
        ∧ (calRun (fun c => { c with held := [5] })).cal.accepted = [] ∧ (calRun (fun c => { c with held := [5] })).bsFailed = false)
      ∧ (calVerdict (calRun id) (5, ⟨quiet, noisy⟩) = 2 ∧ calVerdict (calRun (fun c => { c with left := 127 })) (5, ⟨quiet, quiet⟩) = 3
        ∧ calVerdict (calRun id) (5, ⟨quiet, quiet⟩) = 0)
      ∧ ((calRun id).fon A.CAL_REJ F.CAL_REJ.VALID = false
        ∧ ((calRun id).fset A.CAL_REJ F.CAL_REJ.VALID 1).fon A.CAL_REJ F.CAL_REJ.VALID = true)
      ∧ ([5].zip [(⟨quiet, noisy⟩ : CalRun)]).find? (fun p => calVerdict (calRun id) p != 0) = some (5, ⟨quiet, noisy⟩)
      ∧ up.cal.held = [] ∧ [(⟨quiet, quiet⟩ : CalRun), ⟨quiet, quiet⟩].length ≠ (calRun (fun c => { c with held := [5] })).cal.held.length := by
  decide +kernel

/-- The engine holds the store port. -/
def withPort (s : State) : State := s.updRt (fun r => { r with grants := [(.store, .cal)] })

theorem witness_CalibrationCommits :
    ((⟨919, List.replicate (elemSlots 919) 1, List.replicate (elemCommons 919) (-1), false⟩ : Accept) ∈ committing.cal.accepted
        ∧ committing.cal.slot < 4)
      ∧ (committing.cal.commit = 1 ∧ (withPort committing).calPort = true ∧ committing.calPort = false ∧ committing.bsFailed = false
        ∧ (commitLeft (withPort committing)).length ≠ 0 ∧ (withPort (calRun (fun c => { c with commit := 2 }))).cal.commit = 2
        ∧ commitLeft (calRun (fun c => { c with commit := 2, words := List.replicate 17 (9, 1) })) = List.replicate 17 (9, 1))
      ∧ up.cal.commit = 0
      ∧ ((withPort (calRun (fun c => { c with commit := 2 }))).cal.words = [] ∧ (withPort (calRun (fun c => { c with commit := 2 }))).calPort = true
        ∧ (withPort (calRun (fun c => { c with commit := 2 }))).bsFailed = false)
      ∧ up.cal.commit ≠ 2 := by decide +kernel

/-- How a flash answers whose segment 0 of the slots given fails so many times. -/
def flashIn (failed : List (Nat × Nat)) : FlashIn := ⟨true, true, failed⟩

/-- Both slots are candidates, slot B with the segment `sb`, and slot B has passed a full verification. -/
def twoSlots (sb : List Nat) : State :=
  (((flashAt 0x1000000 (slotHeader 5 ++ sb) (queued 3)).fset A.ALMANAC_CTL F.ALMANAC_CTL.FALLBACK 1).fset A.NVM_STATUS F.NVM_STATUS.FB_OK 2)

theorem witness_ReloadsAndActivations_requests :
    ((up.fset A.ALMANAC_STATUS F.ALMANAC_STATUS.NONE 1).slotInForce = none ∧ State.reset.unit.st ≠ .running
        ∧ (flashed.updUnit (fun u => { u with deepReq := true })).unit.deepReq = true
        ∧ (flashed.updAlm (fun k => { k with busy := some 13 })).alm.busy = some 13 ∧ (99, 3) ∈ (queued 3).alm.queue)
      ∧ (flashed.unit.st = .running ∧ flashed.unit.deepReq = false ∧ flashed.slotInForce ≠ none ∧ flashed.alm.busy = none
        ∧ flashed.alm.queue = []) := by decide +kernel

theorem witness_ReloadsAndActivations_starts :
    ((queued 3).alm.busy = none ∧ (queued 3).alm.queue = [(99, 3)] ∧ (queued 3).slotInForce = some 0 ∧ (queued 3).alm.op = none)
      ∧ ((queued 4).fetchSeg (flashIn []) 4 0 = .absent ∧ (queued 3).fetchSeg (flashIn []) 3 0 = .at_ 64 false
        ∧ (queued 3).fetchSeg (flashIn [(0, 2)]) 3 0 = .at_ 64 true ∧ (queued 3).fetchSeg (flashIn [(0, 3)]) 3 0 = .fails)
      ∧ ((queued 3).segWrites 64 = [(A.VMEM 3 262143 7, 77)] ∧ placeOf (A.VMEM 3 262143 7) = .vmem 3 262143 7)
      ∧ ((queued 3).fset A.ALMANAC_CTL F.ALMANAC_CTL.FALLBACK 0).fon A.ALMANAC_CTL F.ALMANAC_CTL.FALLBACK = false
      ∧ (queued 3).candidate 1 = false := by decide +kernel

theorem witness_ReloadsAndActivations_fallback :
    ((twoSlots (segment 78)).fetchSeg (flashIn [(0, 3)]) 3 0 = .fails ∧ (twoSlots (segment 78)).candidate 1 = true
        ∧ (twoSlots (segment 78)).fon A.ALMANAC_CTL F.ALMANAC_CTL.FALLBACK = true
        ∧ ((twoSlots (segment 78)).fget A.NVM_STATUS F.NVM_STATUS.FB_OK).testBit 1 = true)
      ∧ ((twoSlots (segment 78)).updAlm (fun k => { k with op := some (3, 0) })).alm.op = some (3, 0) := by decide +kernel

theorem witness_ReloadsAndActivations_activations :
    (flashed.updAlm (fun k => { k with busy := some 3 })).alm.busy = some 3
      ∧ (flashed.updAlm (fun k => { k with busy := some 3 })).alm.commit = false
      ∧ (((flashed.updAlm (fun k => { k with sched := some (1, true) })).updSea (fun k => { k with due := 100 })).sea.due ≠ 0
        ∧ (flashed.updAlm (fun k => { k with sched := some (1, true) })).alm.sched = some (1, true)
        ∧ flashed.crcIn 0 3 ≠ flashed.crcNow 3)
      ∧ ((flashed.updAlm (fun k => { k with prev := some none })).alm.prev = some none
        ∧ (flashed.updAlm (fun k => { k with prev := some (some 0) })).alm.prev = some (some 0) ∧ flashed.actSeq 0 = 6
        ∧ flashed.actSeq 1 = seqErased) := by decide +kernel

theorem witness_NvmCommands :
    (((nvmAddr 0).fset A.NVM_STATUS F.NVM_STATUS.BUSY 1).fon A.NVM_STATUS F.NVM_STATUS.BUSY = true
        ∧ (nvmAddr 0x1ffff01).flashD ≤ (nvmAddr 0x1ffff01).nvmAt + 255 ∧ (nvmAddr 1).nvmAt % 256 ≠ 0
        ∧ (nvmAddr 256).nvmAt % 65536 ≠ 0 ∧ (nvmAddr 0).nvmSlot = none
        ∧ ((nvmAddr 0x1000000).fget A.NVM_STATUS F.NVM_STATUS.VER_OK).testBit 1 = false)
      ∧ ((nvmAddr 0x1ffff00).fon A.NVM_STATUS F.NVM_STATUS.BUSY = false ∧ (nvmAddr 0x1ffff00).nvmAt + 255 < (nvmAddr 0x1ffff00).flashD
        ∧ (nvmAddr 0x1ffff00).alm.busy = none)
      ∧ ((nvmAddr 0x1000000).nvmSlot = some 1 ∧ (nvmAddr 0x1000000).nvmAt % 65536 = 0 ∧ (nvmAddr 0x1000100).nvmAt % 256 = 0)
      ∧ ((nvmAddr 0x1000000).actSeq 1 = seqErased ∧ (nvmAddr 0x1000000).verify 1 ≠ none)
      ∧ (((nvmAddr 0x1000000).fset A.NVM_STATUS F.NVM_STATUS.VER_OK 2).fget A.NVM_STATUS F.NVM_STATUS.VER_OK).testBit 1 = true
      ∧ ((nvmAddr 0x1000000).updAlm (fun k => { k with op := some (3, 0x1000000) })).alm.op = some (3, 0x1000000)
      ∧ ((nvmAddr 0x1000000).updAlm (fun k => { k with op := some (4, 0x1000000) })).alm.op = some (4, 0x1000000)
      ∧ (nvmAddr 0x1000000).slotOf 0x1000000 = some 1 ∧ (nvmAddr 0).alm.op = none
      ∧ ((nvmAddr 0).updAlm (fun k => { k with busy := some 3 })).alm.busy ≠ none := by decide +kernel

theorem witness_RingRequests_packets :
    Takes ringUp (pktRead (A.VMEM 3 262143 7)) ∧ Takes ringUp (hostPkt ptWrite A.POWER_CAP false [100])
      ∧ Takes ringUp (hostPkt ptWriteNr (A.VMEM 3 7 0) false [100]) ∧ Takes ringUp (hostPkt ptWrite A.POWER_CAP true [101, 100])
      ∧ Takes ringUp (hostPkt ptWriteNr A.POWER_CAP true [101, 100]) ∧ Takes ringUp (hostPkt ptWrite (A.VMEM 3 7 0) true [100, 9])
      ∧ Takes ringUp (hostPkt ptCommand 0 false [15]) ∧ Takes ringUp (hostPkt ptCommand 0 true [101, 15]) :=
  ⟨takes_takes _ (by decide +kernel), takes_takes _ (by decide +kernel), takes_takes _ (by decide +kernel), takes_takes _ (by decide +kernel),
    takes_takes _ (by decide +kernel), takes_takes _ (by decide +kernel), takes_takes _ (by decide +kernel), takes_takes _ (by decide +kernel)⟩

/-- A broadcast WRITE_NR of one word of vector memory, from host A. -/
def broadcastNr : Pkt := pktSeal { pktRead (A.VMEM 3 7 0) with ptype := ptWriteNr, dst := 63, payload := [9] }

theorem witness_RingRequests :
    ((pktRead 0).srch = hostNum .a ∧ ringUp.requests .a = [] ∧ ringUp.serving .a = {} ∧ pktCount (pktRead (A.VMEM 3 262143 7)) = 1
        ∧ placeOf (pktAddr (pktRead (A.VMEM 3 262143 7)) 0) = .vmem 3 262143 7)
      ∧ (placeOf A.POWER_CAP = .global A.POWER_CAP ∧ placeOf 0x80000 = .none ∧ (ringUp.bk 3).reload = false ∧ ringUp.vmBusy 3 = false
        ∧ accepts A.POWER_CAP 100 = true ∧ ringUp.outranked A.POWER_CAP (ringUp.dueAt 274) (.host .a) = false)
      ∧ Config.requestDepth ≤ (requestsFull.requests .a).length
      ∧ (ringUp.timedLate 101 0 = false ∧ ringUp.timedLate 100 0 = true ∧ ringUp.ring.timed.length < Config.timedDepth
        ∧ Config.timedDepth ≤ (List.replicate Config.timedDepth (⟨101, 0, [], .a, [], []⟩ : Timed)).length)
      ∧ (broadcastNr.ttl ≠ 0 ∧ ringUp.ring.ready = true ∧ pktBroadcast broadcastNr = true ∧ broadcastNr.ring = .a
        ∧ pktBad broadcastNr = false ∧ pktMalformed broadcastNr = false ∧ broadcastNr.srch = hostNum .a ∧ ringUp.ringAddr ≠ 63)
      ∧ (0 < ringUp.ticksTo 101 ∧ ringUp.ticksTo 101 < 2 ^ 35 ∧ ringUp.rt.cmds.length < Config.timedDepth ∧ ringUp.ticksTo 100 = 0
        ∧ 2 ^ 35 ≤ ringUp.ticksTo 99 ∧ pktArgs (hostPkt ptCommand 0 true [101, 15]) = [15])
      ∧ (pktRead 0).ptype ≠ ptWrite
      ∧ ((heldWrite A.POWER_CAP).ring.timed = [⟨101, A.POWER_CAP, [100], .a, [], []⟩] ∧ (heldWrite A.POWER_CAP).ticksTo 101 = 1
        ∧ (heldWrite A.POWER_CAP).outranked A.POWER_CAP ((heldWrite A.POWER_CAP).now + 1) (.host .a) = false
        ∧ ((heldWrite A.POWER_CAP).updRing (fun r => { r with timed := [⟨101, A.POWER_CAP, [100], .a, [0], []⟩] })).ring.timed
          = [⟨101, A.POWER_CAP, [100], .a, [0], []⟩])
      ∧ ringUp.ticksTo 102 ≠ 1 := by decide +kernel

theorem witness_StoreWindow :
    ((atPort (pktRead (0x3ffff))).fon A.BS_STATUS F.BS_STATUS.READY = true
        ∧ (atPort (pktRead (0x3ffff))).requests .a = [pktRead (0x3ffff)]
        ∧ (atPort (pktRead (0x3ffff))).serving .a = {} ∧ (atPort (pktRead (0x3ffff))).ring.port = some .a
        ∧ pktOps (pktRead (0x3ffff)) = 1 ∧ placeOf (pktAddr (pktRead (0x3ffff)) 0) = .store 65535
        ∧ (atPort (pktRead (0x3ffff))).storeNext .a ≠ some 65534)
      ∧ ringUp.fon A.BS_STATUS F.BS_STATUS.READY = false
      ∧ ((ringUp.fset A.BS_STATUS F.BS_STATUS.READY 1).ring.port = none ∧ ringUp.bsFailed = false
        ∧ bsScratch 0x120 = true ∧ bsScratch 0xa3f = true ∧ bsScratch 0xa40 = false ∧ bsScratch bsAddr = false
        ∧ fldAddrValid.on (0x40 ||| 62) = true ∧ fldAddrValid.on (0x3f : Word) = false
        ∧ (ringUp.fset A.BS_STATUS F.BS_STATUS.FAILED 1).bsFailed = true)
      ∧ ((hostPkt ptWrite 0x30120 false [9]).payload = [9] ∧ (hostPkt ptWrite 0x30120 false [9]).timed = false
        ∧ placeOf 0x30120 = .store 0x120) := by decide +kernel

theorem witness_RingPackets :
    (ringUp.unit.ringOut = true ∧ (passing 1).viol = false ∧ (passing 1).ttl ≠ 0 ∧ ringUp.ring.ready = true ∧ (passing 1).srch ≠ 0
        ∧ (passing 1).dst ≠ ringUp.ringAddr ∧ pktBroadcast (passing 1) = false ∧ (passing 0).ttl = 0 ∧ ringUp.assigned = true
        ∧ ({ passing 1 with crc := (passing 1).crc ^^^ 1 } : Pkt).bad = false ∧ pktBad { passing 1 with crc := (passing 1).crc ^^^ 1 } = true
        ∧ pktBad (passing 1) = false ∧ up.ring.ready = false ∧ up.assigned = false)
      ∧ ((hostPkt ptRead 0 false []).dsth = 0 ∧ (hostPkt ptRead 0 false []).dst = ringUp.ringAddr ∧ pktMalformed (hostPkt ptRead 0 false []) = true
        ∧ (hostPkt ptRead 0 false []).bad = false ∧ ({ pktRead 0 with bad := true } : Pkt).bad = true)
      ∧ ((around 1).srch = 0 ∧ (around 1).src = ringUp.ringAddr ∧ (around 1).ttl ≠ 0 ∧ (around 1).ring = .a)
      ∧ ((enumPkt 62).ptype = ptEnum ∧ (enumPkt 62).ttl ≠ 0 ∧ pktBroadcast (enumPkt 62) = true ∧ pktBad (enumPkt 62) = false
        ∧ (enumPkt 62).srch = 1 ∧ ringUp.ringAddr ≠ 63 ∧ ringUp.unit.st ≠ .starting ∧ enCount.get (62 : Word) = 62 ∧ enCount.get (63 : Word) = 63
        ∧ enMode.on (62 : Word) = false ∧ enMode.on (enMode.put 5 1) = true ∧ enCount.get (enMode.put 5 1) = ringUp.enumAddr
        ∧ ringUp.enumAddr ≠ 0 ∧ State.reset.enumAddr = 0)
      ∧ ((pktRead 0).ptype ≠ ptEnum ∧ State.reset.unit.ringOut = false ∧ State.reset.assigned = false)
      ∧ ((ringUp.updRing (fun r => { r with outA := [passing 1] })).outQ .a = [passing 1] ∧ noted.outQ .a = []
        ∧ noted.rt.notes = [⟨false, 9, up.tickStamp, 0, true, false⟩] ∧ noteFor .a ⟨false, 9, up.tickStamp, 0, true, false⟩ = true
        ∧ noteFor (ringTo .a) ⟨false, 9, up.tickStamp, 0, true, false⟩ = false) := by decide +kernel

theorem witness_RingInputs :
    ((ringUp.fset A.CLK_STATUS (lockFld .b) 1).fon A.CLK_STATUS (lockFld .b) = true ∧ ringUp.fon A.CLK_STATUS (lockFld .b) = false)
      ∧ (ringUp.unit.ringOut = true ∧ State.reset.unit.ringOut = false ∧ Side.a ≠ .b)
      ∧ ((ringUp.fset A.RING_STATUS (upFld .b) 1).fon A.RING_STATUS (upFld .b) = true
        ∧ (ringUp.updRing (fun r => { r with readyB := true })).lastReady .b = true ∧ ringUp.lastReady .b = false) := by decide +kernel

/-! ### Words of the spec's worked examples -/

/-- The timestamp example of Calends and Seasons. -/
theorem test_timestamp_words :
    (⟨1000000000000, 100000, true, false, true, false, false⟩ : Stamp).word0 = 0x8d4a51000
      ∧ (⟨1000000000000, 100000, true, false, true, false, false⟩ : Stamp).word1 = 0x00ea186a0 := by decide +kernel

/-- The address table at the end of Register Map. -/
theorem test_addresses :
    A.AE_STATUS 6 1 = 0x16d5 ∧ A.CH_PMU_RES 671 = 0x1a7e7 ∧ A.RULE_ACT 15 = 0x2003e ∧ placeOf 0x1ed5 = .none
      ∧ placeOf 0x1c00000 = .vmem 6 0 0 ∧ placeOf 0x4d044b0 = .capt 13 0x44b0 ∧ placeOf 0x38379 = .store 0x8379
      ∧ slotWord 389 1 0 = 0x8379 ∧ bsEpoch 389 = 0xd4a ∧ (up.readWord .a 0 0x21586).2 = 0 := by decide +kernel

/-- The read request of the ring's example, and its response. -/
theorem test_packet_headers :
    pktH0 { pktRead 0 with tag := 0x2a } = 0x114012a01 ∧ pktH1 { pktRead 0x16150 with ttl := 127 } = 0x16150
      ∧ pktH0 { pktRead 0 with ptype := 4, dst := 0, dsth := 1, src := 5, srch := 0, tag := 0x2a, payload := [0, 0] } = 0x401142a02 := by
  decide +kernel

/-- The words of the store's example. -/
theorem test_store_words :
    withCheck (entryOf 0x37 18) = 0x37d000012 ∧ checkOk 0x21e8f0000 = true ∧ fldPend.on (0x21e8f0000 : Word) = true
      ∧ fldEpoch.get (0x21e8f0000 : Word) = 0x21 ∧ fldValid.get (0x21e8f0000 : Word) = 15 := by decide +kernel

/-- The first two pairs of the almanac's example, as bytes of a payload at 64. -/
theorem test_stream_words :
    ((List.range 4).map (fun i => (flashAt 64 (List.replicate 32 0 ++ [0x00, 0x16, 0, 0, 0x10, 0, 0, 0, 0, 2, 0, 0, 0, 0, 0, 0, 0x1c, 0]) up).streamWord 64 i))
      = [0x1600, 1, 2, 0x1c00000] := by decide +kernel

/-- The record of the acquisition example. -/
theorem test_record_words :
    aeRecWords { ctl := 0x21a03, pre := 0x1000, post := 0x7003000, seq := 1 }
        { seg := 1, mask := 3, prim := 0, sample := 2400, missed := 1, dead := 8192, ofs := [176, 376, 0, 0],
          st := ⟨7000040, 50000, true, false, false, false, false⟩ } false
      = [0x0006acfe8, 0x00080c350, 0x3080074b0, 0x0001044b0, 0x0010004b0, 0x2000, 0x585e00000, 0] := by decide +kernel

/-- The charges of the examples of Dies, Banks and Clocks and RF Ports: a source 180 mW, an engine 150 mW, a port on an idle RF die 750 mW. -/
theorem test_charges :
    active0.chargeOf [.srcOn 1] = 180 ∧ active0.chargeOf [.aeOn 1] = 150 ∧ (port3 txIdle).chargeOf [.txAdm 3] = 750 := by decide +kernel

/-- The responder's pins of the boot memory, and a strobe inside the data group (R162). -/
theorem test_responder_pins :
    accepts (A.RESP_PINS 4) 0x196108300 = true ∧ accepts (A.RESP_PINS 4) 0x194108300 = false := by decide +kernel

/-- The scope of the calibration example. -/
theorem test_calibration_scope : scopeGroups 0x006010105 = [[389]] := by decide +kernel

/-- The check values of CRC-32 and CRC-16/CCITT-FALSE over the digits 1 to 9 (R360, R390). -/
theorem test_crcs :
    crcList [49, 50, 51, 52, 53, 54, 55, 56, 57] = 0xcbf43926 ∧ (bitsDown 0x313233343 36 0 ++ bitsDown 0x536373839 36 0).foldl crc16Bit 0xffff = 0x29b1 := by
  decide +kernel

/-- R199: a result is rounded half to even. -/
theorem test_pmc_rounding :
    pmcResult 3 16 = 3 ∧ pmcResult 1 0 = 65536 ∧ pmcResult 3 17 = 2 ∧ pmcResult 5 17 = 2 ∧ pmcResult (-3) 17 = -2 := by decide +kernel

/-! ### Single commands -/

/-- Reset values of the register tables. -/
theorem test_reset_values :
    State.reset.fget A.LEAP_CTL F.LEAP_CTL.MAX = 2 ∧ State.reset.fget A.LEAP_CTL F.LEAP_CTL.THRESH = 3 ∧ State.reset.wf = true := by decide +kernel

/-- R121: the island's registers take their reset values when VAON rises. -/
theorem test_vaon_rise : (after .vaonRise (up.fset A.WAKE_STATUS F.WAKE_STATUS.EUNIT 1)).fon A.WAKE_STATUS F.WAKE_STATUS.EUNIT = false := by
  decide +kernel

set_option maxRecDepth 200000 in
theorem test_tick_boundary :
    (after (.tickBoundary ⟨false, [], [], [], []⟩) up).clk.count = 101 ∧ (after (.tickBoundary ⟨false, [], [], [], []⟩) up).clk.seq = 101 := by
  decide +kernel

theorem test_power_cap : (after (.powerCapWrite (byHost 60)) up).rd A.POWER_CAP = 60
    ∧ (after (.powerCapWrite (byHost 60)) up).eff A.POWER_CAP = resetWord A.POWER_CAP := by decide +kernel

/-- The temperature word of the register map's example. -/
theorem test_temperature : F.TEMP_PIN.TEMP.get 0x8002c02dc = 732 ∧ F.TEMP_PIN.TREF.get 0x8002c02dc = 704
    ∧ F.TEMP_PIN.VALID.on 0x8002c02dc = true ∧ F.TEMP_PIN.HOT.on 0x8002c02dc = false := by decide +kernel

/-- R429: LEAPS clears with the read. -/
theorem test_tick_status_read :
    (after .tickStatusRead (up.fset A.TICK_STATUS F.TICK_STATUS.LEAPS 9)).fget A.TICK_STATUS F.TICK_STATUS.LEAPS = 0 := by decide +kernel

/-- R111: 31 chips and one more make 32, which match the code 0 with MAXERR 0 only where all are zeros. -/
theorem test_vigil_match :
    (after (.vigilMatch 767 (-3000000) 0) ((vigil fnLight).setEff (A.CH_VIGIL_CTL 767) 0)).rt.events.map (fun e => (e.idx, e.kind)) = [(767, 14)]
      ∧ (after (.vigilMatch 767 9000000 0) ((vigil fnLight).setEff (A.CH_VIGIL_CTL 767) 0)).rt.events = [] := by decide +kernel

/-- The LSET, LOOP, REPT and HALT lines of the serial port example. -/
theorem test_line_field :
    ((up.memWr (A.VMEM 2 0 7) 0x180000083).lineOp 2 0, (up.memWr (A.VMEM 2 0 7) 0x180000083).lineArg 2 0) = (3, 8)
      ∧ (up.memWr (A.VMEM 2 1 7) 0x200000013).lineOp 2 1 = 4 ∧ (up.memWr (A.VMEM 2 2 7) 0x080000083).lineOp 2 2 = 1
      ∧ (up.memWr (A.VMEM 2 4 7) 0x680000003).lineOp 2 4 = 13 := by decide +kernel

theorem test_next : ((after (.next 3 ⟨0, []⟩) (seqAt 0x0 0 0)).bk 3).line = 8 := by decide +kernel

theorem test_jump : ((after (.jump 3 ⟨0, []⟩) (seqAt 0x2 0 262143)).bk 3).line = 262143 := by decide +kernel

theorem test_call : ((after (.call 3 ⟨0, []⟩) (seqAt 0x5 0 100)).bk 3).line = 100
    ∧ ((after (.call 3 ⟨0, []⟩) (seqAt 0x5 0 100)).bk 3).stack = [8, 9] := by decide +kernel

theorem test_ret : ((after (.ret 3 ⟨0, []⟩) (seqAt 0x6 0 0)).bk 3).line = 9
    ∧ ((after (.ret 3 ⟨0, []⟩) (seqAt 0x6 0 0)).bk 3).stack = [] := by decide +kernel

/-- Loop counter 3 goes from 2 to 1 with a jump, and from 1 to 0 without. -/
theorem test_loop :
    ((after (.loop 3 ⟨0, []⟩) ((seqAt 0x4 3 5).fset (A.SEQ_CNT 3 3) F.SEQ_CNT.COUNT 2)).bk 3).line = 5
      ∧ ((after (.loop 3 ⟨0, []⟩) ((seqAt 0x4 3 5).fset (A.SEQ_CNT 3 3) F.SEQ_CNT.COUNT 1)).bk 3).line = 8 := by decide +kernel

theorem test_seq_go : (after (.seqGo 3 0 0 77) (seqIn sqIdle)).seqState 3 = sqArmed := by decide +kernel

/-- The engine of the acquisition example: 8 segments of 16,384 words fit. -/
theorem test_ae_go :
    let s := ((((up.fset (A.AE_STATUS 6 1) F.AE_STATUS.STATE aeIdle).setEff (A.AE_CTL 6 1) 0x21a03).setEff (A.AE_PRE 6 1) 0x1000).setEff
      (A.AE_POST 6 1) 0x7003000)
    (after (.aeGo 6 1) s).aeState 13 = aeArmed ∧ (after (.aeGo 6 1) (s.setEff (A.AE_POST 6 1) 0x3f03f000)).fon (A.AE_STATUS 6 1) F.AE_STATUS.CFG_ERR = true := by
  decide +kernel

/-- The range change of SRC9: it is parked at T and drives at T + 2. -/
theorem test_source_range :
    let s := ((up.setEff (A.SRC_CTL 4 1) 0x105901).wr (A.SRC_CTL 4 1) 0x105901)
    (after (.sourceRangeChange 4 1 2 false) s).rd (A.SRC_CTL 4 1) = 0x105909
      ∧ (after (.sourceRangeChange 4 1 2 false) s).fget (A.SRC_STATUS 4 1) F.SRC_STATUS.RANGE_EFF = 2 := by decide +kernel

theorem test_pmc_result :
    (after (.pmcResult 0 0 200 false) pmcDone).rd (A.CH_PMU_RES 5) = 0xc80000
      ∧ ((after (.pmcResult 0 0 200 false) pmcDone).pm 0).done = [] := by decide +kernel

/-- R295: the port waits with its issue boundary next. -/
theorem test_tx_go : (after (.rfTxGo 3 (.host .a)) (port3 txIdle)).txState 3 = txWait
    ∧ ((after (.rfTxGo 3 (.host .a)) (port3 txIdle)).pt 3).issue = 101 := by decide +kernel

theorem test_syn_freq : (after (.synFreqChange 1 868300000) (synth [F.SYN_STATUS.RUN] 1)).rd (A.SYN_FREQ 1) = 0x33c134e0 := by decide +kernel

/-- −100 dBm is −1,600 sixteenths of a decibel. -/
theorem test_rx_power : (after (.rxIntervalEnd 3 (-1600)) (receives true)).fget (A.RF_RXPWR 3) F.RF_RXPWR.PWR = 2496 := by decide +kernel

theorem test_cal_go : (after .calGo ((up.setEff A.CAL_SCOPE 0x006010105).setEff A.CAL_CMD 0x101)).cal.groups = [[389]]
    ∧ (after .calGo ((up.setEff A.CAL_SCOPE 0x006010105).setEff A.CAL_CMD 0x101)).cal.slot = 1 := by decide +kernel

/-- ACTSEQ 6 in force before gives 7. -/
theorem test_actseq :
    let s := (flashed.updAlm (fun k => { k with prev := some (some 0) })).fset A.ALMANAC_STATUS F.ALMANAC_STATUS.SLOT 1
    (after .actseqProgram s).actSeq 1 = 7 ∧ (after .actseqProgram s).actSeq 0 = 6 := by decide +kernel

/-- The four bytes at the pointer, least significant first. -/
theorem test_nvm_data :
    ((List.range 4).map (fun i => (Tab.get (fun _ => (0 : Byte)) (after (.nvmDataAccess (some 0xf04030201)) up).alm.buf i).toNat)) = [1, 2, 3, 4]
      ∧ (after (.nvmDataAccess (some 0xf04030201)) up).alm.ptr = 4 := by decide +kernel

/-- A read request for the vector memory is answered. -/
theorem test_read :
    let s := ringUp.memWr (A.VMEM 3 7 0) 77
    ((after (.read .a (pktRead (A.VMEM 3 7 0)) 0) s).outQ .a).map (fun q => (q.ptype, q.payload, q.status, q.tag)) = [(4, [77], 0, 7)] := by decide +kernel

/-- A write of an address no register has is ignored: STATUS 1. -/
theorem test_write_status :
    ((after (.write .a (hostPkt ptWrite 0x80000 false [1]) 0) ringUp).outQ .a).map (fun q => q.status) = [1]
      ∧ ((after (.write .a (hostPkt ptWrite A.POWER_CAP false [100]) 0) ringUp).outQ .a).map (fun q => q.status) = [0] := by decide +kernel

theorem test_transit : ((after (.transitPacket .a (passing 9)) ringUp).ring.lastA.map (fun q => (q.ttl, pktBad q))) = some (8, false)
    ∧ (after (.transitPacket .a (passing 0)) ringUp).ring.lastA = none := by decide +kernel

theorem test_enum :
    (after (.enum .a (enumPkt 9)) ringUp).enumAddr = 9 ∧ ((after (.enum .a (enumPkt 9)) ringUp).ring.lastA.map (fun q => q.payload)) = some [10] := by
  decide +kernel

/-- W1C bits clear only where a 1 is written. -/
theorem test_w1c :
    (after (.wakeStatusClear 0) (up.fset A.WAKE_STATUS F.WAKE_STATUS.EUNIT 1)).fon A.WAKE_STATUS F.WAKE_STATUS.EUNIT = true := by decide +kernel

theorem test_register_write : (after (.registerWrite A.RT_CTL (byHost 4)) up).rd A.RT_CTL = 4 := by decide +kernel

theorem test_step_queue :
    (match step (up.withFetchWord 0 0) with | .next t => t == up | _ => false) = true
      ∧ (match step { up with pending := [.tickStatusRead, .nvmRead] } with | .next t => t.pending == [.nvmRead] | _ => false) = true := by decide +kernel

theorem test_decode : decodeTableWord 32 0 = none := rfl

/-- Bank 4 as the boot memory of Responder sets it up, in handover from the start of tick 8,000,164, with the first and the last entry. -/
def boot0 : State :=
  (280 :: (List.range 12).map (fun i => 256 + i)).foldl (fun s c => s.fset (A.CH_STATUS c) F.CH_STATUS.FUNC_EFF fnPattern)
    ((((up.updClk (fun c => { c with count := 8000164, seq := 8000164 })).updBk 4 (fun k => { k with
      hand := true, respCtl := 0xa30ab, respPins := 0x196108300, respWin := 0 })).memWr (A.RESP_RAM 4 0) 0x800ff002c).memWr
        (A.RESP_RAM 4 0x3ff) 0xc00ff005e)

/-- The boot memory with an address on its pins and the strobe's active edge at an instant. -/
def boot (addr at_ : Nat) : State :=
  let up := !F.RESP_CTL.STB_EDGE.on (boot0.bk 4).respCtl
  ((List.range 12).foldl (fun s i => s.updCh (256 + i) (fun h => { h with rawH := addr.testBit i })) boot0).updCh 280
    (fun h => { h with rawH := up, pts := [⟨at_, up, false, 0⟩, ⟨0, !up, false, 0⟩] })

/-- The first and the last read of the boot memory: DATA and OE, and flag 3 in force two tick instants after the terminal hit. -/
theorem test_bus_cycle :
    ((after (.busCycle 4 2000 false) (boot 0 2000)).bk 4).respDrive = some (0x2c, 0xff, false)
      ∧ ((after (.busCycle 4 13517 false) (boot 0x3ff 13517)).bk 4).respDrive = some (0x5e, 0xff, false)
      ∧ (after (.busCycle 4 13517 false) (boot 0x3ff 13517)).staged.map (fun x => x.due) = [8000166]
      ∧ (after (.busCycle 4 2000 false) (boot 0x400 2000)).fon (A.RESP_FIRSTMISS 4) F.RESP_FIRSTMISS.VALID = true
      ∧ ((after (.busCycle 4 1228 false) (boot 0 1228)).bk 4).respDrive = none := by decide +kernel

/-- R60: a leap tick taken frees the schedule. -/
theorem test_leap_tick : (after .leapTick (leapReady.updClk (fun c => { c with leapDue := some 100 }))).clk.leapDue = none := by decide +kernel

/-- R83: a driver fault makes channel 5 high-impedance and sets its latch and status bits. -/
theorem test_driver_fault : let s := chan5.updCh 5 (fun h => { h with drive := .vih, pat := .vih, limTicks := 16 })
    (after (.driverFault 5) s).fon (A.CH_STATUS 5) F.CH_STATUS.DRV_FAULT = true ∧ ((after (.driverFault 5) s).ch 5).drive = .hiz := by decide +kernel

/-- The oldest edge leaves the FIFO, and the other stays. -/
theorem test_edge_read : ((after (.chEdgeLoRead 5 .a) twoEdges).ch 5).edges.map (fun e => e.kind) = [0] := by decide +kernel

/-- A timer with ABS at a multiple of its period is one event of source TIMER. -/
theorem test_router_timer : ((after (.routerTimer 0) timersOn).rt.events.map (fun e => (e.cls, e.idx))) = [(evTimer, 0)]
    ∧ (after (.routerTimer 2) timersOn).rt.events = [] := by decide +kernel

/-- R126: a request in a unit that is not RUNNING is ignored. -/
theorem test_deep_request :
    after (.deepVigilRequest 0) State.reset = State.reset := by decide +kernel

theorem test_vector_memory_write : (after (.vectorMemoryWrite 3 262143 7 9) up).memRd 0x17fffff = 9
    ∧ (after (.vectorMemoryWrite 0 0 0 9) reloading).memRd 0x1000000 = 0 := by decide +kernel

/-- R355: a scratch word takes the value, and the first checked word does not. -/
theorem test_store_write :
    (after (.storeWindowWrite 0x120 9) (up.fset A.BS_STATUS F.BS_STATUS.READY 1)).bsRd 0x120 = 9
      ∧ (after (.storeWindowWrite 0x11f 9) (up.fset A.BS_STATUS F.BS_STATUS.READY 1)).fon A.BS_STATUS F.BS_STATUS.WR_IGN = true := by decide +kernel

/-- R388: an ALIVE carries READY, whether a side is wrapped, and the address. -/
theorem test_alive_send : (after .aliveSend ringUp).ring.aliveA = some (true, false, 5) := by decide +kernel

/-- R81, R183: code 0x3333 is 0 V within 23 µV (3 units of 2⁻¹⁷ V) of a driver, and within 31 µV (4) of an FV target. -/
theorem test_levels : (codeLevel 0x3333).natAbs ≤ 3 ∧ codeLevel 0 = -196608 ∧ (fvLevel 0x3333).natAbs ≤ 4 := by decide +kernel

/-- The CW example: LEVEL 440 is −100.00 dBm, here in 0.25 dBm. -/
theorem test_rf_level : (up.setEff (A.RF_LEVEL 2) 0x1b8).rfLevel 2 = -400 := by decide +kernel

/-- R386: a symbol sent with the scrambler empty goes out with its bits as they stand or inverted, whichever is nearer to balance. -/
theorem test_line_bal :
    (({ hist := [], disp := 0, inv := false } : LineTx).send Control.idle.sym).1.disp = -34
      ∧ (({ hist := [], disp := -34, inv := false } : LineTx).send Control.idle.sym).1.disp = 0 := by decide +kernel

/-- R387: the 64th good symbol aligns, and the fourth violation within 64 symbols loses the alignment. -/
theorem test_line_align : (({ aligned := false, good := 63, last := [] } : LineAlign).next false).aligned = true
    ∧ (({ aligned := true, good := 64, last := [true, true, false] } : LineAlign).next true).aligned = true
    ∧ (({ aligned := true, good := 64, last := [true, true, false, true] } : LineAlign).next true).aligned = false := by decide +kernel

end Sys2Proof.Tests
end

section
/-! SUPPORT. What the shared operations of a register write leave to read: an effect that waits for its boundary, a request to
the ledger, and a write that a reload ignores. -/

namespace Sys2Proof.Machine

/-! ### The parts that an operation leaves -/

/-- Staging effects changes nothing but what waits for a boundary. -/
theorem State.stage_same {p : Part} (h : p ≠ .staged) (s : State) (due : Nat) (who : Writer) (e : Eff) :
    p.same s (s.stage due who e) :=
  have := p.kept; have := Part.kStaged h
  State.stage_keeps Keeps.refl

/-- The same of several effects in a row. -/
theorem State.foldl_stage_same {p : Part} (h : p ≠ .staged) (s : State) (cyc : Nat) (who : Writer) (l : List Eff) :
    p.same s (l.foldl (fun s e => s.stage (s.dueAt cyc) who e) s) :=
  have := p.kept; have := Part.kStaged h
  Keeps.foldl Keeps.refl fun _ _ => State.stage_keeps Keeps.refl

/-- A request changes nothing but what waits for a boundary and the ledger. -/
theorem State.request_same {p : Part} (h : p ≠ .staged) (k : p ≠ .led) (s : State) (key : ReqKey) (cls : Cls) (idx : Nat)
    (who : Writer) (cyc : Nat) (effs : List Eff) : p.same s (s.request key cls idx who cyc effs) :=
  have := p.kept; have := Part.kStaged h; have := Part.kLed k
  State.request_keeps Keeps.refl

/-- A request that joins the queue changes nothing but the ledger. -/
theorem State.enqueue_same {p : Part} (h : p ≠ .led) (s : State) (key : ReqKey) (cls : Cls) (idx : Nat)
    (who : Writer) (cyc : Nat) (effs : List Eff) : p.same s (s.enqueue key cls idx who cyc effs) :=
  have := p.kept; have := Part.kLed h
  State.enqueue_keeps Keeps.refl

theorem State.rd_of_regs {s t : State} (h : Part.regs.same s t) (a : Nat) : t.rd a = s.rd a := by
  unfold State.rd; rw [h.1]

theorem State.dueAt_of_clk {s t : State} (h : Part.clk.same s t) (cyc : Nat) : t.dueAt cyc = s.dueAt cyc := by
  unfold State.dueAt State.now; rw [show t.clk = s.clk from h]

/-! ### What waits for a boundary (R7, R45, R46) -/

/-- The writer prevails over every effect on the same target that waits for the boundary (R7, R427). -/
def PrevailsOver (who : Writer) (due : Nat) (e : Eff) (s : State) : Prop :=
  ∀ q ∈ s.staged, q.due = due → q.eff.sameTarget e = true → writerPrevails who q.who = true

/-- An effect that prevails waits for its boundary. -/
theorem State.mem_stage {s : State} {due : Nat} {who : Writer} {e : Eff} (h : PrevailsOver who due e s) :
    ⟨due, who, e, false⟩ ∈ (s.stage due who e).staged := by
  have hany : (s.staged.any fun t => t.due == due && t.eff.sameTarget e && !writerPrevails who t.who) = false := by
    simp only [List.any_eq_false, Bool.and_eq_true, beq_iff_eq, Bool.not_eq_true', not_and, and_imp]
    exact fun q hq hd he => by simp [h q hq hd he]
  simp [State.stage, hany]

/-- Nothing else joins what waits. -/
theorem State.mem_of_mem_stage {s : State} {due : Nat} {who : Writer} {e : Eff} {q : Staged}
    (h : q ∈ (s.stage due who e).staged) : q ∈ s.staged ∨ q = ⟨due, who, e, false⟩ := by
  unfold State.stage at h
  split at h
  · exact .inl h
  · simp only [State.updStaged_staged, List.mem_append, List.mem_filter, List.mem_singleton] at h
    exact h.imp And.left id

/-- What waits goes on waiting beside an effect on another target. -/
theorem State.mem_stage_of_mem {s : State} {due : Nat} {who : Writer} {e : Eff} {q : Staged} (hq : q ∈ s.staged)
    (h : q.eff.sameTarget e = false) : q ∈ (s.stage due who e).staged := by
  unfold State.stage
  split
  · exact hq
  · simp [hq, h]

/-- No effect of the list sets what a later one sets. -/
def TargetsDiffer (l : List Eff) : Prop := l.Pairwise (fun e f => e.sameTarget f = false)

/-- An effect that brings no register into force sets what no other does. -/
theorem Eff.sameTarget_of_reg_none {e f : Eff} (h : e.reg = none ∨ f.reg = none) : e.sameTarget f = false := by
  unfold Eff.sameTarget
  rcases h with h | h <;> cases he : e.reg <;> simp_all

/-- A register's value and effects that bring no register into force set different things. -/
theorem targetsDiffer_force {a : Nat} {r : Word} {l : List Eff} (h : ∀ e ∈ l, e.reg = none) :
    TargetsDiffer (.force a r :: l) :=
  List.pairwise_cons.mpr ⟨fun e he => Eff.sameTarget_of_reg_none (.inr (h e he)),
    List.pairwise_of_forall_mem_list fun e he _ _ => Eff.sameTarget_of_reg_none (.inl (h e he))⟩

/-- Of effects on different targets, one that waits stays while the others are staged. -/
theorem State.mem_foldl_stage_of_mem {cyc : Nat} {who : Writer} {q : Staged} {l : List Eff} {s : State} (hq : q ∈ s.staged)
    (h : ∀ e ∈ l, q.eff.sameTarget e = false) :
    q ∈ (l.foldl (fun s e => s.stage (s.dueAt cyc) who e) s).staged := by
  induction l generalizing s with
  | nil => exact hq
  | cons e l ih =>
    exact ih (State.mem_stage_of_mem hq (h e List.mem_cons_self)) fun f hf => h f (List.mem_cons_of_mem _ hf)

/-- Each of several effects on different targets waits for the boundary where it prevails over what waited before them. -/
theorem State.mem_foldl_stage {cyc : Nat} {who : Writer} {l : List Eff} {s : State} (hl : TargetsDiffer l) {e : Eff} (he : e ∈ l)
    (h : PrevailsOver who (s.dueAt cyc) e s) :
    ⟨s.dueAt cyc, who, e, false⟩ ∈ (l.foldl (fun s e => s.stage (s.dueAt cyc) who e) s).staged := by
  induction l generalizing s with
  | nil => cases he
  | cons f l ih =>
    obtain ⟨hf, hl⟩ := List.pairwise_cons.mp hl
    rcases List.mem_cons.mp he with rfl | he
    · exact State.mem_foldl_stage_of_mem (s := s.stage _ who e) (State.mem_stage h) hf
    · have hd : (s.stage (s.dueAt cyc) who f).dueAt cyc = s.dueAt cyc :=
        State.dueAt_of_clk (State.stage_same (by decide) s _ who f) cyc
      rw [← hd]
      refine ih hl he fun q hq hdue ht => ?_
      rcases State.mem_of_mem_stage hq with hq | rfl
      · exact h q hq (hdue.trans hd) ht
      · rw [hf e he] at ht; exact absurd ht Bool.false_ne_true

/-! ### Requests to the ledger (R34, R46, R48) -/

theorem queueKey_of_not_router {who : Writer} (h : ∀ n, who ≠ .router n) (key : ReqKey) : queueKey key who = key := by
  cases who with
  | router n => exact absurd rfl (h n)
  | _ => rfl

/-- A request that joins the queue waits there with its effects, its writer and its class, and has not aged. -/
theorem State.exists_mem_enqueue (s : State) (key : ReqKey) (cls : Cls) (idx : Nat) (who : Writer) (cyc : Nat) (effs : List Eff) :
    ∃ r ∈ (s.enqueue key cls idx who cyc effs).led.queue,
      r.key = queueKey key who ∧ r.effs = effs ∧ r.who = who ∧ r.cls = cls ∧ r.aged = false :=
  ⟨_, List.mem_append_right _ (List.mem_singleton_self _), rfl, rfl, rfl, rfl, rfl⟩

/-- Asking the ledger commits nothing: only phase 4 does (R35). -/
theorem State.request_committed (s : State) (key : ReqKey) (cls : Cls) (idx : Nat) (who : Writer) (cyc : Nat) (effs : List Eff) :
    (s.request key cls idx who cyc effs).led.committed = s.led.committed := by
  unfold State.request
  dsimp only
  split
  · have h : _ = (s.withdraw key).led := State.foldl_stage_same (p := .led) (by decide) (s.withdraw key) cyc who effs
    rw [h]; rfl
  · split <;> rfl

/-- With nothing to charge, each effect that prevails waits for the boundary of R46. -/
theorem State.mem_request_of_no_charge {s : State} {key : ReqKey} {cls : Cls} {idx : Nat} {who : Writer} {cyc : Nat}
    {effs : List Eff} (h0 : s.chargeOf effs = 0) (hl : TargetsDiffer effs) {e : Eff} (he : e ∈ effs)
    (h : PrevailsOver who (s.dueAt cyc) e s) :
    ⟨s.dueAt cyc, who, e, false⟩ ∈ (s.request key cls idx who cyc effs).staged := by
  unfold State.request
  dsimp only
  rw [if_pos h0]
  exact State.mem_foldl_stage (s := s.withdraw key) hl he h

/-- With something to charge, the effects wait in one request of the queue, and nothing is staged. -/
theorem State.request_of_charge {s : State} {key : ReqKey} {cls : Cls} {idx : Nat} {who : Writer} {cyc : Nat} {effs : List Eff}
    (h : 0 < s.chargeOf effs) :
    (s.request key cls idx who cyc effs).staged = s.staged
      ∧ ∃ r ∈ (s.request key cls idx who cyc effs).led.queue, r.key = queueKey key who ∧ ∀ e ∈ effs, e ∈ r.effs := by
  unfold State.request
  dsimp only
  rw [if_neg (Nat.ne_of_gt h)]
  split
  next hm =>
    refine ⟨rfl, ?_⟩
    obtain ⟨r, hr, hk⟩ := List.any_eq_true.mp (Bool.and_eq_true_iff.mp hm).2
    refine ⟨{ r with effs := r.effs.filter (fun x => !key.owns x) ++ effs }, ?_, beq_iff_eq.mp hk,
      fun e he => List.mem_append_right _ he⟩
    exact List.mem_filterMap.mpr ⟨r, hr, by rw [if_pos hk]⟩
  next =>
    obtain ⟨r, hr, hk, he, -⟩ := s.exists_mem_enqueue key cls idx who cyc effs
    exact ⟨rfl, r, hr, hk, fun e h => he ▸ h⟩

/-- A request that is no rule's has an entry of its own. -/
theorem State.request_of_charge_own {s : State} {key : ReqKey} {cls : Cls} {idx : Nat} {who : Writer} {cyc : Nat} {effs : List Eff}
    (h : 0 < s.chargeOf effs) (hw : ∀ n, who ≠ .router n) :
    ∃ r ∈ (s.request key cls idx who cyc effs).led.queue,
      r.key = key ∧ r.effs = effs ∧ r.who = who ∧ r.cls = cls ∧ r.aged = false := by
  have hk := queueKey_of_not_router hw key
  unfold State.request
  dsimp only
  rw [if_neg (Nat.ne_of_gt h), hk, bne_self_eq_false, Bool.false_and, if_neg Bool.false_ne_true]
  simpa only [hk] using s.exists_mem_enqueue key cls idx who cyc effs

/-- What a request with effects on different targets becomes. -/
theorem State.request_askedFor {effs : List Eff} (hl : TargetsDiffer effs) (s : State) (key : ReqKey) (idx : Nat) (who : Writer) :
    AskedFor key effs who s (s.request key (classOf who) idx who 0 effs) :=
  ⟨s.request_committed .., fun h0 _ he h => State.mem_request_of_no_charge h0 hl he h,
    fun h => ⟨(State.request_of_charge h).1, (State.request_of_charge h).2, State.request_of_charge_own h⟩⟩

/-- A write whose request finds the shared queue full: the count of LEDGER_FULL is all that changes. -/
theorem State.queueWasFull_inc (s : State) : QueueWasFull s (s.inc A.TICK_BUDGET F.TICK_BUDGET.LEDGER_FULL 1) := by
  refine ⟨rfl, rfl, ?_, RegBits.refl.inc (List.mem_singleton_self _) (by decide)⟩
  have hle : satAdd F.TICK_BUDGET.LEDGER_FULL (s.fget A.TICK_BUDGET F.TICK_BUDGET.LEDGER_FULL) 1 < 2 ^ 12 :=
    Nat.lt_of_le_of_lt (Nat.min_le_right _ _) (by decide)
  exact State.fget_fset_same s A.TICK_BUDGET _ F.TICK_BUDGET.LEDGER_FULL (by decide) hle

/-! ### Addresses and reloads (R373, R419) -/

theorem placeOf_globalBlock {a : Nat} (h : a < 0x1000) : placeOf a = .global a := if_pos h

theorem placeOf_bankBlock {a : Nat} (h : 0x1000 ≤ a) (k : a < 0x1c00) :
    placeOf a = .bankReg ((a - 0x1000) / 0x100) ((a - 0x1000) % 0x100) := by
  unfold placeOf; rw [if_neg (by omega), if_pos k]

theorem placeOf_chanBlock {a : Nat} (h : 0x10000 ≤ a) (k : a < 0x1c000) :
    placeOf a = .chanReg ((a - 0x10000) / 0x40) ((a - 0x10000) % 0x40) := by
  unfold placeOf; rw [if_neg (by omega), if_neg (by omega), if_neg (by omega), if_pos k]

theorem placeOf_routerBlock {a : Nat} (h : 0x20000 ≤ a) (k : a < 0x21000) : placeOf a = .router (a - 0x20000) := by
  unfold placeOf; rw [if_neg (by omega), if_neg (by omega), if_neg (by omega), if_neg (by omega), if_neg (by omega), if_pos k]

theorem placeOf_rfBlock {a : Nat} (h : 0x21000 ≤ a) (k : a < 0x22000) : placeOf a = .rf (a - 0x21000) := by
  unfold placeOf
  rw [if_neg (by omega), if_neg (by omega), if_neg (by omega), if_neg (by omega), if_neg (by omega), if_neg (by omega), if_pos k]

theorem placeOf_calBlock {a : Nat} (h : 0x22000 ≤ a) (k : a < 0x23000) : placeOf a = .cal a := by
  unfold placeOf
  rw [if_neg (by omega), if_neg (by omega), if_neg (by omega), if_neg (by omega), if_neg (by omega), if_neg (by omega),
    if_neg (by omega), if_pos k]

theorem placeOf_bank (b : Fin 12) {o : Nat} (ho : o < 0x100) : placeOf (0x1000 + b * 0x100 + o) = .bankReg b o := by
  rw [placeOf_bankBlock (by omega) (by omega), Place.bankReg.injEq]
  omega

theorem placeOf_chan (c : Fin 768) {o : Nat} (ho : o < 0x40) : placeOf (A.CH_MODE c + o) = .chanReg c o := by
  unfold A.CH_MODE
  rw [placeOf_chanBlock (by omega) (by omega), Place.chanReg.injEq]
  omega

/-- An address that is no register's, or lies in capture memory, lies in no block of registers. -/
theorem outside_of_no_register {a : Nat} (h : placeOf a = .none ∨ ∃ e o, placeOf a = .capt e o) :
    (0x1c00 ≤ a ∧ a < 0x10000) ∨ (0x1c000 ≤ a ∧ a < 0x20000) ∨ 0x23000 ≤ a := by
  refine Classical.byContradiction fun hn => ?_
  have hin : a < 0x1000 ∨ (0x1000 ≤ a ∧ a < 0x1c00) ∨ (0x10000 ≤ a ∧ a < 0x1c000) ∨ (0x20000 ≤ a ∧ a < 0x21000)
      ∨ (0x21000 ≤ a ∧ a < 0x22000) ∨ (0x22000 ≤ a ∧ a < 0x23000) := by omega
  rcases hin with k | ⟨j, k⟩ | ⟨j, k⟩ | ⟨j, k⟩ | ⟨j, k⟩ | ⟨j, k⟩
  · simp [placeOf_globalBlock k] at h
  · simp [placeOf_bankBlock j k] at h
  · simp [placeOf_chanBlock j k] at h
  · simp [placeOf_routerBlock j k] at h
  · simp [placeOf_rfBlock j k] at h
  · simp [placeOf_calBlock j k] at h

/-- The map has nothing at such an address. -/
theorem regInfo_of_no_register {a : Nat} (h : placeOf a = .none ∨ ∃ e o, placeOf a = .capt e o) :
    regInfo a = RegInfo.unmapped := by
  unfold regInfo
  rcases outside_of_no_register h with h | h | h
  · rw [if_neg (by omega), if_neg (by omega), if_pos (by omega)]
  · rw [if_neg (by omega), if_neg (by omega), if_neg (by omega), if_neg (by omega), if_pos (by omega)]
  · rw [if_neg (by omega), if_neg (by omega), if_neg (by omega), if_neg (by omega), if_neg (by omega), if_neg (by omega),
      if_neg (by omega), if_neg (by omega)]

/-- A write that a reload ignores. -/
theorem State.raiseF_writeIgnored (s : State) : WriteIgnored s (s.raiseF A.ALMANAC_STATUS F.ALMANAC_STATUS.WR_IGN) :=
  ⟨rfl, State.fon_raiseF_same s _ _ (by decide) (by decide), RegBits.refl.raiseF (List.mem_singleton_self _) (by decide)⟩

theorem State.gated_of_reloading {s : State} {a : Nat} (h : s.reloading a = true) (f : State → State) :
    s.gated a f = s.raiseF A.ALMANAC_STATUS F.ALMANAC_STATUS.WR_IGN := if_pos h

theorem State.gated_of_not_reloading {s : State} {a : Nat} (h : s.reloading a = false) (f : State → State) :
    s.gated a f = f s := if_neg (h ▸ Bool.false_ne_true)

theorem State.reloading_global {a : Nat} (h : a < 0x1000) (s : State) : s.reloading a = false := by
  unfold State.reloading; rw [placeOf_globalBlock h]; rfl

theorem State.reloading_bank {a b o : Nat} (h : placeOf a = .bankReg b o) (s : State) : s.reloading a = (s.bk b).reload := by
  unfold State.reloading; rw [h]; rfl

theorem State.reloading_chan {a c o : Nat} (h : placeOf a = .chanReg c o) (s : State) :
    s.reloading a = (s.bk (bankOf c)).reload := by
  unfold State.reloading; rw [h]; rfl

theorem State.reloading_router {a : Nat} (h : 0x20000 ≤ a) (k : a < 0x21000) (s : State) : s.reloading a = s.rt.reload := by
  unfold State.reloading; rw [placeOf_routerBlock h k]

theorem State.reloading_rf {a : Nat} (h : 0x21000 ≤ a) (k : a < 0x22000) (s : State) : s.reloading a = s.rfReload := by
  unfold State.reloading; rw [placeOf_rfBlock h k]

end Sys2Proof.Machine
end

section
/-! CERTIFICATE. O20: AT writes read back at once and wait for their boundary, and ignored writes change nothing. -/

namespace Sys2Proof.Machine

/-! ### A write of a register with AT fields -/

/-- What waits for the same register is what brings it into force. -/
theorem Eff.sameTarget_force (e : Eff) (a : Nat) (v : Word) : e.sameTarget (.force a v) = true ↔ e.reg = some a := by
  unfold Eff.sameTarget
  rw [Bool.and_eq_true, beq_iff_eq]
  exact ⟨And.right, fun h => ⟨by rw [h]; rfl, h⟩⟩

theorem Prevails.prevailsOver {a : Nat} {w : Wr} {s : State} (h : Prevails a w s) (v : Word) :
    PrevailsOver w.who (s.dueAt w.cyc) (.force a v) s :=
  fun q hq hd ht => h q hq hd ((Eff.sameTarget_force _ _ _).mp ht)

theorem Prevails.not_outranked {a : Nat} {w : Wr} {s : State} (h : Prevails a w s) :
    s.outranked a (s.dueAt w.cyc) w.who = false := by
  simp only [State.outranked, List.any_eq_false, Bool.and_eq_true, beq_iff_eq, Bool.not_eq_true', not_and, and_imp]
  exact fun q hq hd _ hr => by simp [h q hq hd hr]

/-- A write that a reload ignores. -/
theorem State.writeAt_of_reloading {s : State} {a : Nat} (h : s.reloading a = true) (w : Wr) : WriteIgnored s (s.writeAt a w) := by
  unfold State.writeAt
  rw [State.gated_of_reloading h]
  exact s.raiseF_writeIgnored

/-- A value that the register does not take, and a writer that is outranked, change nothing. -/
theorem State.writeAt_of_refused {s : State} {a : Nat} {w : Wr} (h : s.reloading a = false)
    (hr : accepts a w.val = false ∨ s.outranked a (s.dueAt w.cyc) w.who = true) : s.writeAt a w = s := by
  unfold State.writeAt
  rw [State.gated_of_not_reloading h, if_pos]
  rcases hr with hr | hr <;> simp [hr]

/-- An accepted write of a writer that prevails reads back and waits for its boundary. -/
theorem State.writeAt_of_prevails {s : State} {a : Nat} {w : Wr} (h : s.reloading a = false) (ha : accepts a w.val = true)
    (hp : Prevails a w s) : AtWrite a w s (s.writeAt a w) := by
  have e : s.writeAt a w
      = (s.wr a (s.overlay a w.val)).stage (s.dueAt w.cyc) w.who (.force a (s.overlay a w.val)) := by
    unfold State.writeAt
    rw [State.gated_of_not_reloading h, if_neg]
    simp [ha, hp.not_outranked]
  have hregs := State.stage_same (p := .regs) (by decide) (s.wr a (s.overlay a w.val)) (s.dueAt w.cyc) w.who
    (.force a (s.overlay a w.val))
  rw [e]
  refine ⟨(State.rd_of_regs hregs a).trans (State.wr_rd_same ..), State.mem_stage (hp.prevailsOver _),
    State.stage_same (p := .frc) (by decide) .., (RegBits.refl.wr (List.mem_singleton_self _)).of_same hregs⟩

/-- The three ends of a write of a register with AT fields. -/
theorem State.writeAt_cases (s : State) (a : Nat) (w : Wr) :
    (s.reloading a = false → accepts a w.val = true → Prevails a w s → AtWrite a w s (s.writeAt a w))
    ∧ (s.reloading a = false → accepts a w.val = false ∨ s.outranked a (s.dueAt w.cyc) w.who = true → s.writeAt a w = s)
    ∧ (s.reloading a = true → WriteIgnored s (s.writeAt a w)) :=
  ⟨State.writeAt_of_prevails, State.writeAt_of_refused, fun h => State.writeAt_of_reloading h w⟩

/-! ### REGISTER_WRITE of such a register -/

/-- A write that supersedes others of its register sees the unit as it was, but for held timed writes and what waits. -/
theorem State.supersede_hideTimed_same {p : Part} (h : p ≠ .staged) (k : p ≠ .ring) (s : State) (a due : Nat) :
    p.same s ((s.hideTimed a).supersede a due) :=
  have := p.kept; have := Part.kStaged h; have := Part.kRing k
  State.updStaged_keeps (State.hideTimed_keeps Keeps.refl)

theorem State.hideTimed_same {p : Part} (k : p ≠ .ring) (s : State) (a : Nat) : p.same s (s.hideTimed a) :=
  have := p.kept; have := Part.kRing k
  State.hideTimed_keeps Keeps.refl

theorem State.mem_of_mem_supersede {s : State} {a b due : Nat} {q : Staged} (h : q ∈ ((s.hideTimed b).supersede a due).staged) :
    q ∈ s.staged := by
  have h' : q ∈ (s.hideTimed b).staged := (List.mem_filter.mp h).1
  rwa [show (s.hideTimed b).staged = s.staged from State.hideTimed_same (p := .staged) (by decide) s b] at h'

/-- What a write does to a unit that reads, has in force and is at the tick as another holds of the other too. -/
theorem AtWrite.of_same {a : Nat} {w : Wr} {s x t : State} (hr : Part.regs.same s x) (hf : Part.frc.same s x)
    (hc : Part.clk.same s x) (h : AtWrite a w x t) : AtWrite a w s t := by
  obtain ⟨hrd, hst, hfrc, hbits⟩ := h
  have ho : x.overlay a w.val = s.overlay a w.val := by unfold State.overlay; rw [State.rd_of_regs hr]
  rw [ho] at hrd hst
  rw [State.dueAt_of_clk hc] at hst
  exact ⟨hrd, hst, hfrc.trans hf, fun b => (hbits b).trans (by rw [State.rd_of_regs hr])⟩

/-- The channel registers that have AT fields and no rule of their own, by offset: CH_VIH to CH_LOAD. -/
abbrev plainChanRegs : List Nat := [1, 2, 3, 4, 5, 6, 7]

theorem plainChanRegs_bounds {o : Nat} (ho : o ∈ plainChanRegs) : 1 ≤ o ∧ o ≤ 7 := by simp at ho; omega

/-- Each of them has AT fields. -/
theorem chan_delayed {c : Fin 768} {o : Nat} (ho : o ∈ plainChanRegs) : (regInfo (A.CH_MODE c + o)).delayed ≠ 0 := by
  have hb := plainChanRegs_bounds ho
  have e : regInfo (A.CH_MODE c + o) = infoChan o := by
    unfold regInfo A.CH_MODE
    rw [if_neg (by omega), if_neg (by omega), if_neg (by omega), if_pos (by omega)]
    exact congrArg infoChan (by omega)
  have hall : ∀ o ∈ plainChanRegs, (infoChan o).delayed ≠ 0 := by decide
  rw [e]
  exact hall o ho

/-- They are written by the general rule. -/
theorem State.writeAddr_chan {c : Fin 768} {o : Nat} (ho : o ∈ plainChanRegs) (s : State) (w : Wr) :
    s.writeAddr (A.CH_MODE c + o) w = s.writeAt (A.CH_MODE c + o) w := by
  have hb := plainChanRegs_bounds ho
  unfold State.writeAddr
  rw [placeOf_chan c (by omega)]
  dsimp only
  unfold State.writeChanReg
  rw [if_neg (by omega), if_neg (by omega), if_neg (by omega), if_neg (by omega), if_pos (by simpa using chan_delayed ho)]

/-- A reload of the channel's bank holds them. -/
theorem State.reloading_plainChan {c : Fin 768} {o : Nat} (ho : o ∈ plainChanRegs) (s : State) :
    s.reloading (A.CH_MODE c + o) = (s.bk (bankOf c)).reload :=
  s.reloading_chan (placeOf_chan c (by have := plainChanRegs_bounds ho; omega))

/-- A write of a register with AT fields that is not under reload and takes the value, by a writer that is not outranked. -/
theorem State.writeReg_of_taken {s : State} {a : Nat} {w : Wr} (hd : (regInfo a).delayed ≠ 0) (h : s.reloading a = false)
    (ha : accepts a w.val = true) : s.writeReg a w
      = if (s.hideTimed a).outranked a ((s.hideTimed a).dueAt w.cyc) w.who then s.hideTimed a
        else ((s.hideTimed a).supersede a ((s.hideTimed a).dueAt w.cyc)).writeAddr a w := by
  unfold State.writeReg
  rw [if_neg]
  rintro (k | k | k)
  · exact hd k
  · simp [h] at k
  · simp [ha] at k

/-- A write that the register does not take, or that a reload ignores, is handled by its address alone. -/
theorem State.writeReg_of_not_taken {s : State} {a : Nat} {w : Wr} (h : s.reloading a = true ∨ accepts a w.val = false) :
    s.writeReg a w = s.writeAddr a w := by
  unfold State.writeReg
  rw [if_pos]
  rcases h with h | h <;> simp [h]

section
variable {s : State} {c : Fin 768} {o : Nat} {w : Wr} (ho : o ∈ plainChanRegs)
include ho

theorem State.writeReg_chan_of_prevails (h : s.reloading (A.CH_MODE c + o) = false) (ha : accepts (A.CH_MODE c + o) w.val = true)
    (hp : Prevails (A.CH_MODE c + o) w s) : AtWrite (A.CH_MODE c + o) w s (s.writeReg (A.CH_MODE c + o) w) := by
  have hdue : (s.hideTimed (A.CH_MODE c + o)).dueAt w.cyc = s.dueAt w.cyc :=
    State.dueAt_of_clk (State.hideTimed_same (by decide) s _) _
  have hout : (s.hideTimed (A.CH_MODE c + o)).outranked (A.CH_MODE c + o) (s.dueAt w.cyc) w.who = false := by
    unfold State.outranked
    rw [show (s.hideTimed _).staged = s.staged from State.hideTimed_same (p := .staged) (by decide) s _]
    exact hp.not_outranked
  rw [State.writeReg_of_taken (chan_delayed ho) h ha, hdue, if_neg (by simp [hout]), State.writeAddr_chan ho]
  have hx {p : Part} (h : p ≠ .staged) (k : p ≠ .ring) := State.supersede_hideTimed_same h k s (A.CH_MODE c + o) (s.dueAt w.cyc)
  refine AtWrite.of_same (hx (p := .regs) (by decide) (by decide)) (hx (p := .frc) (by decide) (by decide))
    (hx (p := .clk) (by decide) (by decide)) (State.writeAt_of_prevails ?_ ha ?_)
  · rw [State.reloading_plainChan ho] at h ⊢
    unfold State.bk
    rw [show State.bank _ = _ from hx (p := .bank) (by decide) (by decide)]
    exact h
  · intro q hq hd hr
    rw [State.dueAt_of_clk (hx (p := .clk) (by decide) (by decide))] at hd
    exact hp q (State.mem_of_mem_supersede hq) hd hr

theorem State.writeReg_chan_of_refused (h : s.reloading (A.CH_MODE c + o) = false)
    (hr : accepts (A.CH_MODE c + o) w.val = false ∨ s.outranked (A.CH_MODE c + o) (s.dueAt w.cyc) w.who = true) :
    (s.writeReg (A.CH_MODE c + o) w).reg = s.reg ∧ (s.writeReg (A.CH_MODE c + o) w).frc = s.frc
      ∧ (s.writeReg (A.CH_MODE c + o) w).staged = s.staged := by
  have hx {p : Part} (k : p ≠ .ring) := State.hideTimed_same k s (A.CH_MODE c + o)
  cases ha : accepts (A.CH_MODE c + o) w.val with
  | false =>
    rw [State.writeReg_of_not_taken (.inr ha), State.writeAddr_chan ho,
      State.writeAt_of_refused h (.inl ha)]
    exact ⟨rfl, rfl, rfl⟩
  | true =>
    have hout : (s.hideTimed (A.CH_MODE c + o)).outranked (A.CH_MODE c + o) ((s.hideTimed (A.CH_MODE c + o)).dueAt w.cyc) w.who
        = true := by
      rw [State.dueAt_of_clk (hx (p := .clk) (by decide))]
      unfold State.outranked
      rw [show (s.hideTimed _).staged = s.staged from hx (p := .staged) (by decide)]
      exact hr.resolve_left (by simp [ha])
    rw [State.writeReg_of_taken (chan_delayed ho) h ha, if_pos hout]
    exact ⟨(hx (p := .regs) (by decide)).1, hx (p := .frc) (by decide), hx (p := .staged) (by decide)⟩

theorem State.writeReg_chan_of_reloading (h : s.reloading (A.CH_MODE c + o) = true) :
    WriteIgnored s (s.writeReg (A.CH_MODE c + o) w) := by
  rw [State.writeReg_of_not_taken (.inl h), State.writeAddr_chan ho]
  exact State.writeAt_of_reloading h w

end

/-- A write of an unmapped address or of capture memory does nothing (R9). -/
theorem State.writeReg_of_no_register {a : Nat} (h : placeOf a = .none ∨ ∃ e o, placeOf a = .capt e o) (s : State) (w : Wr) :
    s.writeReg a w = s := by
  unfold State.writeReg
  rw [if_pos (.inl (by rw [regInfo_of_no_register h]; rfl))]
  unfold State.writeAddr
  rcases h with h | ⟨e, o, h⟩ <;> rw [h]

/-! ### The statement -/

/-- POWER_CAP_WRITE and POWER_DIE_CAP_WRITE are AT writes of registers that no reload holds. -/
theorem exec_capWrite (s : State) (w : Wr) (c : Instr) (a : Nat)
    (h : c = .powerCapWrite w ∧ a = A.POWER_CAP ∨ ∃ h : Fin 2, c = .powerDieCapWrite h w ∧ a = A.POWER_DIE_CAP h.val) :
    exec c s = .next (s.writeAt a w) ∧ s.reloading a = false := by
  rcases h with ⟨rfl, rfl⟩ | ⟨d, rfl, rfl⟩
  · exact ⟨rfl, s.reloading_global (by decide)⟩
  · exact ⟨rfl, s.reloading_global (by unfold A.POWER_DIE_CAP; omega)⟩

theorem State.reloading_rule (s : State) (n : Fin 64) (k : Fin 4) : s.reloading (A.RULE_SRC n + k) = s.rt.reload := by
  unfold A.RULE_SRC
  exact s.reloading_router (by omega) (by omega)

/-- Settles O20: each of the writes is the AT write of the model (`writeAt`), whose three ends (`writeAt_cases`) are those of
the statement. -/
theorem delayedWritesReadBackAndWait : Obligations.DelayedWritesReadBackAndWait := by
  unfold Obligations.DelayedWritesReadBackAndWait
  refine ⟨fun s w c a h => ?_, fun s n k w => ?_, fun s c o w ho => ?_, fun s a w h => ?_⟩
  · obtain ⟨he, hl⟩ := exec_capWrite s w c a h
    obtain ⟨hw, hr, -⟩ := s.writeAt_cases a w
    exact ⟨_, he, hw hl, hr hl⟩
  · have := s.writeAt_cases (A.RULE_SRC n + k) w
    rw [State.reloading_rule] at this
    exact ⟨_, rfl, this⟩
  · rw [← State.reloading_plainChan ho s]
    exact ⟨_, rfl, State.writeReg_chan_of_prevails ho, State.writeReg_chan_of_refused ho, State.writeReg_chan_of_reloading ho⟩
  · exact congrArg Host.Outcome.next (State.writeReg_of_no_register h s w)

end Sys2Proof.Machine
end

section
/-! SUPPORT. A write of a control register that may enable what it controls (R37): the one shape that such writes have, its ends,
and what a write that waits and a write that asks leave. -/

namespace Sys2Proof.Machine

/-! ### A write that waits without a request -/

/-- The write reads back and waits for its boundary, unless one that prevails does already; the ledger is asked for nothing, and
no bit of a register changes but those named. -/
def WaitsUnasked (a : Nat) (r : Word) (who : Writer) (regs : List (Nat × Word)) (s t : State) : Prop :=
  t.rd a = r ∧ t.frc = s.frc ∧ t.led.nextId = s.led.nextId ∧ t.led.committed = s.led.committed
    ∧ (PrevailsOver who (s.dueAt 0) (.force a r) s → ⟨s.dueAt 0, who, .force a r, false⟩ ∈ t.staged)
    ∧ RegBits regs s t

/-- Before a write waits, a request that it takes the place of may have left the queue, and records and the registers named may
have changed. -/
structure RequestGone (regs : List (Nat × Word)) (s x : State) : Prop where
  clk : x.clk = s.clk
  frc : x.frc = s.frc
  staged : x.staged = s.staged
  nextId : x.led.nextId = s.led.nextId
  committed : x.led.committed = s.led.committed
  bits : RegBits regs s x

theorem RequestGone.trans {regs : List (Nat × Word)} {s x y : State} (h : RequestGone regs s x) (k : RequestGone regs x y) :
    RequestGone regs s y :=
  ⟨k.clk.trans h.clk, k.frc.trans h.frc, k.staged.trans h.staged, k.nextId.trans h.nextId, k.committed.trans h.committed,
    h.bits.trans k.bits⟩

/-- The effects of a write that asks for nothing: each waits for the boundary of R46. -/
def State.stageAll (s : State) (who : Writer) (l : List Eff) : State := l.foldl (fun s e => s.stage (s.dueAt 0) who e) s

/-- The write waits, with what acts beside it. -/
theorem RequestGone.waitsUnasked {regs : List (Nat × Word)} {s x : State} (h : RequestGone regs s x) {a : Nat} {r : Word}
    {l : List Eff} (who : Writer) (hl : ∀ e ∈ l, e.reg = none) (hp : wholeReg a ∈ regs) :
    WaitsUnasked a r who regs s ((x.wr a r).stageAll who (.force a r :: l)) := by
  have same {p : Part} (hp : p ≠ .staged) := State.foldl_stage_same hp (x.wr a r) 0 who (.force a r :: l)
  have hled : _ = (x.wr a r).led := same (p := .led) (by decide)
  have hdue : (x.wr a r).dueAt 0 = s.dueAt 0 := State.dueAt_of_clk (s := s) h.clk 0
  refine ⟨(State.rd_of_regs (same (by decide)) a).trans (State.wr_rd_same ..), (same (p := .frc) (by decide)).trans h.frc,
    (congrArg Ledger.nextId hled).trans h.nextId, (congrArg Ledger.committed hled).trans h.committed, fun hv => ?_,
    (h.bits.wr hp).of_same (same (by decide))⟩
  rw [← hdue] at hv ⊢
  refine State.mem_foldl_stage (targetsDiffer_force hl) List.mem_cons_self fun q hq => hv q ?_
  exact h.staged ▸ hq

/-! ### The ends of a write that may ask -/

/-- A write that may ask the ledger: ignored under a reload, refused with a value that the register does not take, and else with
a request (`asked`), discarded where the shared queue is full, or without one (`waits`). -/
def State.enableWrite (s : State) (a : Nat) (v : Word) (ask full : Bool) (asked waits : State) : State :=
  s.gated a (fun s =>
    if !accepts a v then s
    else if ask then if full then s.inc A.TICK_BUDGET F.TICK_BUDGET.LEDGER_FULL 1 else asked
    else waits)

/-- Its five ends, where one that asks for nothing reads back and waits for its boundary. -/
theorem State.enableWrite_ends {regs : List (Nat × Word)} {s x t asked : State} {a : Nat} {v r : Word} {who : Writer}
    {ask full : Bool} {l : List Eff} (hx : RequestGone regs s x) (hl : ∀ e ∈ l, e.reg = none) (hp : wholeReg a ∈ regs)
    (ht : t = s.enableWrite a v ask full asked ((x.wr a r).stageAll who (.force a r :: l))) :
    (s.reloading a = true → WriteIgnored s t ∧ t.led = s.led)
    ∧ (s.reloading a = false → accepts a v = false → t = s)
    ∧ (s.reloading a = false → accepts a v = true → ask = true →
      (full = true → QueueWasFull s t) ∧ (full = false → t = asked))
    ∧ (s.reloading a = false → accepts a v = true → ask = false → WaitsUnasked a r who regs s t) := by
  subst ht
  unfold State.enableWrite
  refine ⟨fun h => ?_, fun h ha => ?_, fun h ha hk => ⟨fun hf => ?_, fun hf => ?_⟩, fun h ha hk => ?_⟩
  · rw [State.gated_of_reloading h]
    exact ⟨s.raiseF_writeIgnored, rfl⟩
  · rw [State.gated_of_not_reloading h, ha]; rfl
  · rw [State.gated_of_not_reloading h, ha, hk, hf]
    exact s.queueWasFull_inc
  · rw [State.gated_of_not_reloading h, ha, hk, hf]; rfl
  · rw [State.gated_of_not_reloading h, ha, hk]
    exact hx.waitsUnasked who hl hp

/-! ### Elements with an EN_PEND flag (R211, R234) -/

/-- A change under a condition that leaves registers, the tick, the ledger and what waits. -/
theorem State.cond_requestGone {regs : List (Nat × Word)} {s : State} {c : Bool} {f : State → State}
    (h : RequestGone regs s (f s)) : RequestGone regs s (s.cond c f) := by
  unfold State.cond
  split
  · exact h
  · exact ⟨rfl, rfl, rfl, rfl, rfl, .refl⟩

/-- A request for an element that is not in force and that a write takes the place of leaves the queue, with its flag. -/
def State.requestDropped (s : State) (a : Nat) (en : Fld) (key : ReqKey) (st : Nat) (pend : Fld) : State :=
  s.cond (!s.eon a en && s.hasReq key) (fun s => (s.withdraw key).fset st pend 0)

theorem Fld.mask_bitsOf (f : Fld) (a : Nat) : f.mask &&& ~~~(bitsOf a [f]).2 = 0 := by simp

theorem State.requestDropped_requestGone {regs : List (Nat × Word)} {st : Nat} {pend : Fld} (hp : bitsOf st [pend] ∈ regs)
    (s : State) (a : Nat) (en : Fld) (key : ReqKey) : RequestGone regs s (s.requestDropped a en key st pend) :=
  State.cond_requestGone
    ⟨rfl, rfl, rfl, rfl, rfl, RegBits.fset (RegBits.refl.of_reg rfl) hp (pend.mask_bitsOf st)⟩

/-- The request of an element, its flag set: the write reads back, what the records hold stays, and the effects are asked for. -/
theorem State.requestPending_asks {x t : State} {key : ReqKey} {who : Writer} {effs : List Eff} {st : Nat} {pend : Fld}
    (hl : TargetsDiffer effs) (hpend : pend.lo + pend.width ≤ 36) (hw : 0 < pend.width)
    (ht : t = (x.request key (classOf who) (classIndex who) who 0 effs).fset st pend 1) :
    (∀ a, a ≠ st → t.rd a = x.rd a) ∧ t.fon st pend = true ∧ t.src = x.src ∧ t.ae = x.ae ∧ AskedFor key effs who x t
      ∧ ∀ regs s, RegBits regs s x → bitsOf st [pend] ∈ regs → RegBits regs s t := by
  subst ht
  have same {p : Part} (h : p ≠ .staged) (k : p ≠ .led) :=
    x.request_same h k key (classOf who) (classIndex who) who 0 effs
  refine ⟨fun a ha => ?_, State.fon_fbit_same _ _ true _ hpend hw, same (p := .src) (by decide) (by decide),
    same (p := .ae) (by decide) (by decide), x.request_askedFor hl key (classIndex who) who, fun regs s hb hp => ?_⟩
  · exact (State.fset_rd_ne _ _ _ _ ha).trans (State.rd_of_regs (same (by decide) (by decide)) a)
  · exact (hb.of_same (same (by decide) (by decide))).fset hp (pend.mask_bitsOf st)

/-! ### Addresses of sources and engines -/

theorem elemOf_div (b : Nat) (j : Fin 2) : elemOf b j / 2 = b := by unfold elemOf; omega

theorem elemOf_mod (b : Nat) (j : Fin 2) : elemOf b j % 2 = j := by unfold elemOf; omega

theorem srcCtl_elemOf (b : Nat) (j : Fin 2) : srcCtl (elemOf b j) = A.SRC_CTL b j := by
  unfold srcCtl; rw [elemOf_div, elemOf_mod]

theorem srcStat_elemOf (b : Nat) (j : Fin 2) : srcStat (elemOf b j) = A.SRC_STATUS b j := by
  unfold srcStat; rw [elemOf_div, elemOf_mod]

theorem aeCtl_elemOf (b : Nat) (j : Fin 2) : aeCtl (elemOf b j) = A.AE_CTL b j := by
  unfold aeCtl; rw [elemOf_div, elemOf_mod]

theorem aeStat_elemOf (b : Nat) (j : Fin 2) : aeStat (elemOf b j) = A.AE_STATUS b j := by
  unfold aeStat; rw [elemOf_div, elemOf_mod]

theorem srcCtl_ne_srcStat (n : Nat) : srcCtl n ≠ srcStat n := by
  unfold srcCtl srcStat A.SRC_CTL A.SRC_STATUS; omega

theorem aeCtl_ne_aeStat (e : Nat) : aeCtl e ≠ aeStat e := by
  unfold aeCtl aeStat A.AE_CTL A.AE_STATUS; omega

theorem State.reloading_srcCtl (s : State) (b : Fin 12) (j : Fin 2) : s.reloading (A.SRC_CTL b j) = (s.bk b).reload := by
  have h : A.SRC_CTL b j = 0x1000 + b * 0x100 + (0x90 + 8 * j) := by unfold A.SRC_CTL; omega
  rw [h]
  exact s.reloading_bank (placeOf_bank b (by omega))

theorem State.reloading_aeCtl (s : State) (b : Fin 12) (j : Fin 2) : s.reloading (A.AE_CTL b j) = (s.bk b).reload := by
  have h : A.AE_CTL b j = 0x1000 + b * 0x100 + (0xa0 + 0x30 * j) := by unfold A.AE_CTL; omega
  rw [h]
  exact s.reloading_bank (placeOf_bank b (by omega))

end Sys2Proof.Machine
end

section
/-! CERTIFICATE. O42: enabling a source or an acquisition engine asks the ledger. -/

namespace Sys2Proof.Machine

/-! ### Sources (R209, R211) -/

/-- The registers that a write of `SRC_CTLj` may change. -/
abbrev srcRegs (n : Nat) : List (Nat × Word) := [wholeReg (srcCtl n), bitsOf (srcStat n) [F.SRC_STATUS.EN_PEND]]

/-- What a write of `SRC_CTLj` that asks for nothing finds when it waits. -/
def State.srcUnasked (s : State) (n : Nat) (who : Writer) (r : Word) : State :=
  (s.cond (s.srcRises n r) (fun s => s.updSr n (fun k => { k with who := who }))).requestDropped
    (srcCtl n) F.SRC_CTL.EN (.src n) (srcStat n) F.SRC_STATUS.EN_PEND

theorem State.srcUnasked_requestGone (s : State) (n : Nat) (who : Writer) (r : Word) :
    RequestGone (srcRegs n) s (s.srcUnasked n who r) :=
  (State.cond_requestGone ⟨rfl, rfl, rfl, rfl, rfl, RegBits.refl.of_reg rfl⟩).trans
    (State.requestDropped_requestGone (List.mem_cons_of_mem _ List.mem_cons_self) _ _ _ _)

/-- A write of `SRC_CTLj` is a write that may ask. -/
theorem State.writeSrcCtl_eq (s : State) (n : Nat) (who : Writer) {v r : Word} (hr : r = v &&& (regInfo (srcCtl n)).rw) :
    s.writeSrcCtl n ⟨who, v, 0⟩ = s.enableWrite (srcCtl n) v (s.srcRises n r && s.srcMayAsk n)
      (s.queueFull (classOf who) (.src n) [.srcOn n])
      (((s.wr (srcCtl n) r).updSr n (fun k => { k with who := who })).srcRequest n who 0 [.force (srcCtl n) r])
      (((s.srcUnasked n who r).wr (srcCtl n) r).stageAll who [.force (srcCtl n) r]) := by
  subst hr; rfl

/-- A write that asks reads back, with EN_PEND set, and waits whole with the request (R37, R211). -/
theorem State.srcRequest_asks (s : State) (n : Nat) (who : Writer) (r : Word) {x t : State}
    (hx : x = (s.wr (srcCtl n) r).updSr n (fun k => { k with who := who }))
    (ht : t = x.srcRequest n who 0 [.force (srcCtl n) r]) :
    t.rd (srcCtl n) = r ∧ t.fon (srcStat n) F.SRC_STATUS.EN_PEND = true ∧ t.sr n = { s.sr n with who := who }
      ∧ AskedFor (.src n) [.force (srcCtl n) r, .srcOn n] who x t ∧ RegBits (srcRegs n) s t := by
  obtain ⟨hrd, hpend, hsrc, -, hasked, hbits⟩ := State.requestPending_asks (x := x) (key := .src n)
    (targetsDiffer_force (by simp [Eff.reg])) (by decide) (by decide) ht
  subst hx
  refine ⟨(hrd _ (srcCtl_ne_srcStat n)).trans (State.wr_rd_same ..), hpend, ?_, hasked,
    hbits _ s ((RegBits.refl.wr List.mem_cons_self).of_reg rfl) (List.mem_cons_of_mem _ List.mem_cons_self)⟩
  exact (congrArg (fun l => Tab.get (fun _ => ({} : Src)) l n) hsrc).trans (State.updSr_sr_same ..)

/-! ### Acquisition engines (R234 to R236) -/

/-- The registers that a write of `AE_CTLj` may change. -/
abbrev aeRegs (e : Nat) : List (Nat × Word) := [wholeReg (aeCtl e), bitsOf (aeStat e) [F.AE_STATUS.EN_PEND]]

/-- GO and STOP of a word written to `AE_CTLj`, as what acts at the boundary beside the value. -/
def aeCommands (e : Nat) (v : Word) : List Eff :=
  if F.AE_CTL.GO.on v || F.AE_CTL.STOP.on v then [.ae e (F.AE_CTL.GO.on v) (F.AE_CTL.STOP.on v)] else []

theorem aeCommands_reg {e : Nat} {v : Word} : ∀ x ∈ aeCommands e v, x.reg = none := by
  unfold aeCommands
  split <;> simp [Eff.reg]

/-- What a write of `AE_CTLj` that asks for nothing finds when it waits. -/
def State.aeUnasked (s : State) (e : Nat) (who : Writer) (r : Word) : State :=
  (s.cond (s.aeRises e r) (fun s => s.updEn e (fun k => { k with who := who }))).requestDropped
    (aeCtl e) F.AE_CTL.EN (.ae e) (aeStat e) F.AE_STATUS.EN_PEND

theorem State.aeUnasked_requestGone (s : State) (e : Nat) (who : Writer) (r : Word) :
    RequestGone (aeRegs e) s (s.aeUnasked e who r) :=
  (State.cond_requestGone ⟨rfl, rfl, rfl, rfl, rfl, RegBits.refl.of_reg rfl⟩).trans
    (State.requestDropped_requestGone (List.mem_cons_of_mem _ List.mem_cons_self) _ _ _ _)

/-- A write of `AE_CTLj` is a write that may ask. -/
theorem State.writeAeCtl_eq (s : State) (e : Nat) (who : Writer) {v r : Word} (hr : r = v &&& (regInfo (aeCtl e)).rw) :
    s.writeAeCtl e ⟨who, v, 0⟩ = s.enableWrite (aeCtl e) v (s.aeRises e r && !s.aeBarred e)
      (s.queueFull (classOf who) (.ae e) [.aeOn e])
      (((s.wr (aeCtl e) r).updEn e (fun k => { k with who := who })).aeRequest e who 0 (.force (aeCtl e) r :: aeCommands e v))
      (((s.aeUnasked e who r).wr (aeCtl e) r).stageAll who (.force (aeCtl e) r :: aeCommands e v)) := by
  subst hr; rfl

/-- A write that asks reads back, with EN_PEND set, and waits whole with the request (R37, R234). -/
theorem State.aeRequest_asks (s : State) (e : Nat) (who : Writer) (v r : Word) {x t : State}
    (hx : x = (s.wr (aeCtl e) r).updEn e (fun k => { k with who := who }))
    (ht : t = x.aeRequest e who 0 (.force (aeCtl e) r :: aeCommands e v)) :
    t.rd (aeCtl e) = r ∧ t.fon (aeStat e) F.AE_STATUS.EN_PEND = true ∧ t.en e = { s.en e with who := who }
      ∧ AskedFor (.ae e) (.force (aeCtl e) r :: aeCommands e v ++ [.aeOn e]) who x t ∧ RegBits (aeRegs e) s t := by
  have hl : TargetsDiffer (.force (aeCtl e) r :: aeCommands e v ++ [.aeOn e]) := by
    refine targetsDiffer_force fun y hy => ?_
    rcases List.mem_append.mp hy with hy | hy
    · exact aeCommands_reg y hy
    · rw [List.mem_singleton.mp hy]; rfl
  obtain ⟨hrd, hpend, -, hae, hasked, hbits⟩ :=
    State.requestPending_asks (x := x) (key := .ae e) hl (by decide) (by decide) ht
  subst hx
  refine ⟨(hrd _ (aeCtl_ne_aeStat e)).trans (State.wr_rd_same ..), hpend, ?_, hasked,
    hbits _ s ((RegBits.refl.wr List.mem_cons_self).of_reg rfl) (List.mem_cons_of_mem _ List.mem_cons_self)⟩
  exact (congrArg (fun l => Tab.get (fun _ => ({} : Ae)) l e) hae).trans (State.updEn_en_same ..)

/-! ### The statement -/

/-- Settles O42: the two commands are writes of the control register with EN = 1 that may ask, whose ends `enableWrite_ends`
says; `srcRequest_asks` and `aeRequest_asks` say what asking leaves. -/
theorem elementEnables : Obligations.ElementEnables := by
  unfold Obligations.ElementEnables
  refine ⟨fun s b j who v r n hn hv hr => ?_, fun s b j who v r e cmd he hv hr hcmd => ?_⟩
  · rw [← srcCtl_elemOf, ← hn] at hv hr
    have hexec : exec (.sourceEnable b j who) s = .next (s.writeSrcCtl n ⟨who, v, 0⟩) := by subst hn hv; rfl
    obtain ⟨hreload, hrefused, hask, hwait⟩ := State.enableWrite_ends (s.srcUnasked_requestGone n who r) (by simp)
      List.mem_cons_self (s.writeSrcCtl_eq n who hr)
    rw [← s.reloading_srcCtl b j, ← srcCtl_elemOf, ← srcStat_elemOf, ← hn]
    refine ⟨_, hexec, hreload, hrefused, fun hl ha hrise hmay => ?_,
      fun hl ha hno => hwait hl ha (Bool.and_eq_false_iff.mpr hno)⟩
    obtain ⟨hfull, hroom⟩ := hask hl ha (by rw [hrise, hmay]; rfl)
    exact ⟨hfull, fun hq => s.srcRequest_asks n who r rfl (hroom hq)⟩
  · rw [← aeCtl_elemOf, ← he] at hv hr
    have hexec : exec (.aeEnable b j who) s = .next (s.writeAeCtl e ⟨who, v, 0⟩) := by subst he hv; rfl
    obtain ⟨hreload, hrefused, hask, hwait⟩ := State.enableWrite_ends (s.aeUnasked_requestGone e who r) aeCommands_reg
      List.mem_cons_self (s.writeAeCtl_eq e who hr)
    rw [← s.reloading_aeCtl b j, ← aeCtl_elemOf, ← aeStat_elemOf, ← he, show cmd = aeCommands e v from hcmd]
    refine ⟨_, hexec, hreload, hrefused, fun hl ha hrise hbar => ?_,
      fun hl ha hno => hwait hl ha (Bool.and_eq_false_iff.mpr (hno.imp_right fun h => by rw [h]; rfl))⟩
    obtain ⟨hfull, hroom⟩ := hask hl ha (by rw [hrise, hbar]; rfl)
    exact ⟨hfull, fun hq => s.aeRequest_asks e who v r rfl (hroom hq)⟩

end Sys2Proof.Machine
end

section
/-! CERTIFICATE. O51: enabling receive, measured power and the detector. -/

namespace Sys2Proof.Machine

/-! ### The enable of receive (R310) -/

/-- EN of `RF_RXCTL` in force just before the boundary of a write that reaches CORE now. -/
def State.rxWas (s : State) (p : Nat) : Bool := F.RF_RXCTL.EN.on (s.effBefore (A.RF_RXCTL p) (s.dueAt 0))

/-- A written `RF_RXCTL` enables receive: EN goes from 0 to 1, or a write that waits to do so is replaced (R37). -/
def State.rxRises (s : State) (p : Nat) (r : Word) : Bool :=
  F.RF_RXCTL.EN.on r && !s.rxWas p && (!s.fon (A.RF_RXCTL p) F.RF_RXCTL.EN || s.hasReq (.rx p))

/-- What a write of `RF_RXCTL` that asks for nothing finds when it waits. -/
def State.rxUnasked (s : State) (p : Nat) : State := s.cond (!s.rxWas p) (fun s => s.withdraw (.rx p))

theorem State.rxUnasked_requestGone (s : State) (p : Nat) : RequestGone [wholeReg (A.RF_RXCTL p)] s (s.rxUnasked p) :=
  State.cond_requestGone ⟨rfl, rfl, rfl, rfl, rfl, RegBits.refl.of_reg rfl⟩

/-- What a write of `RF_RXCTL` that enables receive asks: receive that an earlier boundary still ends is requested anew. -/
def State.rxAsk (s : State) (p : Nat) (who : Writer) (r : Word) : State :=
  if s.rxHeld p then
    (s.wr (A.RF_RXCTL p) r).enqueue (.rx p) (classOf who) (classIndex who) who 0 [.force (A.RF_RXCTL p) r, .rxOn p]
  else (s.wr (A.RF_RXCTL p) r).request (.rx p) (classOf who) (classIndex who) who 0 [.force (A.RF_RXCTL p) r, .rxOn p]

/-- A write of `RF_RXCTL` is a write that may ask. -/
theorem State.writeRxCtl_eq (s : State) (p : Nat) (who : Writer) {v r : Word} (hr : r = v &&& (regInfo (A.RF_RXCTL p)).rw) :
    s.writeRxCtl p ⟨who, v, 0⟩ = s.enableWrite (A.RF_RXCTL p) v (s.rxRises p r)
      (s.queueFull (classOf who) (.rx p) [.rxOn p]) (s.rxAsk p who r)
      (((s.rxUnasked p).wr (A.RF_RXCTL p) r).stageAll who [.force (A.RF_RXCTL p) r]) := by
  subst hr; rfl

/-- A request that is made or joins the queue leaves the written word to read. -/
theorem State.rxAsk_regs (s : State) (p : Nat) (who : Writer) (r : Word) :
    Part.regs.same (s.wr (A.RF_RXCTL p) r) (s.rxAsk p who r) := by
  unfold State.rxAsk
  split
  · exact State.enqueue_same (by decide) _ _ _ _ _ _ _
  · exact State.request_same (by decide) (by decide) _ _ _ _ _ _ _

/-- A write that asks reads back and waits whole with the request (R37, R310). -/
theorem State.rxAsk_asks (s : State) (p : Nat) (who : Writer) (r : Word) {t : State} (ht : t = s.rxAsk p who r) :
    t.rd (A.RF_RXCTL p) = r ∧ RegBits [wholeReg (A.RF_RXCTL p)] s t
      ∧ (s.rxHeld p = false → AskedFor (.rx p) [.force (A.RF_RXCTL p) r, .rxOn p] who (s.wr (A.RF_RXCTL p) r) t)
      ∧ (s.rxHeld p = true → t.staged = s.staged
        ∧ ∃ q ∈ t.led.queue, q.key = queueKey (.rx p) who ∧ .force (A.RF_RXCTL p) r ∈ q.effs ∧ .rxOn p ∈ q.effs) := by
  subst ht
  refine ⟨(State.rd_of_regs (s.rxAsk_regs p who r) _).trans (State.wr_rd_same ..),
    (RegBits.refl.wr List.mem_cons_self).of_same (s.rxAsk_regs p who r), fun hh => ?_, fun hh => ?_⟩
  · unfold State.rxAsk
    rw [if_neg (by simp [hh])]
    exact State.request_askedFor (targetsDiffer_force (by simp [Eff.reg])) _ _ _ _
  · unfold State.rxAsk
    rw [if_pos hh]
    obtain ⟨q, hq, hkey, heffs, -⟩ := (s.wr (A.RF_RXCTL p) r).exists_mem_enqueue (.rx p) (classOf who) (classIndex who) who 0
      [.force (A.RF_RXCTL p) r, .rxOn p]
    exact ⟨rfl, q, hq, hkey, by simp [heffs], by simp [heffs]⟩

/-! ### Measurement intervals (R310 to R312) -/

theorem untwos_lt (w : Nat) (i : Int) : untwos w i < 2 ^ w := by
  unfold untwos
  have h0 : (0 : Int) < (2 ^ w : Nat) := by exact_mod_cast Nat.two_pow_pos w
  have := Int.emod_nonneg i (Int.ne_of_gt h0)
  have := Int.emod_lt_of_pos i h0
  omega

/-- `RF_RXPWR` with a measured power. -/
def rxPower (pwr : Int) : Word := F.RF_RXPWR.VALID.put (F.RF_RXPWR.PWR.put 0 (untwos 12 (clampInt (-1920) 160 pwr))) 1

theorem rxPower_valid (pwr : Int) : F.RF_RXPWR.VALID.on (rxPower pwr) = true :=
  Fld.on_put F.RF_RXPWR.VALID _ true (by decide) (by decide)

theorem rxPower_pwr (pwr : Int) : F.RF_RXPWR.PWR.get (rxPower pwr) = untwos 12 (clampInt (-1920) 160 pwr) :=
  (Fld.get_put_ne _ _ _ _ (by decide)).trans (Fld.get_put_same _ _ _ (by decide) (untwos_lt 12 _))

/-- The next interval is counted. -/
def State.rxCounted (s : State) (p n : Nat) : State := s.updPt p (fun k => { k with rxIdx := n + 1 })

/-- Without receive in force, or an interval that ends in the tick, there is none. -/
theorem State.rxInterval_of_none {s : State} {p : Nat} (h : s.rxEff p = false ∨ s.rxNext p = none) (pwr : Int) :
    s.rxInterval p pwr = s := by
  unfold State.rxInterval
  have e : (if s.rxEff p then s.rxNext p else none) = none := by rcases h with h | h <;> simp [h]
  rw [e]

/-- An interval that blanking overlaps is counted and not stored (R311). -/
theorem State.rxInterval_of_blanked {s : State} {p n e : Nat} (he : s.rxEff p = true) (hn : s.rxNext p = some (n, e))
    (h : s.rxBlanked p = true ∨ ∀ x, (s.pt p).rxSince = some x → e < x + s.rxLen p) (pwr : Int) :
    s.rxInterval p pwr = s.rxCounted p n := by
  unfold State.rxInterval
  rw [if_pos he, hn]
  refine if_pos ?_
  rcases h with h | h
  · exact Bool.or_eq_true_iff.mpr (.inl h)
  · rw [State.updPt_pt_same, Bool.or_eq_true_iff]
    right
    cases hs : (s.pt p).rxSince with
    | none => rfl
    | some x => exact congrArg not (decide_eq_false (Nat.not_le_of_gt (h x hs)))

/-- A whole interval is counted and stored, and the detector sees it (R310, R312). -/
theorem State.rxInterval_of_whole {s : State} {p n e x : Nat} (he : s.rxEff p = true) (hn : s.rxNext p = some (n, e))
    (hb : s.rxBlanked p = false) (hx : (s.pt p).rxSince = some x) (hl : x + s.rxLen p ≤ e) (pwr : Int) :
    s.rxInterval p pwr = ((s.rxCounted p n).wr (A.RF_RXPWR p) (rxPower pwr)).rxDetect p pwr e := by
  unfold State.rxInterval
  rw [if_pos he, hn]
  refine if_neg ?_
  rw [State.updPt_pt_same, hx, Bool.or_eq_true_iff, not_or]
  exact ⟨fun h => Bool.false_ne_true (hb.symm.trans h), fun h => by simp at h; exact absurd hl (Nat.not_le_of_gt h)⟩

/-! ### The detector (R312) -/

/-- An event is of the tick and the count, and of what TICK_STATUS says. -/
theorem evAt_congr {s t : State} (hc : t.clk = s.clk) (hr : t.rd A.TICK_STATUS = s.rd A.TICK_STATUS) (cls idx kind : Nat)
    (q : Nat × Bool) : evAt t cls idx kind q = evAt s cls idx kind q := by
  unfold evAt State.stampAt State.stamp State.isLocal State.leapAdj State.leapAdjAt State.now State.fon
  rw [hc, hr]

/-- `RF_STATUS` and the detector's arm are all that it changes of registers and of the port. -/
theorem State.rxDetect_frame (s : State) (p : Nat) (pwr : Int) (e : Nat) :
    ((s.rxDetect p pwr e).pt p).rxIdx = (s.pt p).rxIdx
      ∧ RegBits [bitsOf (A.RF_STATUS p) [F.RF_STATUS.RX_DET]] s (s.rxDetect p pwr e) := by
  unfold State.rxDetect State.cond
  dsimp only
  split
  · split
    · exact ⟨by simp [State.eventAt], ((RegBits.refl.of_reg rfl).raiseF List.mem_cons_self (by decide)).of_reg rfl⟩
    · exact ⟨rfl, .refl⟩
  · split
    · exact ⟨by simp, RegBits.refl.of_reg rfl⟩
    · exact ⟨rfl, .refl⟩

/-- An armed detector detects a power at or above its threshold, with its event. -/
theorem State.rxDetect_of_detected {s : State} {p : Nat} {pwr : Int} (ha : (s.pt p).rxArmed = true) (ht : s.rxThresh p ≤ pwr)
    (e : Nat) : (s.rxDetect p pwr e).fon (A.RF_STATUS p) F.RF_STATUS.RX_DET = true ∧ ((s.rxDetect p pwr e).pt p).rxArmed = false
      ∧ (s.rxDetect p pwr e).rt.events = s.rt.events ++ [evAt s evRf p 4 (e, false)] := by
  have hne : A.TICK_STATUS ≠ A.RF_STATUS p := by unfold A.TICK_STATUS A.RF_STATUS; omega
  unfold State.rxDetect
  dsimp only
  rw [if_pos ha, if_pos ht]
  refine ⟨State.fon_raiseF_same _ _ F.RF_STATUS.RX_DET (by decide) (by decide),
    by simp [State.eventAt], ?_⟩
  rw [← evAt_congr (s := s) (t := (s.updPt p (fun k => { k with rxArmed := false })).raiseF (A.RF_STATUS p) F.RF_STATUS.RX_DET)
    rfl (State.raiseF_rd_ne _ _ _ hne)]
  rfl

/-- An armed detector lets a lower power pass. -/
theorem State.rxDetect_of_below {s : State} {p : Nat} {pwr : Int} (ha : (s.pt p).rxArmed = true) (ht : pwr < s.rxThresh p)
    (e : Nat) : s.rxDetect p pwr e = s := by
  unfold State.rxDetect
  dsimp only
  rw [if_pos ha, if_neg (Int.not_le.mpr ht)]

/-- A detector that is not armed is armed again by a power a decibel below its threshold. -/
theorem State.rxDetect_of_unarmed {s : State} {p : Nat} {pwr : Int} (ha : (s.pt p).rxArmed = false) (e : Nat) :
    (s.rxDetect p pwr e).rt = s.rt ∧ ((s.rxDetect p pwr e).pt p).rxArmed = decide (pwr < s.rxThresh p - 16) := by
  unfold State.rxDetect
  dsimp only
  rw [if_neg (by simp [ha])]
  unfold State.cond
  split
  next h => exact ⟨rfl, (congrArg Port.rxArmed (State.updPt_pt_same s p _)).trans h.symm⟩
  next h => exact ⟨rfl, ha.trans (Bool.eq_false_iff.mpr h).symm⟩

/-- What the end of a whole interval leaves (R310, R312). -/
theorem State.rxInterval_stores {s t : State} {p n e x : Nat} {pwr : Int} (he : s.rxEff p = true)
    (hn : s.rxNext p = some (n, e)) (hb : s.rxBlanked p = false) (hx : (s.pt p).rxSince = some x) (hl : x + s.rxLen p ≤ e)
    (ht : t = s.rxInterval p pwr) :
    t.fon (A.RF_RXPWR p) F.RF_RXPWR.VALID = true ∧ (t.pt p).rxIdx = n + 1
      ∧ t.fget (A.RF_RXPWR p) F.RF_RXPWR.PWR = untwos 12 (clampInt (-1920) 160 pwr)
      ∧ ((s.pt p).rxArmed = true → s.rxThresh p ≤ pwr → t.fon (A.RF_STATUS p) F.RF_STATUS.RX_DET = true
          ∧ (t.pt p).rxArmed = false ∧ t.rt.events = s.rt.events ++ [evAt s evRf p 4 (e, false)])
      ∧ ((s.pt p).rxArmed = true → pwr < s.rxThresh p → t.rt = s.rt ∧ (t.pt p).rxArmed = true)
      ∧ ((s.pt p).rxArmed = false → t.rt = s.rt ∧ (t.pt p).rxArmed = decide (pwr < s.rxThresh p - 16))
      ∧ RegBits [wholeReg (A.RF_RXPWR p), bitsOf (A.RF_STATUS p) [F.RF_STATUS.RX_DET]] s t := by
  rw [State.rxInterval_of_whole he hn hb hx hl] at ht
  generalize hu : (s.rxCounted p n).wr (A.RF_RXPWR p) (rxPower pwr) = u at ht
  have hpt : u.pt p = { s.pt p with rxIdx := n + 1 } := by subst hu; simp [State.rxCounted]
  have harm : (u.pt p).rxArmed = (s.pt p).rxArmed := by rw [hpt]
  have hthr : u.rxThresh p = s.rxThresh p := by subst hu; rfl
  have hrt : u.rt = s.rt := by subst hu; rfl
  have hev : evAt u evRf p 4 (e, false) = evAt s evRf p 4 (e, false) := by
    have hne : A.TICK_STATUS ≠ A.RF_RXPWR p := by unfold A.TICK_STATUS A.RF_RXPWR; omega
    subst hu
    refine evAt_congr ?_ (State.wr_rd_ne (s.rxCounted p n) _ _ hne) _ _ _ _
    rfl
  have hbits : RegBits [wholeReg (A.RF_RXPWR p), bitsOf (A.RF_STATUS p) [F.RF_STATUS.RX_DET]] s u := by
    subst hu; exact RegBits.wr (RegBits.refl.of_reg rfl) List.mem_cons_self
  obtain ⟨hidx, hdet⟩ := u.rxDetect_frame p pwr e
  rw [← ht] at hidx hdet
  have hword : t.rd (A.RF_RXPWR p) = rxPower pwr := by
    have hne : A.RF_RXPWR p ≠ A.RF_STATUS p := by unfold A.RF_RXPWR A.RF_STATUS; omega
    refine (hdet.rd (by simpa using hne)).trans ?_
    subst hu; exact State.wr_rd_same ..
  refine ⟨?_, by rw [hidx, hpt], ?_, fun ha hge => ?_, fun ha hlt => ?_, fun ha => ?_,
    hbits.trans (hdet.mono fun q hq => List.mem_cons_of_mem _ hq)⟩
  · unfold State.fon; rw [hword]; exact rxPower_valid pwr
  · unfold State.fget; rw [hword]; exact rxPower_pwr pwr
  · rw [← hrt, ← hev, ht]
    exact State.rxDetect_of_detected (harm.trans ha) (hthr ▸ hge) e
  · rw [ht, State.rxDetect_of_below (harm.trans ha) (hthr ▸ hlt)]
    exact ⟨hrt, harm.trans ha⟩
  · rw [← hrt, ← hthr, ht]
    exact State.rxDetect_of_unarmed (harm.trans ha) e

/-! ### The statement -/

theorem State.reloading_rxCtl (s : State) (p : Fin 8) : s.reloading (A.RF_RXCTL p) = s.rfReload :=
  s.reloading_rf (by unfold A.RF_RXCTL; omega) (by unfold A.RF_RXCTL; omega)

/-- Settles O51: the enable is a write that may ask (`enableWrite_ends`; `rxAsk_asks` says what asking leaves), and the end of an
interval is one of three: stored, blanked or none. -/
theorem receivers : Obligations.Receivers := by
  unfold Obligations.Receivers
  refine ⟨fun s p who v r rise hv hr hrise => ?_, fun s p pwr n e x he hn hb hx hl => ?_, fun s p pwr n e he hn h => ?_,
    fun s p pwr h => ?_⟩
  · have hexec : exec (.rxEnable p who) s = .next (s.writeRxCtl p ⟨who, v, 0⟩) := by subst hv; rfl
    obtain ⟨hreload, hrefused, hask, hwait⟩ := State.enableWrite_ends (s.rxUnasked_requestGone p) (by simp)
      List.mem_cons_self (s.writeRxCtl_eq p who hr)
    rw [← s.reloading_rxCtl p, show rise = s.rxRises p r from hrise]
    refine ⟨_, hexec, hreload, hrefused, fun hl ha hk => ?_, hwait⟩
    obtain ⟨hfull, hroom⟩ := hask hl ha hk
    exact ⟨hfull, fun hq => s.rxAsk_asks p who r (hroom hq)⟩
  · exact ⟨_, rfl, State.rxInterval_stores he hn hb hx hl rfl⟩
  · exact congrArg Host.Outcome.next (State.rxInterval_of_blanked he hn h pwr)
  · exact congrArg Host.Outcome.next (State.rxInterval_of_none h pwr)

end Sys2Proof.Machine
end

section
/-! CERTIFICATE. O28: driver faults and PMU clamp entries of channels. -/

namespace Sys2Proof.Machine

/-! ### The driver fault (R83) -/

/-- A driver with a fault is high-impedance, and its load is off. -/
theorem State.setDrive_of_fault {s : State} {c : Nat} (h : s.fon (A.CH_STATUS c) F.CH_STATUS.DRV_FAULT = true) :
    s.setDrive c = s.updCh c (fun k => { k with drive := .hiz, load := false }) := by
  unfold State.setDrive
  simp [h]

/-- The flags of a driver fault, both set. -/
def State.faultFlagged (s : State) (c : Nat) : State :=
  (s.raiseF (A.CH_STATUS c) F.CH_STATUS.DRV_LIMIT).raiseF (A.CH_STATUS c) F.CH_STATUS.DRV_FAULT

theorem State.faultFlagged_fault (s : State) (c : Nat) :
    (s.faultFlagged c).fon (A.CH_STATUS c) F.CH_STATUS.DRV_FAULT = true :=
  State.fon_raiseF_same _ _ _ (by decide) (by decide)

theorem State.faultFlagged_limit (s : State) (c : Nat) :
    (s.faultFlagged c).fon (A.CH_STATUS c) F.CH_STATUS.DRV_LIMIT = true :=
  (State.fon_raiseF_ne _ _ _ _ _ (by decide)).trans (State.fon_raiseF_same _ _ _ (by decide) (by decide))

theorem State.faultFlagged_bits (s : State) (c : Nat) :
    RegBits [bitsOf (A.CH_STATUS c) [F.CH_STATUS.DRV_FAULT, F.CH_STATUS.DRV_LIMIT]] s (s.faultFlagged c) :=
  (RegBits.refl.raiseF List.mem_cons_self (by decide)).raiseF List.mem_cons_self (by decide)

/-- The channel with a driver fault: its flags, the driver high-impedance and the load off. -/
def State.faultTaken (s : State) (c : Nat) : State :=
  (s.faultFlagged c).updCh c (fun k => { k with drive := .hiz, load := false })

theorem State.faultTaken_ch (s : State) (c : Nat) :
    (s.faultTaken c).ch c = { s.ch c with drive := .hiz, load := false } := State.updCh_ch_same (s.faultFlagged c) c _

theorem State.faultTaken_ch_ne (s : State) {c k : Nat} (h : k ≠ c) : (s.faultTaken c).ch k = s.ch k :=
  State.updCh_ch_ne (s.faultFlagged c) c _ h

/-- The fault of a driver that has limited for 16 ticks. -/
theorem State.driverFault_of_limited {s : State} {c : Nat} (hf : s.funcEff c = fnPattern ∨ s.funcEff c = fnStatic)
    (hl : 16 ≤ (s.ch c).limTicks) (hd : s.fon (A.CH_STATUS c) F.CH_STATUS.DRV_FAULT = false) : s.driverFault c
      = (s.faultTaken c).eventBefore evChan c 8 := by
  have hcond : ((s.funcEff c != fnPattern && s.funcEff c != fnStatic) || s.fon (A.CH_STATUS c) F.CH_STATUS.DRV_FAULT
      || decide ((s.ch c).limTicks < 16)) = false := by
    rcases hf with hf | hf <;> simp [hf, hd, hl]
  unfold State.driverFault
  dsimp only
  rw [if_neg (by simp [hcond]), State.faultTaken, ← State.setDrive_of_fault (s.faultFlagged_fault c)]
  rfl

/-- A channel in no driving function, one that has limited for less, and one with a fault already. -/
theorem State.driverFault_of_not {s : State} {c : Nat} (h : s.funcEff c ≠ fnPattern ∧ s.funcEff c ≠ fnStatic
    ∨ (s.ch c).limTicks < 16 ∨ s.fon (A.CH_STATUS c) F.CH_STATUS.DRV_FAULT = true) : s.driverFault c = s := by
  refine if_pos ?_
  rcases h with ⟨h1, h2⟩ | h | h
  · simp [h1, h2]
  · simp [h]
  · simp [h]

/-! ### The clamp entry (R184, R201) -/

/-- A clamp takes hold of the output of a forcing PMU. -/
theorem execClampEntry_of_forcing {s : State} {c : Fin 768} (hp : (s.ch c).pmuOn = true)
    (hc : s.fon (A.CH_PMU_STATUS c) F.CH_PMU_STATUS.CLAMP = false) (i : Instant) : execClampEntry c i s
      = .next (((s.fset (A.CH_PMU_STATUS c) F.CH_PMU_STATUS.CLAMP 1).raiseF (A.CH_PMU_STATUS c)
        F.CH_PMU_STATUS.CLAMPED).event evPmu c 2 (s.stampOf i)) :=
  if_neg (by simp [hp, hc])

/-- A channel that does not force, or that a clamp holds. -/
theorem execClampEntry_of_not {s : State} {c : Fin 768}
    (h : (s.ch c).pmuOn = false ∨ s.fon (A.CH_PMU_STATUS c) F.CH_PMU_STATUS.CLAMP = true) (i : Instant) :
    execClampEntry c i s = .next s :=
  if_pos (by rcases h with h | h <;> simp [h])

/-! ### The statement -/

/-- Settles O28: `driverFault_of_limited` and `execClampEntry_of_forcing` say what the two commands do where they do anything. -/
theorem driversAndClamps : Obligations.DriversAndClamps := by
  unfold Obligations.DriversAndClamps
  refine ⟨fun s c hf hl hd => ?_, fun s c h => ?_, fun s c i hp hc => ?_, fun s c i h => execClampEntry_of_not h i⟩
  · refine ⟨_, congrArg Host.Outcome.next (State.driverFault_of_limited hf hl hd), s.faultFlagged_fault c, s.faultFlagged_limit c,
      s.faultTaken_ch c, fun k hk => s.faultTaken_ch_ne hk, ⟨_, rfl, rfl, rfl, rfl, rfl⟩,
      (s.faultFlagged_bits c).of_reg rfl⟩
  · exact congrArg Host.Outcome.next (State.driverFault_of_not h)
  · refine ⟨_, execClampEntry_of_forcing hp hc i, ?_, State.fon_raiseF_same _ _ _ (by decide) (by decide), rfl,
      (((RegBits.refl (s := s)).fset List.mem_cons_self (by decide)).raiseF List.mem_cons_self (by decide)).of_reg rfl⟩
    refine (State.fon_raiseF_ne _ _ _ F.CH_PMU_STATUS.CLAMPED F.CH_PMU_STATUS.CLAMP (by decide)).trans ?_
    exact State.fon_fbit_same s _ true _ (by decide) (by decide)

end Sys2Proof.Machine
end

section
/-! CERTIFICATE. O23: reads of first words latch the second word for the host that reads. -/

namespace Sys2Proof.Machine

/-! ### A host's latch (R430) -/

theorem State.latch_latched2_same (s : State) (h : Side) (a : Nat) (v : Word) : (s.latch h a v).latched2 h a = v := by
  cases h <;> exact Tab.get_set_same ..

/-- What one host latches, the other does not see. -/
theorem State.latch_latched2_other (s : State) {g h : Side} (hg : g ≠ h) (a b : Nat) (v : Word) :
    (s.latch h a v).latched2 g b = s.latched2 g b :=
  match g, h with
  | .a, .b | .b, .a => rfl
  | .a, .a | .b, .b => absurd rfl hg

/-- A latch changes nothing but the latched words. -/
theorem State.latch_same {p : Part} (hp : p ≠ .lat) (s : State) (h : Side) (a : Nat) (v : Word) : p.same s (s.latch h a v) :=
  have := p.kept; have := Part.kLat hp
  State.latch_keeps Keeps.refl

theorem State.latched2_of_lat {s t : State} (h : Part.lat.same s t) (g : Side) (a : Nat) : t.latched2 g a = s.latched2 g a := by
  obtain ⟨ha, hb⟩ := h
  cases g
  · exact congrArg (Tab.get resetWord · a) ha
  · exact congrArg (Tab.get resetWord · a) hb

/-! ### What a read of each word is (R57, R102, R114, R200) -/

theorem State.readWord_tickCountLo (s : State) (h : Side) (cyc : Nat) : s.readWord h cyc A.TICK_COUNT_LO = s.readCount h cyc := rfl

theorem State.readWord_edgeLo (s : State) (h : Side) (cyc : Nat) (c : Fin 768) :
    s.readWord h cyc (A.CH_EDGE_LO c) = s.popEdge c h := by
  have hp : placeOf (A.CH_EDGE_LO c) = .chanReg c 0xd := placeOf_chan c (by decide)
  unfold State.readWord isSecond
  rw [hp]
  rfl

theorem State.readWord_vigilTsLo (s : State) (h : Side) (cyc : Nat) (c : Fin 768) : s.readWord h cyc (A.CH_VIGIL_TS_LO c)
    = (s.latch h (A.CH_VIGIL_TS_HI c) (s.ch c).vTs1, s.rd (A.CH_VIGIL_TS_LO c)) := by
  have hp : placeOf (A.CH_VIGIL_TS_LO c) = .chanReg c 0x1d := placeOf_chan c (by decide)
  unfold State.readWord isSecond
  rw [hp]
  rfl

theorem State.readWord_pmuRes (s : State) (h : Side) (cyc : Nat) (c : Fin 768) :
    s.readWord h cyc (A.CH_PMU_RES c) = (s.readPmuRes c h, s.rd (A.CH_PMU_RES c)) := by
  have hp : placeOf (A.CH_PMU_RES c) = .chanReg c 0x27 := placeOf_chan c (by decide)
  unfold State.readWord isSecond
  rw [hp]
  rfl

theorem isSecond_chan (c : Fin 768) {o : Nat} (ho : o ∈ [0xe, 0x1e, 0x28]) : isSecond (A.CH_MODE c + o) = true := by
  have hb : o < 0x40 := by simp at ho; omega
  unfold isSecond
  rw [placeOf_chan c hb]
  simpa [or_assoc] using ho

/-- A read of a second word finds what the host has latched and changes nothing. -/
theorem State.readWord_of_isSecond {a : Nat} (ha : isSecond a = true) (s : State) (h : Side) (cyc : Nat) :
    s.readWord h cyc a = (s, s.latched2 h a) := if_pos ha

/-! ### The reads of the first words -/

/-- A read of `TICK_COUNT_LO` latches word 1 of the timestamp that it returns word 0 of (R57, R430). -/
theorem State.readCount_latches (s : State) (h : Side) (cyc : Nat) :
    (s.readCount h cyc).1.latched2 h A.TICK_COUNT_HI = (s.stamp (cycleFine cyc) false).word1
      ∧ (∀ g a, g ≠ h → (s.readCount h cyc).1.latched2 g a = s.latched2 g a) ∧ (s.readCount h cyc).1.reg = s.reg := by
  have marked {p : Part} (hp : p ≠ .sea) : p.same s (s.markLocal (s.stamp (cycleFine cyc) false).loc) :=
    have := p.kept; have := Part.kSea hp
    State.markLocal_keeps Keeps.refl
  refine ⟨State.latch_latched2_same .., fun g a hg => ?_, ?_⟩
  · exact (State.latch_latched2_other _ hg ..).trans (State.latched2_of_lat (marked (by decide)) g a)
  · exact (State.latch_same (p := .regs) (by decide) ..).1.trans (marked (p := .regs) (by decide)).1

/-- The read of an empty FIFO: word 0 zero, and word 1 invalid (R102). -/
theorem State.popEdge_nil {s : State} {c : Nat} (h : (s.ch c).edges = []) (g : Side) :
    s.popEdge c g = (s.latch g (A.CH_EDGE_HI c) 0x80000, 0) := by
  unfold State.popEdge; rw [h]

/-- The FIFO without its oldest entry, whose word 1 a host has latched. -/
def State.edgeTaken (s : State) (c : Nat) (g : Side) (e : Edge) (rest : List Edge) : State :=
  (s.latch g (A.CH_EDGE_HI c) e.st.word1).updCh c (fun k => { k with edges := rest })

theorem State.popEdge_cons {s : State} {c : Nat} {e : Edge} {rest : List Edge} (h : (s.ch c).edges = e :: rest) (g : Side) :
    s.popEdge c g = (((s.edgeTaken c g e rest).fset (A.CH_EDGE_STAT c) F.CH_EDGE_STAT.KIND e.kind).fset (A.CH_EDGE_STAT c)
      F.CH_EDGE_STAT.LEVEL rest.length, e.st.word0) := by
  unfold State.popEdge; rw [h]; rfl

/-- The read of `CH_EDGE_LO` takes the oldest entry off the FIFO (R102). -/
theorem State.popEdge_takes {s t : State} {c : Nat} {e : Edge} {rest : List Edge} (h : (s.ch c).edges = e :: rest)
    (hk : e.kind < 4) (hl : rest.length < 32) {g : Side} (ht : t = (s.popEdge c g).1) :
    (t.ch c).edges = rest ∧ t.latched2 g (A.CH_EDGE_HI c) = e.st.word1
      ∧ t.fget (A.CH_EDGE_STAT c) F.CH_EDGE_STAT.KIND = e.kind ∧ t.fget (A.CH_EDGE_STAT c) F.CH_EDGE_STAT.LEVEL = rest.length
      ∧ (∀ o a, o ≠ g → t.latched2 o a = s.latched2 o a)
      ∧ RegBits [bitsOf (A.CH_EDGE_STAT c) [F.CH_EDGE_STAT.KIND, F.CH_EDGE_STAT.LEVEL]] s t := by
  rw [State.popEdge_cons h] at ht
  have hbits : RegBits [bitsOf (A.CH_EDGE_STAT c) [F.CH_EDGE_STAT.KIND, F.CH_EDGE_STAT.LEVEL]] s (s.edgeTaken c g e rest) :=
    RegBits.refl.of_same (x := s) (State.latch_same (p := .regs) (by decide) ..)
  subst ht
  refine ⟨?_, State.latch_latched2_same s g _ _, ?_, State.fget_fset_same _ _ _ _ (by decide) hl,
    fun o a ho => State.latch_latched2_other s ho ..,
    (hbits.fset List.mem_cons_self (by decide)).fset List.mem_cons_self (by decide)⟩
  · simp [State.edgeTaken]
  · rw [State.fget_fset_ne _ _ _ _ _ _ (by decide)]
    exact State.fget_fset_same _ _ _ _ (by decide) hk

/-- The read of `CH_PMU_RES` latches the information word and clears NEW of it (R200). -/
theorem State.readPmuRes_latches (s : State) (c : Nat) (h : Side) :
    (s.readPmuRes c h).latched2 h (A.CH_PMU_RESINFO c) = (s.ch c).pmuInfo
      ∧ (∀ g a, g ≠ h → (s.readPmuRes c h).latched2 g a = s.latched2 g a)
      ∧ F.CH_PMU_RESINFO.NEW.on ((s.readPmuRes c h).ch c).pmuInfo = false ∧ (s.readPmuRes c h).reg = s.reg := by
  refine ⟨State.latch_latched2_same s h _ _, fun g a hg => State.latch_latched2_other s hg .., ?_,
    (State.latch_same (p := .regs) (by decide) ..).1⟩
  unfold State.readPmuRes
  rw [State.updCh_ch_same]
  exact Fld.on_put F.CH_PMU_RESINFO.NEW _ false (by decide) (by decide)

/-! ### The statement -/

/-- Settles O23: each read of a first word is one of the reads above, which latch for their host alone, and a read of a second
word is that of the host's latch (`readWord_of_isSecond`). -/
theorem readsLatchTheSecondWord : Obligations.ReadsLatchTheSecondWord := by
  unfold Obligations.ReadsLatchTheSecondWord
  refine ⟨fun s h cyc => ?_, fun s c h e rest he hk hl => ?_, fun s c h he => ?_, fun s c h => ?_, fun s h cyc a ha => ?_,
    fun s c h => ?_⟩
  · obtain ⟨hhi, hother, hreg⟩ := s.readCount_latches h cyc
    exact ⟨_, rfl, hhi, congrArg Prod.snd (s.readWord_tickCountLo h cyc), hother, hreg⟩
  · obtain ⟨hedges, hhi, hrest⟩ := State.popEdge_takes he hk hl (g := h) rfl
    exact ⟨_, rfl, hedges, hhi, by rw [State.readWord_edgeLo, State.popEdge_cons he], hrest⟩
  · have hx {p : Part} (hp : p ≠ .lat) := State.latch_same hp s h (A.CH_EDGE_HI c) 0x80000
    refine ⟨s.latch h (A.CH_EDGE_HI c) 0x80000, ?_, State.latch_latched2_same .., ?_,
      fun g a hg => State.latch_latched2_other s hg .., (hx (p := .regs) (by decide)).1, hx (p := .chan) (by decide)⟩
    · exact congrArg (fun p => Host.Outcome.next p.1) (State.popEdge_nil he h)
    · rw [State.readWord_edgeLo, State.popEdge_nil he]
  · obtain ⟨hinfo, hother, hnew, hreg⟩ := s.readPmuRes_latches c h
    exact ⟨_, rfl, hinfo, by rw [State.readWord_pmuRes], hother, hnew, hreg⟩
  · refine State.readWord_of_isSecond ?_ s h cyc
    rcases ha with rfl | ⟨c, rfl | rfl | rfl⟩
    · rfl
    · exact isSecond_chan c (o := 0xe) (by decide)
    · exact isSecond_chan c (o := 0x1e) (by decide)
    · exact isSecond_chan c (o := 0x28) (by decide)
  · have hx {p : Part} (hp : p ≠ .lat) := State.latch_same hp s h (A.CH_VIGIL_TS_HI c) (s.ch c).vTs1
    exact ⟨_, rfl, by rw [State.readWord_vigilTsLo], State.latch_latched2_same ..,
      fun g a hg => State.latch_latched2_other s hg .., (hx (p := .regs) (by decide)).1, hx (p := .chan) (by decide)⟩

end Sys2Proof.Machine
end

section
/-! CERTIFICATE. O30: the latches of a channel, the writes of 1 that clear them and the events that set them. -/

namespace Sys2Proof.Machine

/-! ### The addresses of a channel's latch and counts -/

theorem chLatch_ne_failAddr (c : Nat) : A.CH_LATCH c ≠ A.CH_FAIL_ADDR c := by unfold A.CH_LATCH A.CH_FAIL_ADDR; omega

theorem chLatch_ne_failCnt (c : Nat) : A.CH_LATCH c ≠ A.CH_FAILCNT c := by unfold A.CH_LATCH A.CH_FAILCNT; omega

theorem failCnt_ne_failAddr (c : Nat) : A.CH_FAILCNT c ≠ A.CH_FAIL_ADDR c := by unfold A.CH_FAILCNT A.CH_FAIL_ADDR; omega

theorem State.reloading_chLatch (s : State) (c : Fin 768) : s.reloading (A.CH_LATCH c) = (s.bk (bankOf c)).reload :=
  s.reloading_chan (placeOf_chan c (o := 8) (by decide))

/-! ### A write of 1 (R93, R94) -/

theorem State.writeLatch_of_reloading {s : State} {c : Nat} (h : s.reloading (A.CH_LATCH c) = true) (v : Word) :
    s.writeLatch c v = s.raiseF A.ALMANAC_STATUS F.ALMANAC_STATUS.WR_IGN := by
  unfold State.writeLatch
  exact State.gated_of_reloading h _

/-- LATCH_CLR holds the latch at 0: a write has nothing to clear. -/
theorem State.writeLatch_of_latchClr {s : State} {c : Nat} (h : s.reloading (A.CH_LATCH c) = false)
    (hc : s.eon (A.CH_MODE c) F.CH_MODE.LATCH_CLR = true) (v : Word) : s.writeLatch c v = s := by
  unfold State.writeLatch
  exact (State.gated_of_not_reloading h _).trans (if_pos hc)

/-- A write that is handled: the channel's record notes it, the bits clear, and with FAIL the address of the first fail. -/
theorem State.writeLatch_of_taken {s : State} {c : Nat} (h : s.reloading (A.CH_LATCH c) = false)
    (hc : s.eon (A.CH_MODE c) F.CH_MODE.LATCH_CLR = false) (v : Word) : ∃ x : State, Part.regs.same s x
      ∧ s.writeLatch c v = (x.w1c (A.CH_LATCH c) v).cond
        (s.fon (A.CH_LATCH c) F.CH_LATCH.FAIL && !(x.w1c (A.CH_LATCH c) v).fon (A.CH_LATCH c) F.CH_LATCH.FAIL)
        (fun s => s.wr (A.CH_FAIL_ADDR c) 0) := by
  unfold State.writeLatch
  exact ⟨s.updCh c _, ⟨rfl, rfl⟩, (State.gated_of_not_reloading h _).trans (if_neg (by simp [hc]))⟩

/-- What such a write leaves to read (R94, R96). -/
theorem State.writeLatch_clears {s t : State} {c : Nat} (h : s.reloading (A.CH_LATCH c) = false)
    (hc : s.eon (A.CH_MODE c) F.CH_MODE.LATCH_CLR = false) {v : Word} (ht : t = s.writeLatch c v) :
    t.rd (A.CH_LATCH c) = s.rd (A.CH_LATCH c) &&& ~~~(v &&& ~~~Tab.get (fun _ => 0) s.setBits (A.CH_LATCH c))
      ∧ (s.fon (A.CH_LATCH c) F.CH_LATCH.FAIL = true → t.fon (A.CH_LATCH c) F.CH_LATCH.FAIL = false → t.rd (A.CH_FAIL_ADDR c) = 0)
      ∧ (t.fon (A.CH_LATCH c) F.CH_LATCH.FAIL = s.fon (A.CH_LATCH c) F.CH_LATCH.FAIL →
        t.rd (A.CH_FAIL_ADDR c) = s.rd (A.CH_FAIL_ADDR c))
      ∧ RegBits [wholeReg (A.CH_LATCH c), wholeReg (A.CH_FAIL_ADDR c)] s t := by
  obtain ⟨x, hx, he⟩ := State.writeLatch_of_taken h hc v
  have hlatch : (x.w1c (A.CH_LATCH c) v).rd (A.CH_LATCH c)
      = s.rd (A.CH_LATCH c) &&& ~~~(v &&& ~~~Tab.get (fun _ => 0) s.setBits (A.CH_LATCH c)) := by
    rw [State.w1c_rd_same, State.rd_of_regs hx, hx.2]
  have haddr : (x.w1c (A.CH_LATCH c) v).rd (A.CH_FAIL_ADDR c) = s.rd (A.CH_FAIL_ADDR c) :=
    (State.w1c_rd_ne _ _ _ (chLatch_ne_failAddr c).symm).trans (State.rd_of_regs hx _)
  have hbits : RegBits [wholeReg (A.CH_LATCH c), wholeReg (A.CH_FAIL_ADDR c)] s (x.w1c (A.CH_LATCH c) v) :=
    RegBits.w1c (RegBits.refl.of_same hx) List.mem_cons_self (by simp)
  rw [he] at ht
  generalize x.w1c (A.CH_LATCH c) v = y at hlatch haddr hbits ht
  unfold State.cond at ht
  split at ht
  next hclear =>
    obtain ⟨hold, hnew⟩ : s.fon (A.CH_LATCH c) F.CH_LATCH.FAIL = true ∧ y.fon (A.CH_LATCH c) F.CH_LATCH.FAIL = false := by
      simpa using hclear
    have hrd : t.rd (A.CH_LATCH c) = y.rd (A.CH_LATCH c) := ht ▸ State.wr_rd_ne _ _ _ (chLatch_ne_failAddr c)
    have hfail : t.fon (A.CH_LATCH c) F.CH_LATCH.FAIL = false := (congrArg F.CH_LATCH.FAIL.on hrd).trans hnew
    refine ⟨hrd.trans hlatch, fun _ _ => ht ▸ State.wr_rd_same .., fun hk => ?_,
      ht ▸ hbits.wr (List.mem_cons_of_mem _ List.mem_cons_self)⟩
    rw [hfail, hold] at hk
    exact absurd hk Bool.false_ne_true
  next hkeep =>
    subst ht
    exact ⟨hlatch, fun hold hnew => absurd (by simp [hold, hnew]) hkeep, fun _ => haddr, hbits⟩

/-! ### The event of a latch bit (R93, R95, R96) -/

/-- Each latch bit is one bit of the register. -/
theorem latchOfKind_bounds {k : Nat} {f : Fld} (h : latchOfKind k = some f) : f.lo + f.width ≤ 36 ∧ 0 < f.width := by
  unfold latchOfKind at h
  split at h <;> cases h <;> decide

theorem latchOfKind_fail {k : Nat} {f : Fld} (h : latchOfKind k = some f) (hk : k = 0) : f = F.CH_LATCH.FAIL := by
  subst hk; cases h; rfl

/-- A fail counts (R95), and the bit of the kind sets. -/
def State.latchRaised (s : State) (e : Ev) (f : Fld) : State :=
  (s.cond (e.kind == 0) (fun s => s.inc (A.CH_FAILCNT e.idx) F.CH_FAILCNT.COUNT 1)).raiseF (A.CH_LATCH e.idx) f

/-- What `CH_FAIL_ADDR` takes where the bit was clear: the address of the fail, or what a write of the window found there. -/
def State.firstFail (s : State) (e : Ev) (f : Fld) : Word :=
  if (s.ch e.idx).latchWrAt == s.now && f.on (s.ch e.idx).latchWr then (s.ch e.idx).failOld
  else F.CH_FAIL_ADDR.VALID.put (F.CH_FAIL_ADDR.ADDR.put 0 e.info) 1

theorem State.counted_rd_ne (s : State) (e : Ev) {a : Nat} (ha : a ≠ A.CH_FAILCNT e.idx) :
    (s.cond (e.kind == 0) (fun s => s.inc (A.CH_FAILCNT e.idx) F.CH_FAILCNT.COUNT 1)).rd a = s.rd a := by
  unfold State.cond
  split
  · exact State.inc_rd_ne _ _ _ _ ha
  · rfl

theorem State.latchRaised_latch (s : State) (e : Ev) (f : Fld) :
    (s.latchRaised e f).rd (A.CH_LATCH e.idx) = s.rd (A.CH_LATCH e.idx) ||| f.mask := by
  unfold State.latchRaised
  rw [State.raiseF_rd_same, s.counted_rd_ne e (chLatch_ne_failCnt _)]

theorem State.latchRaised_failAddr (s : State) (e : Ev) (f : Fld) :
    (s.latchRaised e f).rd (A.CH_FAIL_ADDR e.idx) = s.rd (A.CH_FAIL_ADDR e.idx) := by
  unfold State.latchRaised
  rw [State.raiseF_rd_ne _ _ _ (chLatch_ne_failAddr _).symm, s.counted_rd_ne e (failCnt_ne_failAddr _).symm]

theorem State.latchRaised_count (s : State) {e : Ev} (hk : e.kind = 0) (f : Fld) :
    (s.latchRaised e f).fget (A.CH_FAILCNT e.idx) F.CH_FAILCNT.COUNT
      = min (s.fget (A.CH_FAILCNT e.idx) F.CH_FAILCNT.COUNT + 1) F.CH_FAILCNT.COUNT.max := by
  have hlt : satAdd F.CH_FAILCNT.COUNT (s.fget (A.CH_FAILCNT e.idx) F.CH_FAILCNT.COUNT) 1 < 2 ^ 32 :=
    Nat.lt_of_le_of_lt (Nat.min_le_right _ _) (by decide)
  unfold State.latchRaised State.cond
  rw [if_pos (by simp [hk])]
  unfold State.fget
  rw [State.raiseF_rd_ne _ _ _ (chLatch_ne_failCnt _).symm]
  exact State.fget_fset_same s _ _ F.CH_FAILCNT.COUNT (by decide) hlt

/-- The bit is marked as set in the window. -/
theorem State.latchRaised_setBits (s : State) (e : Ev) (f : Fld) :
    ∃ m, Tab.get (fun _ => 0) (s.latchRaised e f).setBits (A.CH_LATCH e.idx) = m ||| f.mask := ⟨_, Tab.get_set_same ..⟩

/-- An event whose bit is set already changes no more. -/
theorem State.latchEvent_of_set {s : State} {e : Ev} {f : Fld} (hf : latchOfKind e.kind = some f)
    (h : s.fon (A.CH_LATCH e.idx) f = true) : s.latchEvent e = s.latchRaised e f := by
  have hfon : (s.cond (e.kind == 0) (fun s => s.inc (A.CH_FAILCNT e.idx) F.CH_FAILCNT.COUNT 1)).fon (A.CH_LATCH e.idx) f = true :=
    (congrArg f.on (s.counted_rd_ne e (chLatch_ne_failCnt _))).trans h
  unfold State.latchEvent
  rw [hf]
  exact if_pos hfon

/-- An event that sets its bit: the first fail leaves its address; the latch-set event touches no register. -/
theorem State.latchEvent_of_clear {s : State} {e : Ev} {f : Fld} (hf : latchOfKind e.kind = some f)
    (h : s.fon (A.CH_LATCH e.idx) f = false) : Part.regs.same ((s.latchRaised e f).cond (e.kind == 0)
      (fun t => t.wr (A.CH_FAIL_ADDR e.idx) (s.firstFail e f))) (s.latchEvent e) := by
  have hfon : (s.cond (e.kind == 0) (fun s => s.inc (A.CH_FAILCNT e.idx) F.CH_FAILCNT.COUNT 1)).fon (A.CH_LATCH e.idx) f = false :=
    (congrArg f.on (s.counted_rd_ne e (chLatch_ne_failCnt _))).trans h
  have := Part.kept .regs; have := Part.kRt (p := .regs) (by decide)
  unfold State.latchEvent
  rw [hf]
  dsimp only
  rw [if_neg (by simp [hfon])]
  refine State.cond_keeps ?_ fun t => State.eventT_keeps Keeps.refl
  unfold State.latchRaised State.cond
  split
  all_goals exact ⟨rfl, rfl⟩

/-- Every register but `CH_FAIL_ADDR` reads as after the count and the bit, and so do the marks of the window. -/
theorem State.latchEvent_regs {s : State} {e : Ev} {f : Fld} (hf : latchOfKind e.kind = some f) :
    (∀ a, a ≠ A.CH_FAIL_ADDR e.idx → (s.latchEvent e).rd a = (s.latchRaised e f).rd a)
      ∧ (s.latchEvent e).setBits = (s.latchRaised e f).setBits := by
  cases h : s.fon (A.CH_LATCH e.idx) f
  case true => rw [State.latchEvent_of_set hf h]; exact ⟨fun _ _ => rfl, rfl⟩
  case false =>
    have hregs := State.latchEvent_of_clear hf h
    unfold State.cond at hregs
    split at hregs
    · exact ⟨fun a ha => (State.rd_of_regs hregs a).trans (State.wr_rd_ne _ _ _ ha), hregs.2⟩
    · exact ⟨fun a _ => State.rd_of_regs hregs a, hregs.2⟩

/-- The address of the first fail stays while FAIL is set, and under other events (R96). -/
theorem State.latchEvent_keeps_failAddr {s : State} {e : Ev} {f : Fld} (hf : latchOfKind e.kind = some f)
    (h : e.kind ≠ 0 ∨ s.fon (A.CH_LATCH e.idx) F.CH_LATCH.FAIL = true) :
    (s.latchEvent e).rd (A.CH_FAIL_ADDR e.idx) = s.rd (A.CH_FAIL_ADDR e.idx) := by
  refine Eq.trans ?_ (s.latchRaised_failAddr e f)
  cases hset : s.fon (A.CH_LATCH e.idx) f
  case true => rw [State.latchEvent_of_set hf hset]
  case false =>
    have hk : e.kind ≠ 0 := h.elim id fun h hk => by
      rw [latchOfKind_fail hf hk] at hset
      exact Bool.false_ne_true (hset.symm.trans h)
    have hregs := State.latchEvent_of_clear hf hset
    rw [State.cond, if_neg (by simpa using hk)] at hregs
    exact State.rd_of_regs hregs _

/-- The first fail leaves its address, where no write of the window is noted (R96). -/
theorem State.latchEvent_failAddr {s : State} {e : Ev} {f : Fld} (hf : latchOfKind e.kind = some f) (hk : e.kind = 0)
    (h : s.fon (A.CH_LATCH e.idx) F.CH_LATCH.FAIL = false) (hw : (s.ch e.idx).latchWrAt ≠ s.now) :
    (s.latchEvent e).rd (A.CH_FAIL_ADDR e.idx) = F.CH_FAIL_ADDR.VALID.put (F.CH_FAIL_ADDR.ADDR.put 0 e.info) 1 := by
  have hregs := State.latchEvent_of_clear hf (s := s) (by rw [latchOfKind_fail hf hk]; exact h)
  rw [State.cond, if_pos (by simp [hk])] at hregs
  rw [State.rd_of_regs hregs, State.wr_rd_same]
  exact if_neg (by simp [hw])

/-- The event sets its bit, and marks it as set in the window. -/
theorem State.latchEvent_sets {s : State} {e : Ev} {f : Fld} (hf : latchOfKind e.kind = some f) :
    (s.latchEvent e).fon (A.CH_LATCH e.idx) f = true
      ∧ ∃ m, Tab.get (fun _ => 0) (s.latchEvent e).setBits (A.CH_LATCH e.idx) = m ||| f.mask := by
  obtain ⟨hrd, hset⟩ := State.latchEvent_regs (s := s) hf
  obtain ⟨hlo, hw⟩ := latchOfKind_bounds hf
  refine ⟨?_, hset ▸ s.latchRaised_setBits e f⟩
  unfold State.fon
  rw [hrd _ (chLatch_ne_failAddr _), s.latchRaised_latch]
  exact Fld.on_or_mask f _ hlo hw

/-! ### A write of 1 behind an event (R94) -/

/-- A clear of written bits spares those that are marked. -/
theorem Fld.on_clear_marked (f : Fld) (x v m : Word) : f.on (x &&& ~~~(v &&& ~~~(m ||| f.mask))) = f.on x := by
  unfold Fld.on
  congr 1
  apply Nat.eq_of_testBit_eq; intro i
  rw [Fld.testBit_get, Fld.testBit_get]
  by_cases hi : i < f.width ∧ f.lo + i < 36
  · obtain ⟨hw, h36⟩ := hi
    have hm : f.mask.getLsbD (f.lo + i) = true := by rw [Fld.getLsbD_mask]; simp [hw, h36]
    simp only [BitVec.getLsbD_and, BitVec.getLsbD_not, BitVec.getLsbD_or, hm]
    simp [h36]
  · rcases Nat.lt_or_ge i f.width with hw | hw
    · have h36 : 36 ≤ f.lo + i := by omega
      simp [BitVec.getLsbD_of_ge _ _ h36]
    · simp [Nat.not_lt.mpr hw]

/-- A bit that an event has set in the window outlasts a write of 1. -/
theorem State.writeLatch_keeps_marked {s : State} {c : Nat} {f : Fld} (hset : s.fon (A.CH_LATCH c) f = true)
    (hm : ∃ m, Tab.get (fun _ => 0) s.setBits (A.CH_LATCH c) = m ||| f.mask) (ha : A.CH_LATCH c ≠ A.ALMANAC_STATUS) (v : Word) :
    (s.writeLatch c v).fon (A.CH_LATCH c) f = true := by
  obtain ⟨m, hm⟩ := hm
  cases hl : s.reloading (A.CH_LATCH c)
  case true =>
    rw [State.writeLatch_of_reloading hl]
    exact (congrArg f.on (State.raiseF_rd_ne _ _ _ ha)).trans hset
  case false =>
    cases hc : s.eon (A.CH_MODE c) F.CH_MODE.LATCH_CLR
    case true => rw [State.writeLatch_of_latchClr hl hc]; exact hset
    case false =>
      obtain ⟨hrd, -⟩ := State.writeLatch_clears hl hc (v := v) rfl
      unfold State.fon
      rw [hrd, hm, Fld.on_clear_marked]
      exact hset

/-! ### The statement -/

/-- Settles O30: `writeLatch_clears` says what a write leaves, `latchEvent_sets` and the lemmas on `CH_FAIL_ADDR` and
`CH_FAILCNT` what an event leaves, and `writeLatch_keeps_marked` that the bit outlasts a write behind it. -/
theorem channelLatches : Obligations.ChannelLatches := by
  unfold Obligations.ChannelLatches
  refine ⟨fun s c v hl hc => ?_, fun s c v hl hc => ?_, fun s c v hl => ?_, fun s e f _ hf => ?_⟩
  · exact ⟨_, rfl, State.writeLatch_clears ((s.reloading_chLatch c).trans hl) hc rfl⟩
  · exact congrArg Host.Outcome.next (State.writeLatch_of_latchClr ((s.reloading_chLatch c).trans hl) hc v)
  · refine ⟨_, rfl, ?_⟩
    rw [State.writeLatch_of_reloading ((s.reloading_chLatch c).trans hl)]
    exact s.raiseF_writeIgnored
  · obtain ⟨hset, hmark⟩ := State.latchEvent_sets (s := s) hf
    refine ⟨hset, fun c v hc => ⟨_, rfl, ?_⟩, fun hk => ?_, State.latchEvent_keeps_failAddr hf, State.latchEvent_failAddr hf⟩
    · rw [← hc] at hset hmark
      exact State.writeLatch_keeps_marked hset hmark (by unfold A.CH_LATCH A.ALMANAC_STATUS; omega) v
    · have hrd := (State.latchEvent_regs (s := s) hf).1 _ (failCnt_ne_failAddr e.idx)
      exact (congrArg F.CH_FAILCNT.COUNT.get hrd).trans (s.latchRaised_count hk f)

end Sys2Proof.Machine
end

section
/-! SUPPORT. The path of a comparator to its consumers: what a crossing and an edge of the filter read of the state, and what edge
capture, the trigger lanes and the shown outputs leave. -/

namespace Sys2Proof.Machine

/-! ### What the path reads (R57, R92, R98, R101) -/

/-- As the path of channel `c` to its consumers sees it, the state is as it was: the tick, the values in force, and whether the
comparator is powered, is starting or is under test. -/
structure PathAlike (c : Nat) (s u : State) : Prop where
  clk : u.clk = s.clk
  frc : u.frc = s.frc
  active : (u.ch c).active = (s.ch c).active
  start : u.fon (A.CH_STATUS c) F.CH_STATUS.INBAND_START = s.fon (A.CH_STATUS c) F.CH_STATUS.INBAND_START
  test : u.fon (A.CH_STATUS c) F.CH_STATUS.TEST = s.fon (A.CH_STATUS c) F.CH_STATUS.TEST
  tick : u.rd A.TICK_STATUS = s.rd A.TICK_STATUS

namespace PathAlike

variable {c : Nat} {s t u : State}

theorem refl : PathAlike c s s := ⟨rfl, rfl, rfl, rfl, rfl, rfl⟩

theorem trans (h : PathAlike c s t) (k : PathAlike c t u) : PathAlike c s u :=
  ⟨k.clk.trans h.clk, k.frc.trans h.frc, k.active.trans h.active, k.start.trans h.start, k.test.trans h.test, k.tick.trans h.tick⟩

/-- A change of registers that names neither the status of the channel nor that of the tick. -/
theorem of_bits {l : List (Nat × Word)} (hb : RegBits l s u) (hs : A.CH_STATUS c ∉ l.map (·.1)) (ht : A.TICK_STATUS ∉ l.map (·.1))
    (hc : u.clk = s.clk) (hf : u.frc = s.frc) (ha : (u.ch c).active = (s.ch c).active) : PathAlike c s u :=
  ⟨hc, hf, ha, congrArg F.CH_STATUS.INBAND_START.on (hb.rd hs), congrArg F.CH_STATUS.TEST.on (hb.rd hs), hb.rd ht⟩

theorem eff (h : PathAlike c s u) (a : Nat) : u.eff a = s.eff a := congrArg (Tab.get resetWord · a) h.frc

theorem live (h : PathAlike c s u) : u.live c = s.live c := by
  unfold State.live
  rw [h.active, h.start, h.test, h.eff]

theorem captures (h : PathAlike c s u) (src kind : Nat) : u.captures c src kind = s.captures c src kind := by
  unfold State.captures
  rw [h.eff]

theorem evAt (h : PathAlike c s u) (cls idx kind : Nat) (p : Nat × Bool) :
    Machine.evAt u cls idx kind p = Machine.evAt s cls idx kind p := evAt_congr h.clk h.tick cls idx kind p

theorem stampAt (h : PathAlike c s u) (t : Nat) (interp : Bool) : u.stampAt t interp = s.stampAt t interp :=
  congrArg Ev.st (h.evAt 0 0 0 (t, interp))

end PathAlike

/-! ### Edge capture (R14, R101) -/

/-- The bits of registers that edge capture of channel `c` may change. -/
def edgeBits (c : Nat) : List (Nat × Word) :=
  [bitsOf A.DIE_LINK_STATUS [F.DIE_LINK_STATUS.UP_OVF],
    bitsOf (A.CH_EDGE_STAT c) [F.CH_EDGE_STAT.MISSED, F.CH_EDGE_STAT.OVF, F.CH_EDGE_STAT.LEVEL]]

theorem chStatus_not_mem_edgeBits (c : Nat) : A.CH_STATUS c ∉ (edgeBits c).map (·.1) := by
  unfold edgeBits A.CH_STATUS A.CH_EDGE_STAT A.DIE_LINK_STATUS
  simp

theorem tickStatus_not_mem_edgeBits (c : Nat) : A.TICK_STATUS ∉ (edgeBits c).map (·.1) := by
  unfold edgeBits A.TICK_STATUS A.CH_EDGE_STAT A.DIE_LINK_STATUS
  simp
  omega

/-- The up-link overflow bit of a pin die lies in its field. -/
theorem upOvf_bit_outside {d : Nat} (hd : d < 7) :
    (F.DIE_LINK_STATUS.UP_OVF.bit d).mask &&& ~~~(bitsOf A.DIE_LINK_STATUS [F.DIE_LINK_STATUS.UP_OVF]).2 = 0 := by
  have hall : ∀ d : Fin 7,
      (F.DIE_LINK_STATUS.UP_OVF.bit d).mask &&& ~~~(bitsOf A.DIE_LINK_STATUS [F.DIE_LINK_STATUS.UP_OVF]).2 = 0 := by decide
  exact hall ⟨d, hd⟩

theorem State.missed_bits (s : State) (c : Nat) :
    RegBits (edgeBits c) s (s.inc (A.CH_EDGE_STAT c) F.CH_EDGE_STAT.MISSED 1) :=
  RegBits.refl.inc (List.mem_cons_of_mem _ List.mem_cons_self) (by decide)

/-- Marking a season touches no register and no channel. -/
theorem State.markLocal_same {p : Part} (hp : p ≠ .sea) (s : State) (loc : Bool) : p.same s (s.markLocal loc) :=
  have := p.kept; have := Part.kSea hp
  State.markLocal_keeps Keeps.refl

theorem State.markLocal_ch (s : State) (loc : Bool) (c : Nat) : (s.markLocal loc).ch c = s.ch c :=
  congrArg (Tab.get (fun _ => ({} : Chan)) · c) (State.markLocal_same (p := .chan) (by decide) s loc)

theorem State.edgePush_bits {c : Nat} (hc : c < 768) (s : State) (kind : Nat) (st : Stamp) (discarded : Bool) :
    RegBits (edgeBits c) s (s.edgePush c kind st discarded) := by
  have hx : RegBits (edgeBits c) s (s.markLocal st.loc) := RegBits.refl.of_same (State.markLocal_same (by decide) s st.loc)
  have hm : bitsOf (A.CH_EDGE_STAT c) [F.CH_EDGE_STAT.MISSED, F.CH_EDGE_STAT.OVF, F.CH_EDGE_STAT.LEVEL] ∈ edgeBits c :=
    List.mem_cons_of_mem _ List.mem_cons_self
  have hd : dieOf c < 7 := by unfold dieOf; omega
  unfold State.edgePush
  dsimp only
  split
  · exact (hx.trans (State.missed_bits _ c)).raiseF List.mem_cons_self (upOvf_bit_outside hd)
  · split
    · exact hx.raiseF hm (by decide)
    · exact (hx.of_reg rfl).fset hm (by decide)

/-- Of the channel, edge capture changes the FIFO alone. -/
theorem State.edgePush_ch (s : State) (c kind : Nat) (st : Stamp) (discarded : Bool) :
    ∃ es, (s.edgePush c kind st discarded).ch c = { s.ch c with edges := es } := by
  rw [← s.markLocal_ch st.loc c]
  unfold State.edgePush
  dsimp only
  split
  · exact ⟨_, rfl⟩
  · split
    · exact ⟨_, rfl⟩
    · exact ⟨_, (State.fset_ch ..).trans (State.updCh_ch_same ..)⟩

/-- An edge that the up-link carries joins the FIFO where there is room. -/
theorem State.edgePush_edges {s : State} {c : Nat} (h : (s.ch c).edges.length < Config.edgeDepth) (kind : Nat) (st : Stamp) :
    ((s.edgePush c kind st false).ch c).edges = (s.ch c).edges ++ [⟨kind, st⟩] := by
  rw [← s.markLocal_ch st.loc c] at h ⊢
  unfold State.edgePush
  dsimp only
  rw [if_neg Bool.false_ne_true, if_neg (Nat.not_le_of_gt h)]
  rw [State.fset_ch, State.updCh_ch_same]

theorem State.edgePush_same {p : Part} (h1 : p ≠ .regs) (h2 : p ≠ .chan) (h3 : p ≠ .sea) (s : State) (c kind : Nat) (st : Stamp)
    (discarded : Bool) : p.same s (s.edgePush c kind st discarded) :=
  have := p.kept; have := Part.kRegs h1; have := Part.kChan h2; have := Part.kSea h3
  State.edgePush_keeps Keeps.refl

theorem State.edgePush_path {c : Nat} (hc : c < 768) (s : State) (kind : Nat) (st : Stamp) (discarded : Bool) :
    PathAlike c s (s.edgePush c kind st discarded) := by
  obtain ⟨es, hch⟩ := s.edgePush_ch c kind st discarded
  exact .of_bits (State.edgePush_bits hc s kind st discarded) (chStatus_not_mem_edgeBits c) (tickStatus_not_mem_edgeBits c)
    (State.edgePush_same (p := .clk) (by decide) (by decide) (by decide) ..)
    (State.edgePush_same (p := .frc) (by decide) (by decide) (by decide) ..) (by rw [hch])

/-! ### The trigger lanes (R276) -/

theorem RegBits.kept (l : List (Nat × Word)) : Kept (RegBits l) := ⟨fun _ => .refl, fun _ _ _ => .trans⟩

/-- Steps over 0 to `n − 1` change what each of them may. -/
theorem RegBits.upTo {l : List (Nat × Word)} {n : Nat} {f : State → Nat → State} (s : State)
    (h : ∀ t k, k < n → RegBits l t (f t k)) : RegBits l s (s.upTo n f) := by
  have hall : ∀ (ks : List Nat) (s : State), (∀ k ∈ ks, k < n) → RegBits l s (ks.foldl f s) := by
    intro ks
    induction ks with
    | nil => exact fun _ _ => .refl
    | cons k ks ih =>
      exact fun s hk => (h s k (hk k List.mem_cons_self)).trans (ih _ fun j hj => hk j (List.mem_cons_of_mem _ hj))
  exact hall _ s fun k hk => List.mem_range.mp hk

theorem State.laneEdge_same {p : Part} (hp : p ≠ .ae) (s : State) (n : Nat) (on : Bool) (t : Nat) (interp : Bool) :
    p.same s (s.laneEdge n on t interp) :=
  have := p.kept; have := Part.kAe hp
  State.laneEdge_keeps Keeps.refl

/-- The lanes follow their sources: the LEVEL bits are all that changes of the registers. -/
theorem State.lanesAt_bits (s : State) (rise fall : Nat × Bool) : RegBits laneLevels s (s.lanesAt rise fall) := by
  refine RegBits.upTo s fun t n hn => ?_
  have hm : bitsOf (A.LANE_CTL n) [F.LANE_CTL.LEVEL] ∈ laneLevels := List.mem_map_of_mem (List.mem_range.mpr hn)
  dsimp only
  split
  · exact .refl
  · exact (RegBits.refl.fbit hm (by decide)).of_same (State.laneEdge_same (by decide) ..)

theorem State.lanesAt_same {p : Part} (h1 : p ≠ .regs) (h2 : p ≠ .ae) (s : State) (rise fall : Nat × Bool) :
    p.same s (s.lanesAt rise fall) :=
  have := p.kept; have := Part.kRegs h1; have := Part.kAe h2
  State.lanesAt_keeps Keeps.refl

theorem not_mem_laneLevels {a : Nat} (h : a < 0x20120) : a ∉ laneLevels.map (·.1) := by
  unfold laneLevels A.LANE_CTL
  simp
  omega

theorem State.lanesAt_rd {a : Nat} (h : a < 0x20120) (s : State) (rise fall : Nat × Bool) : (s.lanesAt rise fall).rd a = s.rd a :=
  (s.lanesAt_bits rise fall).rd (not_mem_laneLevels h)

theorem State.lanesAt_ch (s : State) (rise fall : Nat × Bool) (c : Nat) : (s.lanesAt rise fall).ch c = s.ch c :=
  congrArg (Tab.get (fun _ => ({} : Chan)) · c) (State.lanesAt_same (p := .chan) (by decide) (by decide) s rise fall)

theorem State.lanesAt_path {c : Nat} (hc : c < 768) (s : State) (rise fall : Nat × Bool) :
    PathAlike c s (s.lanesAt rise fall) :=
  .of_bits (s.lanesAt_bits rise fall) (not_mem_laneLevels (by unfold A.CH_STATUS; omega)) (not_mem_laneLevels (by decide))
    (State.lanesAt_same (p := .clk) (by decide) (by decide) ..) (State.lanesAt_same (p := .frc) (by decide) (by decide) ..)
    (congrArg Chan.active (s.lanesAt_ch rise fall c))

end Sys2Proof.Machine
end

section
/-! SUPPORT. Raw crossings of a comparator (R90, R98, R101): missed in re-arm, else time-stamped and queued where edge capture takes
them. -/

namespace Sys2Proof.Machine

variable {s v x : State} {c t : Nat} {upper rise discarded : Bool}

/-! ### Re-arm (R90) -/

/-- The last crossing that the converter of H or of L time-stamped. -/
def Chan.lastStamp (h : Chan) (upper : Bool) : Option Nat := if upper then h.stampedH else h.stampedL

theorem State.rearming_congr (h : (v.ch c).lastStamp upper = (s.ch c).lastStamp upper) (t : Nat) :
    v.rearming c t upper = s.rearming c t upper := by
  unfold State.rearming
  unfold Chan.lastStamp at h
  rw [h]

/-! ### One crossing -/

/-- A crossing in re-arm is missed, where the path reaches its consumers (R90). -/
theorem State.crossing_of_rearming (h : s.rearming c t upper = true) (rise discarded : Bool) :
    s.crossing c t upper rise discarded
      = s.cond (s.live c) (fun s => s.inc (A.CH_EDGE_STAT c) F.CH_EDGE_STAT.MISSED 1) := if_pos h

/-- The record of a crossing that is time-stamped (R90). -/
def Chan.stamped (h : Chan) (t : Nat) (upper rise : Bool) : Chan :=
  { h with
    stampedH := if upper then some t else h.stampedH
    stampedL := if upper then h.stampedL else some t
    cross := (t, edgeKind upper rise) :: h.cross.filter (fun p => decide (t < p.1 + windowFine)) }

/-- The channel that has it. -/
def State.crossStamped (s : State) (c t : Nat) (upper rise : Bool) : State := s.updCh c (fun h => h.stamped t upper rise)

theorem State.crossStamped_ch (s : State) (c t : Nat) (upper rise : Bool) :
    (s.crossStamped c t upper rise).ch c = (s.ch c).stamped t upper rise := State.updCh_ch_same ..

theorem State.crossStamped_edges (s : State) (c t : Nat) (upper rise : Bool) :
    ((s.crossStamped c t upper rise).ch c).edges = (s.ch c).edges := by rw [s.crossStamped_ch]; rfl

theorem State.crossStamped_path (s : State) (c t : Nat) (upper rise : Bool) : PathAlike c s (s.crossStamped c t upper rise) :=
  ⟨rfl, rfl, by rw [s.crossStamped_ch]; rfl, rfl, rfl, rfl⟩

/-- Any other crossing is time-stamped, and taken by edge capture where it takes raw edges of the kind (R101). -/
theorem State.crossing_of_not_rearming (h : s.rearming c t upper = false) (rise discarded : Bool) :
    s.crossing c t upper rise discarded
      = (s.crossStamped c t upper rise).cond (s.live c && s.captures c 1 (edgeKind upper rise))
          (fun x => x.edgePush c (edgeKind upper rise) (s.stampAt t true) discarded) := by
  have hp := s.crossStamped_path c t upper rise
  rw [← hp.live, ← hp.captures, ← hp.stampAt]
  exact if_neg (by simp [h])

/-- The channel after a crossing, but for its FIFO. -/
def State.crossed (s : State) (c t : Nat) (upper rise : Bool) : Chan :=
  if s.rearming c t upper then s.ch c else (s.ch c).stamped t upper rise

/-- Beyond the record of the crossing, the FIFO alone may change of the channel. -/
theorem State.crossing_ch (s : State) (c t : Nat) (upper rise discarded : Bool) :
    ∃ es, (s.crossing c t upper rise discarded).ch c = { s.crossed c t upper rise with edges := es } := by
  unfold State.crossed
  cases h : s.rearming c t upper
  case true =>
    rw [State.crossing_of_rearming h, if_pos rfl]
    unfold State.cond
    split
    all_goals exact ⟨_, rfl⟩
  case false =>
    rw [State.crossing_of_not_rearming h, if_neg Bool.false_ne_true, ← s.crossStamped_ch]
    unfold State.cond
    split
    · exact State.edgePush_ch ..
    · exact ⟨_, rfl⟩

/-- The outputs of the comparator, the level at its pin and its power are as they were. -/
structure RawAlike (c : Nat) (s x : State) : Prop where
  rawH : (x.ch c).rawH = (s.ch c).rawH
  rawL : (x.ch c).rawL = (s.ch c).rawL
  level : (x.ch c).level = (s.ch c).level
  active : (x.ch c).active = (s.ch c).active

theorem RawAlike.kept (c : Nat) : Kept (RawAlike c) where
  refl _ := ⟨rfl, rfl, rfl, rfl⟩
  trans _ _ _ h k := ⟨k.rawH.trans h.rawH, k.rawL.trans h.rawL, k.level.trans h.level, k.active.trans h.active⟩

theorem State.crossing_raw (s : State) (c t : Nat) (upper rise discarded : Bool) :
    RawAlike c s (s.crossing c t upper rise discarded) := by
  obtain ⟨es, hch⟩ := s.crossing_ch c t upper rise discarded
  constructor
  all_goals
    rw [hch, State.crossed]
    split <;> rfl

theorem State.crossing_bits (hc : c < 768) (s : State) (t : Nat) (upper rise discarded : Bool) :
    RegBits (edgeBits c) s (s.crossing c t upper rise discarded) := by
  cases h : s.rearming c t upper
  case true =>
    rw [State.crossing_of_rearming h]
    exact .cond .refl (s.missed_bits c)
  case false =>
    rw [State.crossing_of_not_rearming h]
    exact .cond (RegBits.refl.of_reg rfl) (State.edgePush_bits hc _ _ _ _)

theorem State.crossing_path (hc : c < 768) (s : State) (t : Nat) (upper rise discarded : Bool) :
    PathAlike c s (s.crossing c t upper rise discarded) := by
  have same {p : Part} (h1 : p ≠ .regs) (h2 : p ≠ .chan) (h3 : p ≠ .sea) : p.same s (s.crossing c t upper rise discarded) :=
    have := p.kept; have := Part.kRegs h1; have := Part.kChan h2; have := Part.kSea h3
    State.crossing_keeps Keeps.refl
  exact .of_bits (State.crossing_bits hc s t upper rise discarded) (chStatus_not_mem_edgeBits c) (tickStatus_not_mem_edgeBits c)
    (same (p := .clk) (by decide) (by decide) (by decide)) (same (p := .frc) (by decide) (by decide) (by decide))
    (s.crossing_raw c t upper rise discarded).active

/-- The other converter re-arms as before. -/
theorem State.crossing_rearming_other (s : State) (c t : Nat) (upper rise discarded : Bool) :
    (s.crossing c t upper rise discarded).rearming c t (!upper) = s.rearming c t (!upper) := by
  obtain ⟨es, hch⟩ := s.crossing_ch c t upper rise discarded
  refine State.rearming_congr ((congrArg (Chan.lastStamp · (!upper)) hch).trans ?_) t
  cases h : s.rearming c t upper
  · rw [State.crossed, h]
    cases upper <;> rfl
  · rw [State.crossed, h]
    rfl

/-- A crossing that is time-stamped starts the re-arm of its converter. -/
theorem State.crossing_stamped (h : s.rearming c t upper = false) (rise discarded : Bool) :
    ((s.crossing c t upper rise discarded).ch c).lastStamp upper = some t := by
  obtain ⟨es, hch⟩ := s.crossing_ch c t upper rise discarded
  rw [hch, State.crossed, h]
  cases upper <;> rfl

/-- What a crossing leaves of the channel's edges. -/
theorem State.crossing_taken (s : State) (c t : Nat) (upper rise discarded : Bool) :
    CrossingTaken s c t upper rise discarded (s.crossing c t upper rise discarded) := by
  cases h : s.rearming c t upper
  case true =>
    have hne : s.rearming c t upper ≠ false := by simp [h]
    have hlt : satAdd F.CH_EDGE_STAT.MISSED (s.fget (A.CH_EDGE_STAT c) F.CH_EDGE_STAT.MISSED) 1 < 2 ^ 8 :=
      Nat.lt_of_le_of_lt (Nat.min_le_right _ _) (by decide)
    rw [State.crossing_of_rearming h]
    refine ⟨fun hl => ?_, fun hl _ => ?_, fun h' => absurd h' hne, fun _ h' => absurd h' hne, fun _ h' => absurd h' hne⟩
    · rw [hl]
      exact ⟨rfl, rfl⟩
    · rw [hl]
      exact ⟨rfl, State.fget_fset_same s _ _ F.CH_EDGE_STAT.MISSED (by decide) hlt⟩
  case false =>
    have he := s.crossStamped_edges c t upper rise
    refine ⟨fun hl => ?_, fun _ h' => absurd h' (by simp [h]), fun _ => State.crossing_stamped h _ _, fun hl _ hk hd hroom => ?_,
      fun hl _ hk => ?_⟩
    all_goals rw [State.crossing_of_not_rearming h, hl]
    · exact ⟨he, rfl⟩
    · rw [hk, hd]
      exact (State.edgePush_edges (he ▸ hroom) _ _).trans (by rw [he])
    · rw [hk]
      exact he

/-! ### Two crossings of one instant -/

/-- Both outputs cross, each is time-stamped and taken: two entries, in the order of the crossings. -/
theorem State.crossing_twice (hc : c < 768) (hl : s.live c = true) {r q : Bool} (h1 : s.rearming c t upper = false)
    (h2 : s.rearming c t (!upper) = false) (k1 : s.captures c 1 (edgeKind upper r) = true)
    (k2 : s.captures c 1 (edgeKind (!upper) q) = true) (hroom : (s.ch c).edges.length + 2 ≤ Config.edgeDepth) :
    (((s.crossing c t upper r false).crossing c t (!upper) q false).ch c).edges
      = (s.ch c).edges ++ [⟨edgeKind upper r, s.stampAt t true⟩, ⟨edgeKind (!upper) q, s.stampAt t true⟩] := by
  have hp := State.crossing_path hc s t upper r false
  obtain ⟨-, -, -, hfirst, -⟩ := s.crossing_taken c t upper r false
  obtain ⟨-, -, -, hsecond, -⟩ := (s.crossing c t upper r false).crossing_taken c t (!upper) q false
  have he := hfirst hl h1 k1 rfl (by omega)
  rw [hsecond (hp.live.trans hl) ((s.crossing_rearming_other ..).trans h2) ((hp.captures ..).trans k2) rfl
    (by rw [he, List.length_append]; exact hroom), he, hp.stampAt, List.append_assoc]
  rfl

/-! ### What is as it was for a crossing -/

/-- As a crossing of channel `c` sees it, the state is as it was: the path to the consumers, the FIFO and the re-arm. -/
structure CrossAlike (c : Nat) (s v : State) : Prop where
  path : PathAlike c s v
  edges : (v.ch c).edges = (s.ch c).edges
  stampedH : (v.ch c).stampedH = (s.ch c).stampedH
  stampedL : (v.ch c).stampedL = (s.ch c).stampedL
  stat : v.rd (A.CH_EDGE_STAT c) = s.rd (A.CH_EDGE_STAT c)

theorem CrossAlike.rearming (h : CrossAlike c s v) (t : Nat) (upper : Bool) : v.rearming c t upper = s.rearming c t upper := by
  refine State.rearming_congr ?_ t
  unfold Chan.lastStamp
  rw [h.stampedH, h.stampedL]

/-- A crossing taken from a state is taken from one that is alike, and stays so in a state that has the same edges. -/
theorem CrossAlike.taken {w : State} (h : CrossAlike c s v) (k : CrossAlike c w x)
    (ht : CrossingTaken v c t upper rise discarded w) : CrossingTaken s c t upper rise discarded x := by
  unfold CrossingTaken State.fget at *
  rw [k.edges, k.stampedH, k.stampedL, k.stat]
  rwa [h.path.live, h.edges, h.stat, h.rearming, h.path.captures, h.path.stampAt] at ht

end Sys2Proof.Machine
end

section
/-! SUPPORT. The filter of a comparator (R85, R88 to R92): the state it accepts, and the edges and the window event of a
transition. -/

namespace Sys2Proof.Machine

/-! ### The filtered state (R85, R104) -/

theorem chStatus_ne_selfTest (c : Nat) : A.CH_STATUS c ≠ A.CH_SELFTEST c := by unfold A.CH_STATUS A.CH_SELFTEST; omega

theorem State.setCmp_rd_status (s : State) (c st : Nat) :
    (s.setCmp c st).rd (A.CH_STATUS c) = F.CH_STATUS.STATE.put (s.rd (A.CH_STATUS c)) st := by
  unfold State.setCmp State.cond
  dsimp only
  split
  · rw [State.fset_rd_ne _ _ _ _ (chStatus_ne_selfTest c), State.fset_rd_same]
  · exact State.fset_rd_same ..

theorem State.setCmp_rd_ne (s : State) (c st : Nat) {a : Nat} (h1 : a ≠ A.CH_STATUS c) (h2 : a ≠ A.CH_SELFTEST c) :
    (s.setCmp c st).rd a = s.rd a := by
  unfold State.setCmp State.cond
  dsimp only
  split
  · rw [State.fset_rd_ne _ _ _ _ h2, State.fset_rd_ne _ _ _ _ h1]
  · exact State.fset_rd_ne _ _ _ _ h1

theorem State.setCmp_same {p : Part} (hp : p ≠ .regs) (s : State) (c st : Nat) : p.same s (s.setCmp c st) :=
  have := p.kept; have := Part.kRegs hp
  State.setCmp_keeps Keeps.refl

theorem State.setCmp_state (s : State) (c : Nat) {st : Nat} (h : st < 4) :
    (s.setCmp c st).fget (A.CH_STATUS c) F.CH_STATUS.STATE = st := by
  unfold State.fget
  rw [s.setCmp_rd_status]
  exact Fld.get_put_same _ _ _ (by decide) h

theorem State.setCmp_path (s : State) (c st : Nat) : PathAlike c s (s.setCmp c st) where
  clk := State.setCmp_same (p := .clk) (by decide) s c st
  frc := State.setCmp_same (p := .frc) (by decide) s c st
  active := congrArg (fun l => (Tab.get (fun _ => ({} : Chan)) l c).active) (State.setCmp_same (p := .chan) (by decide) s c st)
  start := (congrArg F.CH_STATUS.INBAND_START.on (s.setCmp_rd_status c st)).trans (Fld.on_put_ne _ _ _ _ (by decide))
  test := (congrArg F.CH_STATUS.TEST.on (s.setCmp_rd_status c st)).trans (Fld.on_put_ne _ _ _ _ (by decide))
  tick := s.setCmp_rd_ne c st (by unfold A.TICK_STATUS A.CH_STATUS; omega) (by unfold A.TICK_STATUS A.CH_SELFTEST; omega)

/-- A state that the window gives is one of the three. -/
theorem State.accepted_lt {s : State} {c t goal : Nat} (h : s.accepted c t = some goal) : goal < 4 := by
  have := List.mem_of_find?_eq_some h
  simp at this
  omega

/-! ### The events of a transition (R89, R90) -/

theorem State.eventAt_events (s : State) (cls idx kind t : Nat) (interp : Bool) :
    (s.eventAt cls idx kind t interp).rt.events = s.rt.events ++ [evAt s cls idx kind (t, interp)] := rfl

/-- One edge of the filter: its event, and its timestamp where edge capture takes filtered edges of the kind (R101). -/
def State.filterEdge (c : Nat) (discarded : Bool) (s : State) (p : Nat × Nat × Bool) : State :=
  (s.eventAt evChan c (4 + p.1) p.2.1 p.2.2).cond (s.captures c 0 p.1)
    (fun s => s.edgePush c p.1 (s.stampAt p.2.1 p.2.2) discarded)

/-- The edges of the filter in order. -/
def State.filterEdges (s : State) (c : Nat) (discarded : Bool) (l : List (Nat × Nat × Bool)) : State :=
  l.foldl (State.filterEdge c discarded) s

theorem State.filterEdge_events (c : Nat) (discarded : Bool) (s : State) (p : Nat × Nat × Bool) :
    (s.filterEdge c discarded p).rt.events = s.rt.events ++ [evAt s evChan c (4 + p.1) p.2] := by
  unfold State.filterEdge State.cond
  split
  · have hrt := State.edgePush_same (p := .rt) (by decide) (by decide) (by decide) (s.eventAt evChan c (4 + p.1) p.2.1 p.2.2)
      c p.1 ((s.eventAt evChan c (4 + p.1) p.2.1 p.2.2).stampAt p.2.1 p.2.2) discarded
    exact (congrArg Router.events hrt).trans (State.eventAt_events ..)
  · exact State.eventAt_events ..

section
variable {c : Nat} (hc : c < 768)
include hc

theorem State.filterEdge_bits (discarded : Bool) (s : State) (p : Nat × Nat × Bool) :
    RegBits (edgeBits c) s (s.filterEdge c discarded p) :=
  .cond (RegBits.refl.of_reg rfl) (State.edgePush_bits hc _ _ _ _)

theorem State.filterEdge_path (discarded : Bool) (s : State) (p : Nat × Nat × Bool) :
    PathAlike c s (s.filterEdge c discarded p) := by
  have hev : PathAlike c s (s.eventAt evChan c (4 + p.1) p.2.1 p.2.2) := ⟨rfl, rfl, rfl, rfl, rfl, rfl⟩
  unfold State.filterEdge State.cond
  split
  · exact hev.trans (State.edgePush_path hc _ _ _ _)
  · exact hev

theorem State.filterEdges_path (discarded : Bool) (s : State) (l : List (Nat × Nat × Bool)) :
    PathAlike c s (s.filterEdges c discarded l) :=
  have : Kept (PathAlike c) := ⟨fun _ => .refl, fun _ _ _ => .trans⟩
  Keeps.foldl Keeps.refl (State.filterEdge_path hc discarded)

theorem State.filterEdges_bits (discarded : Bool) (s : State) (l : List (Nat × Nat × Bool)) :
    RegBits (edgeBits c) s (s.filterEdges c discarded l) :=
  have := RegBits.kept (edgeBits c)
  Keeps.foldl Keeps.refl (State.filterEdge_bits hc discarded)

/-- Each edge is an event at its instant, in order. -/
theorem State.filterEdges_events (discarded : Bool) (s : State) (l : List (Nat × Nat × Bool)) :
    (s.filterEdges c discarded l).rt.events = s.rt.events ++ l.map (fun p => evAt s evChan c (4 + p.1) p.2) := by
  induction l generalizing s with
  | nil => exact (List.append_nil _).symm
  | cons p l ih =>
    have hp := State.filterEdge_path hc discarded s p
    have htail : (s.filterEdges c discarded (p :: l)).rt.events = _ := ih (s.filterEdge c discarded p)
    rw [htail, State.filterEdge_events, List.append_assoc]
    simp only [hp.evAt, List.singleton_append, List.map_cons]

end

/-! ### What a decision does (R88 to R92) -/

/-- The accepted state taken, with the lanes at the instants of the transition's edges, or at the decision without any. -/
def State.stateTaken (s : State) (c t goal : Nat) (at_ : List (Nat × Bool)) : State :=
  (s.setCmp c goal).lanesAt (at_.getLastD (t, false)) (at_.headD (t, false))

theorem State.stateTaken_rd {a : Nat} (s : State) (c t goal : Nat) (at_ : List (Nat × Bool)) (h : a < 0x20120) :
    (s.stateTaken c t goal at_).rd a = (s.setCmp c goal).rd a := State.lanesAt_rd h ..

theorem State.stateTaken_state {c goal : Nat} (hc : c < 768) (hg : goal < 4) (s : State) (t : Nat) (at_ : List (Nat × Bool)) :
    (s.stateTaken c t goal at_).fget (A.CH_STATUS c) F.CH_STATUS.STATE = goal :=
  (congrArg F.CH_STATUS.STATE.get (s.stateTaken_rd c t goal at_ (by unfold A.CH_STATUS; omega))).trans (s.setCmp_state c hg)

theorem State.stateTaken_same {p : Part} (h1 : p ≠ .regs) (h2 : p ≠ .ae) (s : State) (c t goal : Nat) (at_ : List (Nat × Bool)) :
    p.same s (s.stateTaken c t goal at_) :=
  have := p.kept; have := Part.kRegs h1; have := Part.kAe h2
  State.lanesAt_keeps (State.setCmp_keeps Keeps.refl)

theorem State.stateTaken_path {c : Nat} (hc : c < 768) (s : State) (t goal : Nat) (at_ : List (Nat × Bool)) :
    PathAlike c s (s.stateTaken c t goal at_) := (s.setCmp_path c goal).trans (State.lanesAt_path hc ..)

/-- The accepted state taken where it ends INBAND_START (R91). -/
def State.startEnded (s : State) (c t goal : Nat) : State :=
  ((s.setCmp c goal).fset (A.CH_STATUS c) F.CH_STATUS.INBAND_START 0).lanesAt (t, false) (t, false)

theorem State.startEnded_same {p : Part} (h1 : p ≠ .regs) (h2 : p ≠ .ae) (s : State) (c t goal : Nat) :
    p.same s (s.startEnded c t goal) :=
  have := p.kept; have := Part.kRegs h1; have := Part.kAe h2
  State.lanesAt_keeps (State.fset_keeps (State.setCmp_keeps Keeps.refl))

theorem State.startEnded_status {c goal : Nat} (hc : c < 768) (hg : goal < 4) (s : State) (t : Nat) :
    (s.startEnded c t goal).fget (A.CH_STATUS c) F.CH_STATUS.STATE = goal
      ∧ (s.startEnded c t goal).fon (A.CH_STATUS c) F.CH_STATUS.INBAND_START = false := by
  unfold State.startEnded State.fget State.fon
  rw [State.lanesAt_rd (by unfold A.CH_STATUS; omega), State.fset_rd_same]
  exact ⟨(Fld.get_put_ne _ _ _ _ (by decide)).trans (s.setCmp_state c hg),
    Fld.on_put F.CH_STATUS.INBAND_START _ false (by decide) (by decide)⟩

theorem State.filtered_of_none {s : State} {c n : Nat} (h : s.accepted c (s.instant (decisionFine * n)) = none)
    (discarded : Bool) : s.filtered c n discarded = s := by
  unfold State.filtered
  dsimp only
  rw [h]

section
variable {s : State} {c n t goal : Nat} {discarded : Bool} {edges : List Nat} {at_ : List (Nat × Bool)}
  (ht : t = s.instant (decisionFine * n)) (ha : s.accepted c t = some goal)
include ht ha

/-- What becomes of a state that the window gives, case by case. -/
theorem State.filtered_of_accepted
    (he : edges = transitionEdges (s.fget (A.CH_STATUS c) F.CH_STATUS.STATE) goal) (hat : at_ = edges.map (s.edgeInstant c t)) :
    s.filtered c n discarded
      = if !(s.ch c).active then s
        else if s.fon (A.CH_STATUS c) F.CH_STATUS.INBAND_START then s.startEnded c t goal
        else if edges.isEmpty then s
        else if !(s.stateTaken c t goal at_).live c then s.stateTaken c t goal at_
        else ((s.stateTaken c t goal at_).filterEdges c discarded (edges.zip at_)).eventAt evChan c (cmpKind goal)
          (at_.getLastD (t, false)).1 (at_.getLastD (t, false)).2 := by
  subst hat he ht
  unfold State.filtered
  dsimp only
  rw [ha]
  rfl

/-- The acceptance that ends INBAND_START makes no event (R91, R92). -/
theorem State.filtered_of_start (hact : (s.ch c).active = true)
    (hi : s.fon (A.CH_STATUS c) F.CH_STATUS.INBAND_START = true) :
    s.filtered c n discarded = s.startEnded c t goal := by
  rw [State.filtered_of_accepted ht ha rfl rfl, hact, hi]
  rfl

theorem State.filtered_of_inactive (hact : (s.ch c).active = false) : s.filtered c n discarded = s := by
  rw [State.filtered_of_accepted ht ha rfl rfl, hact]
  rfl

/-- The state as it is. -/
theorem State.filtered_of_still (hi : s.fon (A.CH_STATUS c) F.CH_STATUS.INBAND_START = false)
    (he : transitionEdges (s.fget (A.CH_STATUS c) F.CH_STATUS.STATE) goal = []) : s.filtered c n discarded = s := by
  rw [State.filtered_of_accepted ht ha rfl rfl, hi, he]
  split <;> rfl

/-- A transition whose path does not reach its consumers (R92, R98). -/
theorem State.filtered_of_not_live (hc : c < 768) (hact : (s.ch c).active = true)
    (hi : s.fon (A.CH_STATUS c) F.CH_STATUS.INBAND_START = false) (hl : s.live c = false)
    (he : transitionEdges (s.fget (A.CH_STATUS c) F.CH_STATUS.STATE) goal ≠ []) :
    ∃ at_, s.filtered c n discarded = s.stateTaken c t goal at_ := by
  rw [State.filtered_of_accepted ht ha rfl rfl, hact, hi, (State.stateTaken_path hc s t goal _).live, hl, if_neg (by simp),
    if_neg (by simp), if_neg (by simpa using he)]
  exact ⟨_, rfl⟩

/-- A transition whose path does: the edges in order, and the window event at the last of them (R89, R90). -/
theorem State.filtered_of_live (hc : c < 768) (hl : s.live c = true)
    (he : edges = transitionEdges (s.fget (A.CH_STATUS c) F.CH_STATUS.STATE) goal) (hne : edges ≠ [])
    (hat : at_ = edges.map (s.edgeInstant c t)) : s.filtered c n discarded
      = ((s.stateTaken c t goal at_).filterEdges c discarded (edges.zip at_)).eventAt evChan c (cmpKind goal)
          (at_.getLastD (0, false)).1 (at_.getLastD (0, false)).2 := by
  obtain ⟨⟨hact, hi⟩, -⟩ : ((s.ch c).active = true ∧ s.fon (A.CH_STATUS c) F.CH_STATUS.INBAND_START = false)
      ∧ (!s.fon (A.CH_STATUS c) F.CH_STATUS.TEST || F.CH_SELFTEST.LIVE.on (s.eff (A.CH_SELFTEST c))) = true := by
    simpa [State.live] using hl
  have hlast : at_.getLastD (t, false) = at_.getLastD (0, false) := by
    subst hat
    cases edges with
    | nil => exact absurd rfl hne
    | cons e es => simp only [List.map_cons, List.getLastD_cons]
  rw [State.filtered_of_accepted ht ha he hat, hact, hi, (State.stateTaken_path hc s t goal _).live, hl, if_neg (by simp),
    if_neg (by simp), if_neg (by simpa using hne), if_neg (by simp), hlast]

end

/-- The events and the state that such a transition leaves. -/
theorem State.filterEdges_of_stateTaken {c goal : Nat} (hc : c < 768) (hg : goal < 4) {s x : State} {t : Nat}
    {at_ : List (Nat × Bool)} (hx : x = s.stateTaken c t goal at_) (discarded : Bool) (l : List (Nat × Nat × Bool))
    (last : Nat × Bool) :
    ((x.filterEdges c discarded l).eventAt evChan c (cmpKind goal) last.1 last.2).fget (A.CH_STATUS c) F.CH_STATUS.STATE = goal
      ∧ ((x.filterEdges c discarded l).eventAt evChan c (cmpKind goal) last.1 last.2).rt.events
        = s.rt.events ++ l.map (fun p => evAt s evChan c (4 + p.1) p.2) ++ [evAt s evChan c (cmpKind goal) last] := by
  have hp : PathAlike c s x := hx ▸ State.stateTaken_path hc s t goal at_
  have hrt : x.rt = s.rt := hx ▸ State.stateTaken_same (p := .rt) (by decide) (by decide) s c t goal at_
  refine ⟨?_, ?_⟩
  · have hstate : x.fget (A.CH_STATUS c) F.CH_STATUS.STATE = goal := hx ▸ State.stateTaken_state hc hg s t at_
    have hrd := (State.filterEdges_bits hc discarded x l).rd (chStatus_not_mem_edgeBits c)
    exact (congrArg F.CH_STATUS.STATE.get hrd).trans hstate
  · rw [State.eventAt_events, State.filterEdges_events hc, (hp.trans (State.filterEdges_path hc discarded x l)).evAt, hrt]
    simp only [hp.evAt]

end Sys2Proof.Machine
end

section
/-! CERTIFICATE. O29: raw crossings and filtered transitions of a comparator. -/

namespace Sys2Proof.Machine

/-! ### The outputs for an input (R85) -/

theorem bandHalf_nonneg (n : Nat) : 0 ≤ bandHalf n := by
  unfold bandHalf
  rcases n with _ | _ | _ | _ | _ | _ | n <;> simp

/-- An input below the band is not above it. -/
theorem aboveCode_of_below {x half : Int} {code : Nat} (hh : 0 ≤ half) (h : belowCode x code (-half) = true) :
    aboveCode x code half = false := by
  simp only [belowCode, aboveCode, decide_eq_true_eq, decide_eq_false_iff_not] at h ⊢
  omega

theorem tripNext_of_above {x half : Int} {code : Nat} (h : aboveCode x code half = true) (one prev : Bool) :
    tripNext one prev x code half = one := if_pos h

theorem tripNext_of_below {x half : Int} {code : Nat} (hh : 0 ≤ half) (h : belowCode x code (-half) = true) (one prev : Bool) :
    tripNext one prev x code half = !one := by
  unfold tripNext
  rw [if_neg (by simp [aboveCode_of_below hh h]), if_pos h]

/-- Outside self-test, H compares with its threshold and L, inverted, with its own. -/
theorem State.cmpNext_of_no_test {s : State} {c : Nat} (h : s.fon (A.CH_STATUS c) F.CH_STATUS.TEST = false) (prev : Bool × Bool)
    (x : Int) : s.cmpNext c false prev x
      = (tripNext true prev.1 x (F.CH_CMPH.CODE.get (s.eff (A.CH_CMPH c))) (s.cmpHalf c),
        tripNext false prev.2 x (F.CH_CMPL.CODE.get (s.eff (A.CH_CMPL c))) (s.cmpHalf c)) := by
  unfold State.cmpNext State.cmpCodes State.cmpUp
  simp [h]

/-! ### The input from an instant on (R85, R104) -/

/-- The channel whose pin reaches a level at an instant, with the outputs that follow. -/
def State.inputPut (s : State) (c t : Nat) (level : Int) : State :=
  (s.updCh c (fun h => { h with level := level })).putPoint c t
    (s.cmpNext c false ((s.ch c).rawH, (s.ch c).rawL) (s.cmpInput c level)) (s.cmpInput c level)

/-- The same, with the outputs shown during self-test. -/
def State.inputShown (s : State) (c t : Nat) (level : Int) : State := (s.inputPut c t level).showRaw c

theorem State.inputPut_same {p : Part} (hp : p ≠ .chan) (s : State) (c t : Nat) (level : Int) : p.same s (s.inputPut c t level) :=
  have := p.kept; have := Part.kChan hp
  State.putPoint_keeps (State.updCh_keeps Keeps.refl)

theorem State.showRaw_bits (s : State) (c : Nat) :
    RegBits [bitsOf (A.CH_SELFTEST c) [F.CH_SELFTEST.RAW]] s (s.showRaw c) := by
  unfold State.showRaw
  exact .cond .refl (RegBits.refl.fset List.mem_cons_self (by decide))

theorem State.showRaw_same {p : Part} (hp : p ≠ .regs) (s : State) (c : Nat) : p.same s (s.showRaw c) :=
  have := p.kept; have := Part.kRegs hp
  State.showRaw_keeps Keeps.refl

theorem State.showRaw_ch (s : State) (c k : Nat) : (s.showRaw c).ch k = s.ch k :=
  congrArg (Tab.get (fun _ => ({} : Chan)) · k) (State.showRaw_same (p := .chan) (by decide) s c)

/-- The channel then: the outputs and the level, and nothing that a crossing reads. -/
theorem State.inputShown_ch (s : State) (c t : Nat) (level : Int) {hl : Bool × Bool}
    (h : hl = s.cmpNext c false ((s.ch c).rawH, (s.ch c).rawL) (s.cmpInput c level)) :
    ∃ k ps, (s.inputShown c t level).ch c
      = { s.ch c with level := level, rawH := hl.1, rawL := hl.2, hAt := k, pts := ps } := by
  subst h
  unfold State.inputShown State.inputPut State.putPoint
  rw [State.showRaw_ch, State.updCh_ch_same, State.updCh_ch_same]
  exact ⟨_, _, rfl⟩

theorem State.inputShown_bits (s : State) (c t : Nat) (level : Int) :
    RegBits [bitsOf (A.CH_SELFTEST c) [F.CH_SELFTEST.RAW]] s (s.inputShown c t level) :=
  (RegBits.refl.of_same (State.inputPut_same (by decide) s c t level)).trans (State.showRaw_bits _ c)

theorem State.inputShown_alike (s : State) (c t : Nat) (level : Int) : CrossAlike c s (s.inputShown c t level) := by
  have hb := s.inputShown_bits c t level
  have hne {a : Nat} (h : a ≠ A.CH_SELFTEST c) : a ∉ [bitsOf (A.CH_SELFTEST c) [F.CH_SELFTEST.RAW]].map (·.1) := by simpa using h
  obtain ⟨k, ps, hch⟩ := s.inputShown_ch c t level rfl
  have same {p : Part} (h1 : p ≠ .regs) (h2 : p ≠ .chan) : p.same s (s.inputShown c t level) :=
    have := p.kept; have := Part.kRegs h1
    State.showRaw_keeps (State.inputPut_same h2 s c t level)
  have hpath : PathAlike c s (s.inputShown c t level) := .of_bits hb (hne (by unfold A.CH_STATUS A.CH_SELFTEST; omega))
    (hne (by unfold A.TICK_STATUS A.CH_SELFTEST; omega)) (same (p := .clk) (by decide) (by decide))
    (same (p := .frc) (by decide) (by decide)) (by rw [hch])
  exact ⟨hpath, by rw [hch], by rw [hch], by rw [hch], hb.rd (hne (by unfold A.CH_EDGE_STAT A.CH_SELFTEST; omega))⟩

/-- The crossing of an output, where it changes. -/
def State.crossIf (s : State) (c t : Nat) (changed upper rise discarded : Bool) : State :=
  s.cond changed (fun s => s.crossing c t upper rise discarded)

/-- Outputs that change are crossings, L first where the input rises. -/
theorem State.compInput_eq (s : State) (c t : Nat) (level : Int) (discarded : Bool) {hl : Bool × Bool}
    (h : hl = s.cmpNext c false ((s.ch c).rawH, (s.ch c).rawL) (s.cmpInput c level)) : s.compInput c t level discarded
      = if (s.pointAt c t).level ≤ s.cmpInput c level then
          ((s.inputShown c t level).crossIf c t (hl.2 != (s.ch c).rawL) false (!hl.2) discarded).crossIf c t
            (hl.1 != (s.ch c).rawH) true hl.1 discarded
        else
          ((s.inputShown c t level).crossIf c t (hl.1 != (s.ch c).rawH) true hl.1 discarded).crossIf c t
            (hl.2 != (s.ch c).rawL) false (!hl.2) discarded := by
  subst h; rfl

/-- What every crossing keeps, the crossings of an input keep. -/
theorem State.compInput_keeps_of_crossing {R : State → State → Prop} [Kept R] {s : State} {c t : Nat} {level : Int}
    {discarded : Bool} (hR : ∀ x upper rise, R x (x.crossing c t upper rise discarded)) :
    R (s.inputShown c t level) (s.compInput c t level discarded) := by
  have hIf (x : State) (changed upper rise : Bool) : R x (x.crossIf c t changed upper rise discarded) :=
    State.cond_keeps Keeps.refl fun y => hR y upper rise
  rw [s.compInput_eq c t level discarded rfl]
  split
  all_goals exact Keeps.trans (hIf ..) (hIf ..)

section
variable {s : State} {c t : Nat} {level : Int} {discarded : Bool} {hl : Bool × Bool}
  (h : hl = s.cmpNext c false ((s.ch c).rawH, (s.ch c).rawL) (s.cmpInput c level))
include h

theorem State.compInput_of_same (h1 : hl.1 = (s.ch c).rawH) (h2 : hl.2 = (s.ch c).rawL) :
    s.compInput c t level discarded = s.inputShown c t level := by
  rw [s.compInput_eq c t level discarded h, h1, h2]
  simp [State.crossIf, State.cond]

theorem State.compInput_of_high (h1 : hl.1 ≠ (s.ch c).rawH) (h2 : hl.2 = (s.ch c).rawL) :
    s.compInput c t level discarded = (s.inputShown c t level).crossing c t true hl.1 discarded := by
  rw [s.compInput_eq c t level discarded h, h2]
  simp [State.crossIf, State.cond, h1]

theorem State.compInput_of_low (h1 : hl.1 = (s.ch c).rawH) (h2 : hl.2 ≠ (s.ch c).rawL) :
    s.compInput c t level discarded = (s.inputShown c t level).crossing c t false (!hl.2) discarded := by
  rw [s.compInput_eq c t level discarded h, h1]
  simp [State.crossIf, State.cond, h2]

theorem State.compInput_of_both (h1 : hl.1 ≠ (s.ch c).rawH) (h2 : hl.2 ≠ (s.ch c).rawL) :
    s.compInput c t level discarded = if (s.pointAt c t).level ≤ s.cmpInput c level then
        ((s.inputShown c t level).crossing c t false (!hl.2) discarded).crossing c t true hl.1 discarded
      else ((s.inputShown c t level).crossing c t true hl.1 discarded).crossing c t false (!hl.2) discarded := by
  rw [s.compInput_eq c t level discarded h]
  simp [State.crossIf, State.cond, h1, h2]

/-- What an input leaves of the comparator: its outputs and its level (R85). -/
theorem State.compInput_raw : ((s.compInput c t level discarded).ch c).rawH = hl.1
    ∧ ((s.compInput c t level discarded).ch c).rawL = hl.2 ∧ ((s.compInput c t level discarded).ch c).level = level := by
  have := RawAlike.kept c
  have hraw : RawAlike c (s.inputShown c t level) (s.compInput c t level discarded) :=
    State.compInput_keeps_of_crossing fun x upper rise => x.crossing_raw c t upper rise discarded
  obtain ⟨k, ps, hch⟩ := s.inputShown_ch c t level h
  exact ⟨hraw.rawH.trans (by rw [hch]), hraw.rawL.trans (by rw [hch]), hraw.level.trans (by rw [hch])⟩

/-- An input that changes no output changes nothing that a crossing reads. -/
theorem State.compInput_of_same_alike (h1 : hl.1 = (s.ch c).rawH) (h2 : hl.2 = (s.ch c).rawL) :
    CrossAlike c s (s.compInput c t level discarded) := by
  rw [State.compInput_of_same h h1 h2]
  exact s.inputShown_alike c t level

end

/-! ### RAW_CROSSING (R85, R90, R98, R101) -/

/-- The registers that a crossing of channel `c` may change. -/
theorem State.compInput_bits {c : Nat} (hc : c < 768) (s : State) (t : Nat) (level : Int) (discarded : Bool) :
    RegBits (bitsOf (A.CH_SELFTEST c) [F.CH_SELFTEST.RAW] :: edgeBits c) s (s.compInput c t level discarded) := by
  have := RegBits.kept (edgeBits c)
  have hcross : RegBits (edgeBits c) (s.inputShown c t level) (s.compInput c t level discarded) :=
    State.compInput_keeps_of_crossing fun x upper rise => State.crossing_bits hc x t upper rise discarded
  exact ((s.inputShown_bits c t level).mono (by simp)).trans (hcross.mono fun p hp => List.mem_cons_of_mem _ hp)

/-- The pin of an active comparator reaches a level: the input, and then the lanes. -/
theorem State.rawCrossing_of_active {s : State} {c : Nat} (h : (s.ch c).active = true) (level : Int) (fine : Nat)
    (discarded : Bool) : s.rawCrossing c level fine discarded
      = (s.compInput c (s.instant fine) level discarded).lanesAt (s.instant fine, true) (s.instant fine, true) :=
  if_neg (by simp [h])

theorem State.rawCrossing_of_inactive {s : State} {c : Nat} (h : (s.ch c).active = false) (level : Int) (fine : Nat)
    (discarded : Bool) : s.rawCrossing c level fine discarded = s.updCh c (fun h => { h with level := level }) :=
  if_pos (by simp [h])

/-- A crossing sees the lanes change nothing. -/
theorem State.lanesAt_alike {c : Nat} (hc : c < 768) (s : State) (rise fall : Nat × Bool) :
    CrossAlike c s (s.lanesAt rise fall) := by
  have hch := s.lanesAt_ch rise fall c
  exact ⟨State.lanesAt_path hc s rise fall, by rw [hch], by rw [hch], by rw [hch],
    State.lanesAt_rd (by unfold A.CH_EDGE_STAT; omega) s rise fall⟩

section
variable {s u : State} {c t : Nat} {level : Int} {discarded : Bool} {hl : Bool × Bool}
  (h : hl = s.cmpNext c false ((s.ch c).rawH, (s.ch c).rawL) (s.cmpInput c level))
  (hu : CrossAlike c (s.compInput c t level discarded) u)
include h hu

theorem CrossAlike.high_taken (h1 : hl.1 ≠ (s.ch c).rawH) (h2 : hl.2 = (s.ch c).rawL) :
    CrossingTaken s c t true hl.1 discarded u :=
  (s.inputShown_alike c t level).taken (State.compInput_of_high h h1 h2 ▸ hu) (State.crossing_taken ..)

theorem CrossAlike.low_taken (h1 : hl.1 = (s.ch c).rawH) (h2 : hl.2 ≠ (s.ch c).rawL) :
    CrossingTaken s c t false (!hl.2) discarded u :=
  (s.inputShown_alike c t level).taken (State.compInput_of_low h h1 h2 ▸ hu) (State.crossing_taken ..)

/-- Both outputs change: L is queued first where the input rises, and H first where it falls. -/
theorem CrossAlike.both_taken (hc : c < 768) (h1 : hl.1 ≠ (s.ch c).rawH) (h2 : hl.2 ≠ (s.ch c).rawL) (hlive : s.live c = true)
    (hd : discarded = false) (hH : s.rearming c t true = false) (hL : s.rearming c t false = false)
    (kH : s.captures c 1 (edgeKind true hl.1) = true) (kL : s.captures c 1 (edgeKind false (!hl.2)) = true)
    (hroom : (s.ch c).edges.length + 2 ≤ Config.edgeDepth) : (u.ch c).edges = (s.ch c).edges
      ++ (if (s.pointAt c t).level ≤ s.cmpInput c level
        then [⟨edgeKind false (!hl.2), s.stampAt t true⟩, ⟨edgeKind true hl.1, s.stampAt t true⟩]
        else [⟨edgeKind true hl.1, s.stampAt t true⟩, ⟨edgeKind false (!hl.2), s.stampAt t true⟩]) := by
  subst hd
  have hv := s.inputShown_alike c t level
  rw [hu.edges, State.compInput_of_both h h1 h2, ← hv.edges, ← hv.path.stampAt]
  rw [← hv.path.live] at hlive
  rw [← hv.rearming] at hH hL
  rw [← hv.path.captures] at kH kL
  rw [← hv.edges] at hroom
  split
  · exact State.crossing_twice (upper := false) hc hlive hL hH kL kH hroom
  · exact State.crossing_twice (upper := true) hc hlive hH hL kH kL hroom

end

/-! ### The statement -/

/-- Settles O29: RAW_CROSSING is the input of `compInput` and then the lanes, which change nothing that a crossing reads
(`lanesAt_alike`); what each crossing leaves is `crossing_taken`. FILTERED_TRANSITION is one of the cases of
`filtered_of_accepted`. -/
theorem comparatorEvents : Obligations.ComparatorEvents := by
  unfold Obligations.ComparatorEvents
  refine ⟨fun s u c level fine discarded hl hu hact h => ?_, fun s c prev x htest => ?_, fun s c n goal discarded ha hact hi => ?_,
    fun s c n goal discarded edges at_ ha hlive he hne hat => ?_, fun s c n goal discarded ha hact hi hlive hne => ?_,
    fun s c n discarded h => ?_, fun s u c level fine discarded hu hact => ?_⟩
  · have hexec : exec (.rawCrossing c level fine discarded) s
        = .next ((u.compInput c (u.instant fine) level discarded).lanesAt (u.instant fine, true) (u.instant fine, true)) := by
      rw [← State.rawCrossing_of_active hact, hu]
      rfl
    have hx := State.lanesAt_alike c.isLt (u.compInput c (u.instant fine) level discarded) (u.instant fine, true)
      (u.instant fine, true)
    have hch := (u.compInput c (u.instant fine) level discarded).lanesAt_ch (u.instant fine, true) (u.instant fine, true) c
    obtain ⟨hH, hL, hlevel⟩ := State.compInput_raw (t := u.instant fine) (discarded := discarded) h
    refine ⟨_, hexec, by rw [hch, hH], by rw [hch, hL], by rw [hch, hlevel], fun h1 h2 => ?_, hx.high_taken h, hx.low_taken h,
      hx.both_taken h c.isLt, ?_⟩
    · have hsame := State.compInput_of_same_alike (t := u.instant fine) (discarded := discarded) h h1 h2
      exact ⟨hx.edges.trans hsame.edges, hx.stat.trans hsame.stat⟩
    · exact ((State.compInput_bits c.isLt u _ level discarded).mono (List.subset_append_right ..)).trans
        ((State.lanesAt_bits _ _ _).mono (List.subset_append_left ..))
  · rw [State.cmpNext_of_no_test htest]
    have hb : 0 ≤ s.cmpHalf c := bandHalf_nonneg _
    exact ⟨fun h => tripNext_of_above h .., fun h => tripNext_of_below hb h .., fun h => tripNext_of_above h ..,
      fun h => tripNext_of_below hb h ..⟩
  · obtain ⟨hstate, hstart⟩ := State.startEnded_status c.isLt (State.accepted_lt ha) s (s.instant (decisionFine * n))
    exact ⟨_, congrArg Host.Outcome.next (State.filtered_of_start rfl ha hact hi), hstate, hstart,
      State.startEnded_same (p := .rt) (by decide) (by decide) .., State.startEnded_same (p := .chan) (by decide) (by decide) ..⟩
  · exact ⟨_, congrArg Host.Outcome.next (State.filtered_of_live rfl ha c.isLt hlive he hne hat),
      State.filterEdges_of_stateTaken c.isLt (State.accepted_lt ha) rfl discarded (edges.zip at_) (at_.getLastD (0, false))⟩
  · obtain ⟨at_, hx⟩ := State.filtered_of_not_live rfl ha (discarded := discarded) c.isLt hact hi hlive hne
    exact ⟨_, congrArg Host.Outcome.next hx, State.stateTaken_state c.isLt (State.accepted_lt ha) ..,
      State.stateTaken_same (p := .rt) (by decide) (by decide) .., State.stateTaken_same (p := .chan) (by decide) (by decide) ..⟩
  · refine congrArg Host.Outcome.next ?_
    cases ha : s.accepted c (s.instant (decisionFine * n)) with
    | none => exact State.filtered_of_none ha discarded
    | some goal =>
      rcases h with h | h | ⟨hi, g, hg, he⟩
      · rw [h] at ha
        cases ha
      · exact State.filtered_of_inactive rfl ha h
      · exact State.filtered_of_still rfl hg hi he
  · subst hu
    exact congrArg Host.Outcome.next (State.rawCrossing_of_inactive hact level fine discarded)

end Sys2Proof.Machine
end

section
/-! SUPPORT. Flags and counts that an update raises or leaves under a condition, and the tick instant before the current one. -/

namespace Sys2Proof.Machine.State

/-- A flag raised under a condition (R428). -/
theorem fon_raiseIf_same (s : State) (c : Bool) (a : Nat) {f : Fld} (h : f.lo + f.width ≤ 36) (hw : 0 < f.width) :
    (s.raiseIf c a f).fon a f = (s.fon a f || c) := by
  cases c
  · exact (Bool.or_false _).symm
  · exact (fon_raiseF_same s a f h hw).trans (Bool.or_true _).symm

/-- Another flag is as it was. -/
theorem fon_raiseIf_ne (s : State) (c : Bool) (a b : Nat) {f g : Fld} (h : f.lo + f.width ≤ g.lo ∨ g.lo + g.width ≤ f.lo) :
    (s.raiseIf c a f).fon b g = s.fon b g := by
  cases c
  · rfl
  · exact fon_raiseF_ne s a b f g h

theorem raiseIf_rd_ne (s : State) (c : Bool) {a b : Nat} (f : Fld) (h : b ≠ a) : (s.raiseIf c a f).rd b = s.rd b := by
  cases c
  · rfl
  · exact raiseF_rd_ne s a f h

/-- A saturating count of what happens under a condition. -/
def countIf (s : State) (c : Bool) (a : Nat) (f : Fld) : State := s.cond c (fun s => s.inc a f 1)

theorem fget_countIf_same (s : State) (c : Bool) (a : Nat) {f : Fld} (h : f.lo + f.width ≤ 36) :
    (s.countIf c a f).fget a f = min (s.fget a f + (if c then 1 else 0)) f.max := by
  have hpos : 0 < 2 ^ f.width := Nat.two_pow_pos _
  cases c
  · have hle : s.fget a f ≤ f.max := Nat.le_sub_one_of_lt (Fld.get_lt f (s.rd a))
    exact (Nat.min_eq_left hle).symm
  · have hlt : satAdd f (s.fget a f) 1 < 2 ^ f.width :=
      Nat.lt_of_le_of_lt (Nat.min_le_right _ _) (Nat.sub_one_lt_of_lt hpos)
    exact fget_fset_same s a _ f h hlt

theorem fget_countIf_ne (s : State) (c : Bool) (a b : Nat) {f g : Fld} (h : f.lo + f.width ≤ g.lo ∨ g.lo + g.width ≤ f.lo) :
    (s.countIf c a f).fget b g = s.fget b g := by
  cases c
  · rfl
  · exact fget_fset_ne s a b _ f g h

theorem countIf_rd_ne (s : State) (c : Bool) {a b : Nat} (f : Fld) (h : b ≠ a) : (s.countIf c a f).rd b = s.rd b := by
  cases c
  · rfl
  · exact inc_rd_ne s a f 1 h

/-- The last tick instant reads the tick and what TICK_STATUS says alone (R57, R58). -/
theorem prevStamp_congr {s t : State} (hc : t.clk = s.clk) (hr : t.rd A.TICK_STATUS = s.rd A.TICK_STATUS) :
    t.prevStamp = s.prevStamp := by
  unfold State.prevStamp
  rw [hc]
  exact congrArg Ev.st (evAt_congr hc hr 0 0 0 (s.clk.start - s.clk.prevLen, false))

end Sys2Proof.Machine.State
end

section
/-! CERTIFICATE. O41: GO and STOP of the precision converters, and what becomes of their results. -/

namespace Sys2Proof.Machine

/-! ### Requests of the arbiter for a converter (R192) -/

theorem pmcStat_pmcOf (b : Nat) (k : Fin 8) : pmcStat (pmcOf b k) = A.PMC_STAT b k := by
  unfold pmcStat pmcOf A.PMC_STAT
  omega

theorem pmcOf_mod (b : Nat) (k : Fin 8) : pmcOf b k % 8 = k := by
  unfold pmcOf
  omega

/-- WAITING follows the requests as they change. -/
theorem State.updArbs_pmc_waiting (s : State) (n : Nat) (f : Router → Router) :
    (s.updArbs (.pmc n) f).fon (pmcStat n) F.PMC_STAT.WAITING = (f s.rt).arbs.any (fun a => a.res == .pmc n) :=
  State.fon_fbit_same (s.updRt f) _ _ _ (by decide) (by decide)

theorem State.updArbs_pmc_bits {l : List (Nat × Word)} {n : Nat} {m : Word} (hp : (pmcStat n, m) ∈ l)
    (hm : F.PMC_STAT.WAITING.mask &&& ~~~m = 0) (s : State) (f : Router → Router) : RegBits l s (s.updArbs (.pmc n) f) :=
  (RegBits.refl.of_reg (t := s.updRt f) rfl).fbit hp hm

/-- The requests that wait once a new one has joined them (R192). -/
theorem State.arbRequest_pmc_arbs (s : State) (n : Nat) (cls : Cls) (idx : Nat) (who : Writer) (frm : Nat) :
    (s.arbRequest (.pmc n) cls idx who frm).rt.arbs
      = s.rt.arbs.filter (fun a => !(a.res == .pmc n && a.cls == cls && a.tag == 0))
        ++ [{ id := s.rt.nextId, res := .pmc n, cls, idx, frm, who, tag := 0 }] := rfl

/-- Of its class and tag, the new request is the one that waits. -/
theorem State.arbRequest_pmc_id {s : State} {n : Nat} {cls : Cls} {idx : Nat} {who : Writer} {frm : Nat} {a : Arb}
    (ha : a ∈ (s.arbRequest (.pmc n) cls idx who frm).rt.arbs) (hres : a.res = .pmc n) (hcls : a.cls = cls) (htag : a.tag = 0) :
    a.id = s.rt.nextId := by
  rw [State.arbRequest_pmc_arbs, List.mem_append, List.mem_filter, List.mem_singleton] at ha
  rcases ha with ⟨-, h⟩ | rfl
  · simp [hres, hcls, htag] at h
  · rfl

/-- Requests for another resource and of another class go on waiting. -/
theorem State.mem_arbRequest_pmc {s : State} {n : Nat} {cls : Cls} {a : Arb} (ha : a ∈ s.rt.arbs)
    (h : a.res ≠ .pmc n ∨ a.cls ≠ cls) (idx : Nat) (who : Writer) (frm : Nat) :
    a ∈ (s.arbRequest (.pmc n) cls idx who frm).rt.arbs := by
  rw [State.arbRequest_pmc_arbs, List.mem_append, List.mem_filter]
  exact .inl ⟨ha, by rcases h with h | h <;> simp [h]⟩

/-- A request waits, so WAITING is set. -/
theorem State.arbRequest_pmc_waiting (s : State) (n : Nat) (cls : Cls) (idx : Nat) (who : Writer) (frm : Nat) :
    (s.arbRequest (.pmc n) cls idx who frm).fon (pmcStat n) F.PMC_STAT.WAITING = true :=
  (State.updArbs_pmc_waiting ..).trans
    (List.any_eq_true.mpr ⟨_, List.mem_append_right _ (List.mem_singleton_self _), beq_self_eq_true _⟩)

/-! ### GO (R192, R373) -/

theorem State.pmcGo_of_reload {s : State} {b : Nat} (h : (s.bk b).reload = true) (k : Nat) (who : Writer) (frm : Nat) :
    s.pmcGo b k who frm = s := if_pos h

theorem State.pmcGo_of_unusable {s : State} {b k : Nat} (hr : (s.bk b).reload = false) (hu : s.pmcUsable b k = false)
    (who : Writer) (frm : Nat) : s.pmcGo b k who frm = s.raiseF (pmcStat (pmcOf b k)) F.PMC_STAT.IGN :=
  (if_neg (by simp [hr])).trans (if_pos (by simp [hu]))

theorem State.pmcGo_of_usable {s : State} {b k : Nat} (hr : (s.bk b).reload = false) (hu : s.pmcUsable b k = true)
    (who : Writer) (frm : Nat) :
    s.pmcGo b k who frm = s.arbRequest (.pmc (pmcOf b k)) (classOf who) (classIndex who) who frm :=
  (if_neg (by simp [hr])).trans (if_neg (by simp [hu]))

/-! ### STOP (R195, R196) -/

/-- The status of a converter that becomes free. -/
theorem State.pmcFree_rd (s : State) (n : Nat) : (s.pmcFree n).rd (pmcStat n)
    = F.PMC_STAT.LEDGER_WAIT.put (F.PMC_STAT.BUSY.put (s.rd (pmcStat n)) 0) 0 := State.wr_rd_same ..

theorem State.pmcFree_bits {l : List (Nat × Word)} {n : Nat} {m : Word} (hp : (pmcStat n, m) ∈ l)
    (hb : F.PMC_STAT.BUSY.mask &&& ~~~m = 0) (hw : F.PMC_STAT.LEDGER_WAIT.mask &&& ~~~m = 0) (s : State) :
    RegBits l s (s.pmcFree n) :=
  RegBits.refl.of_wr (a := pmcStat n) rfl ((Fld.put_outside _ _ _ 0 (RegBits.covers hp hw)).trans
    (Fld.put_outside _ _ _ 0 (RegBits.covers hp hb)))

/-- A converter that no command holds (R195). -/
def Pmc.freed (p : Pmc) : Pmc := { p with holder := none, running := false, settle := none, i := 0 }

theorem State.pmcFree_pm (s : State) (n : Nat) :
    (s.pmcFree n).pm n = (s.pm n).freed := State.updPm_pm_same s n Pmc.freed

theorem State.pmcFree_pm_ne (s : State) {n m : Nat} (h : m ≠ n) : (s.pmcFree n).pm m = s.pm m := State.updPm_pm_ne s n Pmc.freed h

/-- What a withdrawal leaves of a request under another key keeps that key. -/
theorem Req.key_ne_of_without {q r : Req} {key : ReqKey} (h : q.without key = some r) : r.key ≠ key := by
  unfold Req.without at h
  split at h
  · cases h
  · next hne =>
    have hq : q.key ≠ key := by simpa using hne
    split at h
    · dsimp only at h
      split at h <;> cases h
      exact hq
    · cases h
      exact hq

theorem State.withdraw_key {s : State} {key : ReqKey} {r : Req} (hr : r ∈ (s.withdraw key).led.queue) : r.key ≠ key := by
  obtain ⟨q, -, hq⟩ := List.mem_filterMap.mp hr
  exact Req.key_ne_of_without hq

theorem State.unstage_eff {s : State} {p : Eff → Bool} {x : Staged} (hx : x ∈ (s.unstage p).staged) : p x.eff = false := by
  obtain ⟨-, h⟩ := List.mem_filter.mp hx
  simpa using h

/-- Nothing of the converter that becomes free waits in the ledger's queue, nor for a boundary (R195). -/
theorem State.pmcFree_waits (s : State) (n : Nat) : (∀ r ∈ (s.pmcFree n).led.queue, r.key ≠ .pmc n)
    ∧ ∀ x ∈ (s.pmcFree n).staged, x.eff ≠ .pmcBegin n :=
  ⟨fun _ hr => State.withdraw_key (s := s) hr, fun _ hx => by simpa using State.unstage_eff hx⟩

/-- The requests but the calibration engine's cancelled (R196). -/
def State.pmcCancelled (s : State) (n : Nat) : State := s.arbWithdraw (.pmc n) (· != .cal)

/-- The status of a converter that is stopped. -/
theorem State.pmcStop_status (s : State) (b k : Nat) :
    (s.pmcStop b k).fon (pmcStat (pmcOf b k)) F.PMC_STAT.BUSY = false
      ∧ (s.pmcStop b k).fon (pmcStat (pmcOf b k)) F.PMC_STAT.LEDGER_WAIT = false
      ∧ (s.pmcStop b k).fon (pmcStat (pmcOf b k)) F.PMC_STAT.WAITING
        = (s.pmcStop b k).rt.arbs.any (fun a => a.res == .pmc (pmcOf b k))
      ∧ RegBits [bitsOf (pmcStat (pmcOf b k)) [F.PMC_STAT.BUSY, F.PMC_STAT.LEDGER_WAIT, F.PMC_STAT.WAITING]] s
        (s.pmcStop b k) := by
  have hword (g : Fld) : (s.pmcStop b k).fon (pmcStat (pmcOf b k)) g = _ :=
    congrArg g.on ((s.pmcCancelled (pmcOf b k)).pmcFree_rd (pmcOf b k))
  refine ⟨?_, ?_, ?_, ?_⟩
  · rw [hword, Fld.on_put_ne _ _ _ _ (by decide)]
    exact Fld.on_put _ _ false (by decide) (by decide)
  · rw [hword]
    exact Fld.on_put _ _ false (by decide) (by decide)
  · rw [hword, Fld.on_put_ne _ _ _ _ (by decide), Fld.on_put_ne _ _ _ _ (by decide)]
    exact s.updArbs_pmc_waiting _ _
  · exact (State.updArbs_pmc_bits List.mem_cons_self (by decide) s _).trans
      (State.pmcFree_bits List.mem_cons_self (by decide) (by decide) _)

/-! ### What a result stores (R199 to R202) -/

/-- The information word of a result (R200). -/
def pmcInfo (n : Nat) (d : PmcDone) (ovr hi lo : Bool) : Word :=
  F.CH_PMU_RESINFO.NEW.put (F.CH_PMU_RESINFO.NOCONN.put (F.CH_PMU_RESINFO.OVR.put
    (F.CH_PMU_RESINFO.RAMPED.put (F.CH_PMU_RESINFO.HI.put (F.CH_PMU_RESINFO.LO.put (F.CH_PMU_RESINFO.MEAS.put
      (F.CH_PMU_RESINFO.RANGE.put (F.CH_PMU_RESINFO.NAVG.put (F.CH_PMU_RESINFO.PMC.put (F.CH_PMU_RESINFO.TICK.put 0
        d.tick) (n % 8)) d.navg) d.range) (bit01 d.meas)) (bit01 lo)) (bit01 hi)) (bit01 d.ramped))
          (bit01 ovr)) (bit01 d.noconn)) (bit01 true)

theorem pmcInfo_fields {n : Nat} {d : PmcDone} {ovr hi lo : Bool} {info : Word} (h : info = pmcInfo n d ovr hi lo) :
    F.CH_PMU_RESINFO.NEW.on info = true ∧ F.CH_PMU_RESINFO.NOCONN.on info = d.noconn
      ∧ F.CH_PMU_RESINFO.RAMPED.on info = d.ramped ∧ F.CH_PMU_RESINFO.MEAS.on info = d.meas
      ∧ F.CH_PMU_RESINFO.RANGE.get info = d.range % 8 ∧ F.CH_PMU_RESINFO.NAVG.get info = d.navg % 32
      ∧ F.CH_PMU_RESINFO.PMC.get info = n % 8 ∧ F.CH_PMU_RESINFO.TICK.get info = d.tick % (F.CH_PMU_RESINFO.TICK.max + 1)
      ∧ F.CH_PMU_RESINFO.OVR.on info = ovr ∧ F.CH_PMU_RESINFO.HI.on info = hi ∧ F.CH_PMU_RESINFO.LO.on info = lo := by
  subst h
  unfold pmcInfo
  refine ⟨?_, ?_, ?_, ?_, ?_, ?_, ?_, ?_, ?_, ?_, ?_⟩
  all_goals simp (disch := decide) only [Fld.on_put_ne, Fld.on_put, Fld.get_put_ne, Fld.get_put]
  case refine_7 => exact Nat.mod_mod n 8
  all_goals rfl

/-- The result with its information word, and OVW where the last one was not read (R200). -/
def State.resStored (s : State) (c : Nat) (res : Int) (info : Word) : State :=
  ((s.raiseIf (F.CH_PMU_RESINFO.NEW.on (s.ch c).pmuInfo) (A.CH_PMU_STATUS c) F.CH_PMU_STATUS.OVW).wr (A.CH_PMU_RES c)
    (BitVec.ofInt 36 res)).updCh c (fun h => { h with pmuInfo := info })

/-- The flag, the count and the event kind of the upper limit, or of the lower one (R201, R202). -/
def limFlag (up : Bool) : Fld := if up then F.CH_PMU_STATUS.LIM_HI else F.CH_PMU_STATUS.LIM_LO
@[inherit_doc limFlag] def limCount (up : Bool) : Fld := if up then F.CH_PMU_SUM.HI else F.CH_PMU_SUM.LO
@[inherit_doc limFlag] def limKind (up : Bool) : Nat := if up then 0 else 1

/-- A limit that a result exceeds or not: its flag, its count and its event. -/
def State.limTested (s : State) (c : Nat) (up beyond : Bool) : State :=
  s.cond beyond (fun s => ((s.raiseF (A.CH_PMU_STATUS c) (limFlag up)).inc (A.CH_PMU_SUM c) (limCount up) 1).eventBefore evPmu c
    (limKind up))

/-- The bits of registers that a result of channel `c` may change. -/
def pmuResBits (c : Nat) : List (Nat × Word) :=
  [wholeReg (A.CH_PMU_RES c), wholeReg (A.CH_PMU_SUM c),
    bitsOf (A.CH_PMU_STATUS c) [F.CH_PMU_STATUS.OVW, F.CH_PMU_STATUS.LIM_HI, F.CH_PMU_STATUS.LIM_LO]]

theorem pmuRes_mem (c : Nat) : wholeReg (A.CH_PMU_RES c) ∈ pmuResBits c := List.mem_cons_self

theorem pmuSum_mem (c : Nat) : wholeReg (A.CH_PMU_SUM c) ∈ pmuResBits c := List.mem_cons_of_mem _ List.mem_cons_self

theorem pmuStatus_mem (c : Nat) : bitsOf (A.CH_PMU_STATUS c)
    [F.CH_PMU_STATUS.OVW, F.CH_PMU_STATUS.LIM_HI, F.CH_PMU_STATUS.LIM_LO] ∈ pmuResBits c :=
  List.mem_cons_of_mem _ (List.mem_cons_of_mem _ List.mem_cons_self)

theorem pmuSum_ne_status (c : Nat) : A.CH_PMU_SUM c ≠ A.CH_PMU_STATUS c := by unfold A.CH_PMU_SUM A.CH_PMU_STATUS; omega

theorem pmuSum_ne_res (c : Nat) : A.CH_PMU_SUM c ≠ A.CH_PMU_RES c := by unfold A.CH_PMU_SUM A.CH_PMU_RES; omega

theorem pmuStatus_ne_res (c : Nat) : A.CH_PMU_STATUS c ≠ A.CH_PMU_RES c := by unfold A.CH_PMU_STATUS A.CH_PMU_RES; omega

/-! ### A result and its information word (R200) -/

section
variable (s : State) (c : Nat) (res : Int) (info : Word)

theorem State.resStored_res : (s.resStored c res info).rd (A.CH_PMU_RES c) = BitVec.ofInt 36 res := State.wr_rd_same ..

theorem State.resStored_ch : (s.resStored c res info).ch c = { s.ch c with pmuInfo := info } := by
  refine (State.updCh_ch_same ..).trans ?_
  cases F.CH_PMU_RESINFO.NEW.on (s.ch c).pmuInfo
  all_goals rfl

theorem State.resStored_sum : (s.resStored c res info).rd (A.CH_PMU_SUM c) = s.rd (A.CH_PMU_SUM c) :=
  (State.wr_rd_ne _ _ _ (pmuSum_ne_res c)).trans (State.raiseIf_rd_ne _ _ _ (pmuSum_ne_status c))

/-- The status has OVW beside what it had. -/
theorem State.resStored_status : (s.resStored c res info).rd (A.CH_PMU_STATUS c)
    = (s.raiseIf (F.CH_PMU_RESINFO.NEW.on (s.ch c).pmuInfo) (A.CH_PMU_STATUS c) F.CH_PMU_STATUS.OVW).rd (A.CH_PMU_STATUS c) :=
  State.wr_rd_ne _ _ _ (pmuStatus_ne_res c)

theorem State.resStored_ovw : (s.resStored c res info).fon (A.CH_PMU_STATUS c) F.CH_PMU_STATUS.OVW
    = (s.fon (A.CH_PMU_STATUS c) F.CH_PMU_STATUS.OVW || F.CH_PMU_RESINFO.NEW.on (s.ch c).pmuInfo) :=
  (congrArg F.CH_PMU_STATUS.OVW.on (s.resStored_status c res info)).trans
    (State.fon_raiseIf_same _ _ _ (by decide) (by decide))

theorem State.resStored_flag (up : Bool) : (s.resStored c res info).fon (A.CH_PMU_STATUS c) (limFlag up)
    = s.fon (A.CH_PMU_STATUS c) (limFlag up) :=
  (congrArg (limFlag up).on (s.resStored_status c res info)).trans
    (State.fon_raiseIf_ne _ _ _ _ (by cases up <;> decide))

theorem State.resStored_bits : RegBits (pmuResBits c) s (s.resStored c res info) := by
  refine RegBits.of_reg (RegBits.wr ?_ (pmuRes_mem c)) rfl
  exact .ite (RegBits.refl.raiseF (pmuStatus_mem c) (by decide)) .refl

theorem State.resStored_same {p : Part} (h : p ≠ .regs) (h1 : p ≠ .chan) : p.same s (s.resStored c res info) :=
  have := p.kept; have := Part.kRegs h; have := Part.kChan h1
  State.updCh_keeps (State.wr_keeps (State.raiseIf_keeps Keeps.refl))

end

/-! ### A limit (R201, R202) -/

section
variable (s : State) (c : Nat) (up beyond : Bool)

theorem State.limTested_rd (a : Nat) : (s.limTested c up beyond).rd a
    = ((s.raiseIf beyond (A.CH_PMU_STATUS c) (limFlag up)).countIf beyond (A.CH_PMU_SUM c) (limCount up)).rd a := by
  cases beyond
  all_goals rfl

/-- The flag of the limit sets where the result exceeds it. -/
theorem State.limTested_flag : (s.limTested c up beyond).fon (A.CH_PMU_STATUS c) (limFlag up)
    = (s.fon (A.CH_PMU_STATUS c) (limFlag up) || beyond) := by
  unfold State.fon
  rw [State.limTested_rd, State.countIf_rd_ne _ _ _ (pmuSum_ne_status c).symm]
  exact State.fon_raiseIf_same _ _ _ (by cases up <;> decide) (by cases up <;> decide)

theorem State.limTested_fon_ne {g : Fld} (h : (limFlag up).lo + (limFlag up).width ≤ g.lo ∨ g.lo + g.width ≤ (limFlag up).lo) :
    (s.limTested c up beyond).fon (A.CH_PMU_STATUS c) g = s.fon (A.CH_PMU_STATUS c) g := by
  unfold State.fon
  rw [State.limTested_rd, State.countIf_rd_ne _ _ _ (pmuSum_ne_status c).symm]
  exact State.fon_raiseIf_ne _ _ _ _ h

/-- Its count goes on there. -/
theorem State.limTested_count : (s.limTested c up beyond).fget (A.CH_PMU_SUM c) (limCount up)
    = min (s.fget (A.CH_PMU_SUM c) (limCount up) + (if beyond then 1 else 0)) (limCount up).max := by
  unfold State.fget
  rw [State.limTested_rd, ← State.raiseIf_rd_ne s beyond (limFlag up) (pmuSum_ne_status c)]
  exact State.fget_countIf_same _ _ _ (by cases up <;> decide)

theorem State.limTested_fget_ne {g : Fld}
    (h : (limCount up).lo + (limCount up).width ≤ g.lo ∨ g.lo + g.width ≤ (limCount up).lo) :
    (s.limTested c up beyond).fget (A.CH_PMU_SUM c) g = s.fget (A.CH_PMU_SUM c) g := by
  unfold State.fget
  rw [State.limTested_rd, ← State.raiseIf_rd_ne s beyond (limFlag up) (pmuSum_ne_status c)]
  exact State.fget_countIf_ne _ _ _ _ h

theorem State.limTested_rd_ne {a : Nat} (h : a ≠ A.CH_PMU_STATUS c) (h1 : a ≠ A.CH_PMU_SUM c) :
    (s.limTested c up beyond).rd a = s.rd a := by
  rw [State.limTested_rd, State.countIf_rd_ne _ _ _ h1, State.raiseIf_rd_ne _ _ _ h]

theorem State.limTested_bits : RegBits (pmuResBits c) s (s.limTested c up beyond) := by
  cases beyond
  · exact .refl
  · exact ((RegBits.refl.raiseF (pmuStatus_mem c) (by cases up <;> decide)).inc (n := 1) (pmuSum_mem c)
      (by cases up <;> decide)).of_reg rfl

theorem State.limTested_same {p : Part} (h : p ≠ .regs) (h1 : p ≠ .rt) : p.same s (s.limTested c up beyond) :=
  have := p.kept; have := Part.kRegs h; have := Part.kRt h1
  State.cond_keeps Keeps.refl fun _ => State.eventBefore_keeps (State.inc_keeps (State.raiseF_keeps Keeps.refl))

theorem State.limTested_prevStamp : (s.limTested c up beyond).prevStamp = s.prevStamp :=
  State.prevStamp_congr (State.limTested_same (p := .clk) s c up beyond (by decide) (by decide))
    (s.limTested_rd_ne c up beyond (by unfold A.TICK_STATUS A.CH_PMU_STATUS; omega) (by unfold A.TICK_STATUS A.CH_PMU_SUM; omega))

/-- Its event belongs to the tick before. -/
theorem State.limTested_events : (s.limTested c up beyond).rt.events
    = s.rt.events ++ (if beyond then [⟨evPmu, c, limKind up, s.now - 1, s.prevStamp, 0⟩] else []) := by
  cases beyond
  · exact (List.append_nil _).symm
  · rw [← s.limTested_prevStamp c up true]
    rfl

end

/-! ### PMC_RESULT -/

theorem State.pmcStore_of_noconn {d : PmcDone} (h : d.noconn = true) (s : State) (n : Nat) (sum : Int) (ovr : Bool) :
    s.pmcStore n d sum ovr = s.resStored d.ch 0 (pmcInfo n d false false false) := by
  obtain ⟨_, _, _, _, _, _, _, _⟩ := d
  subst h
  cases ovr <;> rfl

/-- The result of a connected channel counts before its limits are tested. -/
def State.resCounted (s : State) (c : Nat) (res : Int) (info : Word) : State :=
  (s.resStored c res info).countIf true (A.CH_PMU_SUM c) F.CH_PMU_SUM.RESULTS

section
variable (s : State) (c : Nat) (res : Int) (info : Word)

theorem State.resCounted_rd_ne {a : Nat} (h : a ≠ A.CH_PMU_SUM c) :
    (s.resCounted c res info).rd a = (s.resStored c res info).rd a := State.countIf_rd_ne _ _ _ h

theorem State.resCounted_results : (s.resCounted c res info).fget (A.CH_PMU_SUM c) F.CH_PMU_SUM.RESULTS
    = min (s.fget (A.CH_PMU_SUM c) F.CH_PMU_SUM.RESULTS + 1) F.CH_PMU_SUM.RESULTS.max := by
  unfold State.fget
  rw [← s.resStored_sum c res info]
  exact State.fget_countIf_same _ true _ (by decide)

theorem State.resCounted_count (up : Bool) : (s.resCounted c res info).fget (A.CH_PMU_SUM c) (limCount up)
    = s.fget (A.CH_PMU_SUM c) (limCount up) :=
  (State.fget_countIf_ne _ true _ _ (by cases up <;> decide)).trans
    (congrArg (limCount up).get (s.resStored_sum c res info))

theorem State.resCounted_flag (up : Bool) : (s.resCounted c res info).fon (A.CH_PMU_STATUS c) (limFlag up)
    = s.fon (A.CH_PMU_STATUS c) (limFlag up) :=
  (congrArg (limFlag up).on (s.resCounted_rd_ne c res info (pmuSum_ne_status c).symm)).trans (s.resStored_flag c res info up)

theorem State.resCounted_ovw : (s.resCounted c res info).fon (A.CH_PMU_STATUS c) F.CH_PMU_STATUS.OVW
    = (s.fon (A.CH_PMU_STATUS c) F.CH_PMU_STATUS.OVW || F.CH_PMU_RESINFO.NEW.on (s.ch c).pmuInfo) :=
  (congrArg F.CH_PMU_STATUS.OVW.on (s.resCounted_rd_ne c res info (pmuSum_ne_status c).symm)).trans (s.resStored_ovw c res info)

theorem State.resCounted_bits : RegBits (pmuResBits c) s (s.resCounted c res info) :=
  (s.resStored_bits c res info).inc (n := 1) (pmuSum_mem c) (by decide)

theorem State.resCounted_same {p : Part} (h : p ≠ .regs) (h1 : p ≠ .chan) : p.same s (s.resCounted c res info) :=
  have := p.kept; have := Part.kRegs h
  State.inc_keeps (s.resStored_same c res info h h1)

theorem State.resCounted_prevStamp : (s.resCounted c res info).prevStamp = s.prevStamp := by
  have hmem : A.TICK_STATUS ∉ (pmuResBits c).map (·.1) := by
    simp [pmuResBits, A.TICK_STATUS, A.CH_PMU_RES, A.CH_PMU_SUM, A.CH_PMU_STATUS]
  exact State.prevStamp_congr (s.resCounted_same (p := .clk) c res info (by decide) (by decide))
    ((s.resCounted_bits c res info).rd hmem)

end

/-- Both limits are tested, the upper one first. -/
def State.limsTested (s : State) (c : Nat) (hi lo : Bool) : State := (s.limTested c true hi).limTested c false lo

section
variable (s : State) (c : Nat) (hi lo : Bool)

theorem State.limsTested_flags : (s.limsTested c hi lo).fon (A.CH_PMU_STATUS c) F.CH_PMU_STATUS.LIM_HI
      = (s.fon (A.CH_PMU_STATUS c) F.CH_PMU_STATUS.LIM_HI || hi)
    ∧ (s.limsTested c hi lo).fon (A.CH_PMU_STATUS c) F.CH_PMU_STATUS.LIM_LO
      = (s.fon (A.CH_PMU_STATUS c) F.CH_PMU_STATUS.LIM_LO || lo) := by
  have hfirst := s.limTested_fon_ne c true hi (g := limFlag false) (by decide)
  exact ⟨(State.limTested_fon_ne _ c false lo (g := limFlag true) (by decide)).trans (s.limTested_flag c true hi),
    (State.limTested_flag _ c false lo).trans (congrArg (· || lo) hfirst)⟩

theorem State.limsTested_counts : (s.limsTested c hi lo).fget (A.CH_PMU_SUM c) F.CH_PMU_SUM.HI
      = min (s.fget (A.CH_PMU_SUM c) F.CH_PMU_SUM.HI + (if hi then 1 else 0)) F.CH_PMU_SUM.HI.max
    ∧ (s.limsTested c hi lo).fget (A.CH_PMU_SUM c) F.CH_PMU_SUM.LO
      = min (s.fget (A.CH_PMU_SUM c) F.CH_PMU_SUM.LO + (if lo then 1 else 0)) F.CH_PMU_SUM.LO.max := by
  have hfirst := s.limTested_fget_ne c true hi (g := limCount false) (by decide)
  refine ⟨(State.limTested_fget_ne _ c false lo (g := limCount true) (by decide)).trans (s.limTested_count c true hi),
    (State.limTested_count _ c false lo).trans ?_⟩
  rw [hfirst]
  rfl

/-- What the limits do not touch: the count of results, OVW, and the result. -/
theorem State.limsTested_others : (s.limsTested c hi lo).fget (A.CH_PMU_SUM c) F.CH_PMU_SUM.RESULTS
      = s.fget (A.CH_PMU_SUM c) F.CH_PMU_SUM.RESULTS
    ∧ (s.limsTested c hi lo).fon (A.CH_PMU_STATUS c) F.CH_PMU_STATUS.OVW = s.fon (A.CH_PMU_STATUS c) F.CH_PMU_STATUS.OVW
    ∧ (s.limsTested c hi lo).rd (A.CH_PMU_RES c) = s.rd (A.CH_PMU_RES c) :=
  ⟨(State.limTested_fget_ne _ c false lo (by decide)).trans (s.limTested_fget_ne c true hi (by decide)),
    (State.limTested_fon_ne _ c false lo (by decide)).trans (s.limTested_fon_ne c true hi (by decide)),
    (State.limTested_rd_ne _ c false lo (pmuStatus_ne_res c).symm (pmuSum_ne_res c).symm).trans
      (s.limTested_rd_ne c true hi (pmuStatus_ne_res c).symm (pmuSum_ne_res c).symm)⟩

theorem State.limsTested_same {p : Part} (h : p ≠ .regs) (h1 : p ≠ .rt) : p.same s (s.limsTested c hi lo) :=
  have := p.kept
  Keeps.trans (s.limTested_same c true hi h h1) (State.limTested_same _ c false lo h h1)

theorem State.limsTested_bits : RegBits (pmuResBits c) s (s.limsTested c hi lo) :=
  (s.limTested_bits c true hi).trans (State.limTested_bits _ c false lo)

theorem State.limsTested_events : (s.limsTested c hi lo).rt.events
    = s.rt.events ++ (if hi then [⟨evPmu, c, 0, s.now - 1, s.prevStamp, 0⟩] else [])
      ++ (if lo then [⟨evPmu, c, 1, s.now - 1, s.prevStamp, 0⟩] else []) := by
  have hnow : (s.limTested c true hi).now = s.now :=
    congrArg Clk.seq (State.limTested_same (p := .clk) s c true hi (by decide) (by decide))
  refine (State.limTested_events _ c false lo).trans ?_
  rw [s.limTested_events c true hi, s.limTested_prevStamp c true hi, hnow]
  rfl

end

theorem State.pmcStore_of_conn {d : PmcDone} (h : d.noconn = false) (s : State) (n : Nat) (sum : Int) (ovr : Bool) {res : Int}
    {hi lo : Bool} (hr : res = pmcResult sum d.navg) (hhi : pmuBeyond d.ch res true s = hi)
    (hlo : pmuBeyond d.ch res false s = lo) :
    s.pmcStore n d sum ovr = (s.resCounted d.ch res (pmcInfo n d ovr hi lo)).limsTested d.ch hi lo := by
  obtain ⟨c, tick, noconn, ramped, range, meas, navg, due⟩ := d
  subst h hr
  have hhi' : (F.CH_PMU_CTL.LIM_HI_EN.on (s.eff (A.CH_PMU_CTL c))
      && decide (twos 36 (s.rd (A.CH_PMU_LIMHI c)).toNat < pmcResult sum navg)) = hi := hhi
  have hlo' : (F.CH_PMU_CTL.LIM_LO_EN.on (s.eff (A.CH_PMU_CTL c))
      && decide (pmcResult sum navg < twos 36 (s.rd (A.CH_PMU_LIMLO c)).toNat)) = lo := hlo
  unfold State.pmcStore
  simp only [Bool.not_false, Bool.true_and, Bool.and_true, if_neg Bool.false_ne_true, hhi', hlo']
  rfl

/-- Of a channel, connected or not, a result leaves its information word, and OVW where the last one was not read (R200). -/
theorem State.pmcStore_informs (s : State) (n : Nat) (d : PmcDone) (sum : Int) (ovr : Bool) {res : Int} {t : State}
    (hr : res = pmcResult sum d.navg) (ht : t = s.pmcStore n d sum ovr) :
    (t.ch d.ch).pmuInfo = pmcInfo n d (ovr && !d.noconn) (pmuBeyond d.ch res true s && !d.noconn)
        (pmuBeyond d.ch res false s && !d.noconn)
      ∧ t.fon (A.CH_PMU_STATUS d.ch) F.CH_PMU_STATUS.OVW
        = (s.fon (A.CH_PMU_STATUS d.ch) F.CH_PMU_STATUS.OVW || F.CH_PMU_RESINFO.NEW.on (s.ch d.ch).pmuInfo)
      ∧ t.pmc = s.pmc ∧ RegBits (pmuResBits d.ch) s t := by
  cases hn : d.noconn
  case true =>
    rw [State.pmcStore_of_noconn hn s n sum ovr] at ht
    subst ht
    simp only [Bool.not_true, Bool.and_false]
    exact ⟨by rw [State.resStored_ch], s.resStored_ovw .., s.resStored_same (p := .pmc) _ _ _ (by decide) (by decide),
      s.resStored_bits _ _ _⟩
  case false =>
    rw [State.pmcStore_of_conn hn s n sum ovr hr rfl rfl] at ht
    subst ht
    simp only [Bool.not_false, Bool.and_true]
    generalize hw : pmcInfo n d ovr (pmuBeyond d.ch res true s) (pmuBeyond d.ch res false s) = info
    generalize pmuBeyond d.ch res true s = hi
    generalize pmuBeyond d.ch res false s = lo
    generalize hx : s.resCounted d.ch res info = x
    obtain ⟨-, hovw, -⟩ := x.limsTested_others d.ch hi lo
    have hch : (x.limsTested d.ch hi lo).chan = x.chan := x.limsTested_same (p := .chan) _ _ _ (by decide) (by decide)
    have hpmc : (x.limsTested d.ch hi lo).pmc = x.pmc := x.limsTested_same (p := .pmc) _ _ _ (by decide) (by decide)
    have hinfo : ((x.limsTested d.ch hi lo).ch d.ch).pmuInfo = info := by
      unfold State.ch
      rw [hch, ← hx]
      exact congrArg Chan.pmuInfo (s.resStored_ch d.ch res info)
    refine ⟨hinfo, hovw.trans ?_, hpmc.trans ?_, RegBits.trans ?_ (x.limsTested_bits _ _ _)⟩
    all_goals subst hx
    · exact s.resCounted_ovw ..
    · exact s.resCounted_same (p := .pmc) _ _ _ (by decide) (by decide)
    · exact s.resCounted_bits _ _ _

/-- A channel that was not connected stores 0 and counts nothing (R199, R202). -/
theorem State.pmcStore_stores_nothing {d : PmcDone} (hn : d.noconn = true) (s : State) (n : Nat) (sum : Int) (ovr : Bool)
    {t : State} (ht : t = s.pmcStore n d sum ovr) :
    t.rd (A.CH_PMU_RES d.ch) = 0 ∧ t.rd (A.CH_PMU_SUM d.ch) = s.rd (A.CH_PMU_SUM d.ch) ∧ t.rt = s.rt := by
  rw [State.pmcStore_of_noconn hn s n sum ovr] at ht
  subst ht
  exact ⟨s.resStored_res .., s.resStored_sum .., s.resStored_same (p := .rt) _ _ _ (by decide) (by decide)⟩

/-- A connected channel stores the mean, counts it, and tests both limits (R199 to R202). -/
theorem State.pmcStore_stores {d : PmcDone} (hn : d.noconn = false) (s : State) (n : Nat) (sum : Int) (ovr : Bool) {res : Int}
    {hi lo : Bool} {t : State} (hr : res = pmcResult sum d.navg) (hhi : pmuBeyond d.ch res true s = hi)
    (hlo : pmuBeyond d.ch res false s = lo) (ht : t = s.pmcStore n d sum ovr) :
    t.rd (A.CH_PMU_RES d.ch) = BitVec.ofInt 36 res
      ∧ t.fget (A.CH_PMU_SUM d.ch) F.CH_PMU_SUM.RESULTS
        = min (s.fget (A.CH_PMU_SUM d.ch) F.CH_PMU_SUM.RESULTS + 1) F.CH_PMU_SUM.RESULTS.max
      ∧ t.fget (A.CH_PMU_SUM d.ch) F.CH_PMU_SUM.HI
        = min (s.fget (A.CH_PMU_SUM d.ch) F.CH_PMU_SUM.HI + (if hi then 1 else 0)) F.CH_PMU_SUM.HI.max
      ∧ t.fget (A.CH_PMU_SUM d.ch) F.CH_PMU_SUM.LO
        = min (s.fget (A.CH_PMU_SUM d.ch) F.CH_PMU_SUM.LO + (if lo then 1 else 0)) F.CH_PMU_SUM.LO.max
      ∧ t.fon (A.CH_PMU_STATUS d.ch) F.CH_PMU_STATUS.LIM_HI = (s.fon (A.CH_PMU_STATUS d.ch) F.CH_PMU_STATUS.LIM_HI || hi)
      ∧ t.fon (A.CH_PMU_STATUS d.ch) F.CH_PMU_STATUS.LIM_LO = (s.fon (A.CH_PMU_STATUS d.ch) F.CH_PMU_STATUS.LIM_LO || lo)
      ∧ t.rt.events = s.rt.events ++ (if hi then [⟨evPmu, d.ch, 0, s.now - 1, s.prevStamp, 0⟩] else [])
          ++ (if lo then [⟨evPmu, d.ch, 1, s.now - 1, s.prevStamp, 0⟩] else []) := by
  rw [State.pmcStore_of_conn hn s n sum ovr hr hhi hlo] at ht
  subst ht
  generalize pmcInfo n d ovr hi lo = info
  have hsame {p : Part} (h : p ≠ .regs) (h1 : p ≠ .chan) : p.same s (s.resCounted d.ch res info) :=
    s.resCounted_same _ _ _ h h1
  have hnow : (s.resCounted d.ch res info).now = s.now := congrArg Clk.seq (hsame (p := .clk) (by decide) (by decide))
  have hrt : (s.resCounted d.ch res info).rt = s.rt := hsame (p := .rt) (by decide) (by decide)
  obtain ⟨hresults, -, hres⟩ := (s.resCounted d.ch res info).limsTested_others d.ch hi lo
  obtain ⟨hcountHi, hcountLo⟩ := (s.resCounted d.ch res info).limsTested_counts d.ch hi lo
  obtain ⟨hflagHi, hflagLo⟩ := (s.resCounted d.ch res info).limsTested_flags d.ch hi lo
  refine ⟨hres.trans ((s.resCounted_rd_ne _ _ _ (pmuSum_ne_res _).symm).trans (s.resStored_res ..)),
    hresults.trans (s.resCounted_results ..), hcountHi.trans ?_, hcountLo.trans ?_, hflagHi.trans ?_, hflagLo.trans ?_, ?_⟩
  · rw [show State.fget _ _ F.CH_PMU_SUM.HI = _ from s.resCounted_count d.ch res info true]
    rfl
  · rw [show State.fget _ _ F.CH_PMU_SUM.LO = _ from s.resCounted_count d.ch res info false]
    rfl
  · exact congrArg (· || hi) (s.resCounted_flag d.ch res info true)
  · exact congrArg (· || lo) (s.resCounted_flag d.ch res info false)
  · rw [State.limsTested_events, s.resCounted_prevStamp, hnow, hrt]

/-- The oldest measured channel, taken off those that wait to be stored. -/
def State.pmcTaken (s : State) (n : Nat) (rest : List PmcDone) : State := s.updPm n (fun p => { p with done := rest })

theorem execPmcResult_of_due {s : State} {b : Fin 12} {k : Fin 8} {d : PmcDone} {rest : List PmcDone}
    (hd : (s.pm (pmcOf b k)).done = d :: rest) (hdue : d.due ≤ s.now) (hlow : s.pmcLower b k d.ch = false) (sum : Int)
    (ovr : Bool) : execPmcResult b k sum ovr s
      = .next ((s.pmcTaken (pmcOf b k) rest).pmcStore (pmcOf b k) d sum ovr) := by
  unfold execPmcResult
  dsimp only
  rw [hd]
  exact if_neg (by simp [hlow, Nat.not_lt.mpr hdue])

theorem execPmcResult_of_not {s : State} {b : Fin 12} {k : Fin 8} (h : ∀ d rest, (s.pm (pmcOf b k)).done = d :: rest →
      s.now < d.due ∨ s.pmcLower b k d.ch = true) (sum : Int) (ovr : Bool) : execPmcResult b k sum ovr s = .next s := by
  unfold execPmcResult
  dsimp only
  cases hd : (s.pm (pmcOf b k)).done with
  | nil => rfl
  | cons d rest => exact if_pos (by rcases h d rest hd with h | h <;> simp [h])

/-! ### The statement -/

/-- Settles O41: GO is a request of the arbiter (`arbRequest_pmc_arbs`), STOP a withdrawal that frees the converter
(`pmcStop_status`, `pmcFree_waits`), and a result is stored with its word (`pmcStore_informs`), and counted and tested where the
channel was connected (`pmcStore_stores`). -/
theorem converterCommands : Obligations.ConverterCommands := by
  unfold Obligations.ConverterCommands
  refine ⟨fun s b k who hr hu => ?_, fun s b k who hr hu => ?_, fun s b k who hr => ?_, fun s b k => ?_,
    fun s b k sum ovr d rest info res hd hdue hlow hres => ?_, fun s b k sum ovr h => execPmcResult_of_not h sum ovr⟩
  · rw [← pmcStat_pmcOf b k]
    exact ⟨_, congrArg Host.Outcome.next (State.pmcGo_of_usable hr hu who s.now),
      ⟨_, List.mem_append_right _ (List.mem_singleton_self _), rfl, rfl, rfl, rfl, rfl, rfl, rfl⟩,
      fun a ha hres hcls htag => State.arbRequest_pmc_id ha hres hcls htag, fun a ha h => State.mem_arbRequest_pmc ha h _ _ _,
      State.arbRequest_pmc_waiting .., State.updArbs_pmc_bits List.mem_cons_self (by decide) s _⟩
  · rw [← pmcStat_pmcOf b k]
    exact ⟨_, congrArg Host.Outcome.next (State.pmcGo_of_unusable hr hu who s.now), rfl,
      State.fon_raiseF_same _ _ _ (by decide) (by decide), RegBits.refl.raiseF List.mem_cons_self (by decide)⟩
  · exact congrArg Host.Outcome.next (State.pmcGo_of_reload hr k who s.now)
  · rw [← pmcStat_pmcOf b k]
    obtain ⟨hbusy, hwait, hwaiting, hbits⟩ := s.pmcStop_status b k
    obtain ⟨hqueue, hstaged⟩ := (s.pmcCancelled (pmcOf b k)).pmcFree_waits (pmcOf b k)
    exact ⟨_, rfl, State.pmcFree_pm _ _, rfl, hbusy, hwait, hwaiting, hqueue, hstaged, fun n h => State.pmcFree_pm_ne _ h, hbits⟩
  · obtain ⟨hinfo, hovw, hpmc, hbits⟩ := (s.pmcTaken (pmcOf b k) rest).pmcStore_informs (pmcOf b k) d sum ovr hres rfl
    refine ⟨_, execPmcResult_of_due hd hdue hlow sum ovr, ?_, fun h => ?_, hovw, fun hn => ?_, fun hn => ?_, hbits⟩
    · exact (congrArg (Tab.get (fun _ => ({} : Pmc)) · _) hpmc).trans (s.updPm_pm_same _ _)
    · have hfields := pmcInfo_fields (h.trans hinfo)
      rw [pmcOf_mod] at hfields
      exact hfields
    · exact State.pmcStore_stores_nothing hn (s.pmcTaken (pmcOf b k) rest) (pmcOf b k) sum ovr rfl
    · exact State.pmcStore_stores hn (s.pmcTaken (pmcOf b k) rest) (pmcOf b k) sum ovr hres rfl rfl rfl

end Sys2Proof.Machine
end
